-- ==== Sys2Proof/Word.lean ====
section
/-!
DEFINITION. The word types of the T32 and their plainest arithmetic (R4, R7).
-/

namespace Sys2Proof

/-- One byte. -/
abbrev Byte := BitVec 8
/-- One 32-bit word: a slot word, a literal-pool word, a vector lane, a tile element. -/
abbrev W32 := BitVec 32
/-- One 64-bit word: a scalar register, an address, a control register. -/
abbrev W64 := BitVec 64

/-- One core of the package: 64 × die + 4 × rope + position (R1, R169). -/
abbrev CoreId := Fin 2048
/-- One rope of the package: 16 × die + rope (R182). -/
abbrev RopeId := Fin 512
/-- One compute die (R1). -/
abbrev DieId := Fin 32
/-- One hardware work queue of collective chiplet 0 (R171). -/
abbrev QueueId := Fin 1024
/-- One member package of the load-store domain (R14). -/
abbrev PkgId := Fin 16

end Sys2Proof
end

