-- ==== Sys2Proof/Syntax.lean ====
section
/-!
DEFINITION. The instruction syntax: one constructor of `Instr` for each row of spec/opcode_table.json.
Rows with an encoding carry the operand fields of their slot word; rows without one are the machine's events and carry
the agent and the record they act on.
-/

namespace Sys2Proof

/-- The twelve slots of a bundle, in slot order (R106). -/
inductive SlotKind where
  | sa | sb | va | vb | vc | xf | xt | mx | ld | st | ce | sy
  deriving DecidableEq, Repr

/-- The slot's number in the presence mask (R106). -/
def SlotKind.num : SlotKind → Nat
  | .sa => 0 | .sb => 1 | .va => 2 | .vb => 3 | .vc => 4 | .xf => 5
  | .xt => 6 | .mx => 7 | .ld => 8 | .st => 9 | .ce => 10 | .sy => 11

/-- The slots in slot order (R106). -/
def SlotKind.all : List SlotKind :=
  [.sa, .sb, .va, .vb, .vc, .xf, .xt, .mx, .ld, .st, .ce, .sy]

/-- Fields of a scalar slot word (R117). -/
structure ScalarOp where
  unit : BitVec 2
  d : BitVec 5
  a : BitVec 5
  b : BitVec 5
  l : BitVec 1
  guard : BitVec 3
  funct : BitVec 3
  deriving DecidableEq, Repr

/-- Fields of a vector slot word (R121). -/
structure VecOp where
  ty : BitVec 3
  unit : BitVec 3
  d : BitVec 5
  a : BitVec 5
  b : BitVec 5
  l : BitVec 1
  q : BitVec 3
  deriving DecidableEq, Repr

/-- Fields of an XF slot word (R122). -/
structure XfOp where
  ty : BitVec 2
  d : BitVec 5
  a : BitVec 5
  b : BitVec 5
  c1 : BitVec 3
  c2 : BitVec 3
  q : BitVec 3
  deriving DecidableEq, Repr

/-- Fields of an XT slot word (R123). -/
structure XtOp where
  v : BitVec 5
  idx : BitVec 5
  esize : BitVec 2
  deriving DecidableEq, Repr

/-- Fields of the plain `mpush` (R265). -/
structure MpushOp where
  row : BitVec 7
  a : BitVec 5
  c : BitVec 3
  deriving DecidableEq, Repr

/-- Fields of `mpush.t` (R265). -/
structure MpushTOp where
  row : BitVec 7
  col : BitVec 4
  c : BitVec 3
  deriving DecidableEq, Repr

/-- Fields of `mmac`; `fmt` is zero in `mmac.f` (R265). -/
structure MmacOp where
  tile : BitVec 8
  mm1 : BitVec 7
  fmt : BitVec 6
  cs : BitVec 4
  deriving DecidableEq, Repr

/-- Fields of `mclr` (R265). -/
structure MclrOp where
  tile : BitVec 8
  nm1 : BitVec 3
  deriving DecidableEq, Repr

/-- Fields of `mrd` and `mwr` (R265). -/
structure MrowOp where
  v : BitVec 5
  tile : BitVec 8
  row : BitVec 7
  c : BitVec 3
  i : BitVec 1
  deriving DecidableEq, Repr

/-- Fields of `ld` (R138). -/
structure LdOp where
  d : BitVec 5
  a : BitVec 5
  lane : BitVec 4
  tap : BitVec 6
  size : BitVec 2
  sx : BitVec 1
  il : BitVec 1
  deriving DecidableEq, Repr

/-- Fields of `ldg` (R138). -/
structure LdgOp where
  d : BitVec 5
  a : BitVec 5
  size : BitVec 2
  sx : BitVec 1
  deriving DecidableEq, Repr

/-- Fields of `vld` (R138). -/
structure VldOp where
  d : BitVec 5
  a : BitVec 5
  lane : BitVec 4
  tap : BitVec 6
  c : BitVec 3
  il : BitVec 1
  h : BitVec 1
  deriving DecidableEq, Repr

/-- Fields of `vlds` and `vsts` (R138, R139). -/
structure VmaskOp where
  v : BitVec 5
  a : BitVec 5
  lane : BitVec 4
  tap : BitVec 6
  c : BitVec 3
  q : BitVec 3
  deriving DecidableEq, Repr

/-- Fields of `vgat` and `vsct` (R138, R139). -/
structure VwinOp where
  v : BitVec 5
  a : BitVec 5
  lane : BitVec 4
  tap : BitVec 6
  c : BitVec 3
  deriving DecidableEq, Repr

/-- Fields of `ldsc` (R138). -/
structure LdscOp where
  a : BitVec 5
  lane : BitVec 4
  tap : BitVec 6
  deriving DecidableEq, Repr

/-- Fields of `st` (R139). -/
structure StOp where
  s : BitVec 5
  a : BitVec 5
  lane : BitVec 4
  tap : BitVec 6
  size : BitVec 2
  g : BitVec 1
  il : BitVec 1
  deriving DecidableEq, Repr

/-- Fields of `stg` (R139). -/
structure StgOp where
  s : BitVec 5
  a : BitVec 5
  size : BitVec 2
  g : BitVec 1
  deriving DecidableEq, Repr

/-- Fields of `vst` (R139). -/
structure VstOp where
  s : BitVec 5
  a : BitVec 5
  lane : BitVec 4
  tap : BitVec 6
  c : BitVec 3
  il : BitVec 1
  g : BitVec 1
  deriving DecidableEq, Repr

/-- Fields of an atomic (R140). -/
structure AtomOp where
  d : BitVec 5
  a : BitVec 5
  lane : BitVec 4
  tap : BitVec 6
  s : BitVec 5
  n : BitVec 1
  deriving DecidableEq, Repr

/-- Fields of a copy-engine transfer (R288). -/
structure XferOp where
  e : BitVec 1
  x : BitVec 5
  h : BitVec 1
  handle : BitVec 6
  deriving DecidableEq, Repr

/-- Fields of `hset` (R288). -/
structure HsetOp where
  handle : BitVec 6
  a : BitVec 5
  b : BitVec 5
  wb : BitVec 1
  c : BitVec 5
  deriving DecidableEq, Repr

/-- Fields of `hprobe` (R288). -/
structure HprobeOp where
  handle : BitVec 6
  p : BitVec 3
  cond : BitVec 3
  deriving DecidableEq, Repr

/-- Fields of the collective commands (R288). -/
structure CollOp where
  d : BitVec 5
  a : BitVec 5
  b : BitVec 5
  deriving DecidableEq, Repr

/-- Fields of the barrier access forms; `b` serves `bar.init`, `nw` serves `bar.arrive` (R303). -/
structure BarOp where
  a : BitVec 5
  b : BitVec 5
  lane : BitVec 4
  tap : BitVec 6
  nw : BitVec 1
  deriving DecidableEq, Repr

/-- Fields of `belay.keep.a` (R303). -/
structure KeepAOp where
  tile : BitVec 8
  nm1 : BitVec 4
  deriving DecidableEq, Repr

/-- Fields of `cmpt` (R303). -/
structure CmptOp where
  v : BitVec 1
  a : BitVec 5
  b : BitVec 5
  deriving DecidableEq, Repr

/-- Fields of the CSR forms (R348). -/
structure CsrOp where
  d : BitVec 5
  a : BitVec 5
  num : BitVec 12
  deriving DecidableEq, Repr

/-- A measured unit of one die: the subject of a sample, a retest or a failure (R364, R366, R372, R373). -/
inductive UnitRef where
  /-- scalar ALU `n` of a core of the die -/
  | scalar (core : Fin 64) (n : Fin 3)
  /-- column `e` of physical cluster `p` -/
  | column (core : Fin 64) (p : Fin 9) (e : Fin 6)
  /-- XF unit of physical cluster `p` -/
  | xf (core : Fin 64) (p : Fin 9)
  /-- XT unit of physical cluster `p` -/
  | xt (core : Fin 64) (p : Fin 9)
  /-- matrix array of a core -/
  | matrix (core : Fin 64)
  /-- ring segment of a rope of the die -/
  | segment (rope : Fin 16) (seg : Fin 32)
  /-- ring lane of a rope of the die -/
  | lane (rope : Fin 16) (lane : Fin 16)
  deriving DecidableEq, Repr

/-- What a retest measured (R366). -/
structure RetestResult where
  passFull : Bool
  passHalf : Bool
  adder : BitVec 2
  deriving DecidableEq, Repr

/-- A stored word that carries check bits (R26, R41, R44, R47, R55). -/
inductive StorageLoc where
  /-- 64-bit scalar register of a core: 0–31 s registers, 32–47 k registers -/
  | scalarReg (core : CoreId) (n : Fin 48)
  /-- one 32-bit lane of a vector register of a physical cluster -/
  | vectorLane (core : CoreId) (p : Fin 9) (reg : Fin 32) (lane : Fin 16)
  /-- one lane predicate of a physical cluster -/
  | lanePred (core : CoreId) (p : Fin 9) (q : Fin 8)
  /-- the scalar predicates p0–p7 of a core -/
  | scalarPreds (core : CoreId)
  /-- INDEX of one level of a core's loop stack, the outermost first -/
  | loopIndex (core : CoreId) (level : Fin 6)
  /-- one word of the register snapshot SRAM of a core: 0–31 the s registers, from 32 the lanes of the v registers by logical cluster, register and
  lane, from 4128 the lane predicates by logical cluster and number, 4192 the scalar predicates -/
  | snapshot (core : CoreId) (n : Fin 4193)
  /-- one 32-bit element of an accumulator tile -/
  | tile (core : CoreId) (tile : Fin 192) (row : Fin 128) (col : Fin 32)
  /-- the 64-bit B-store word at 8 × n -/
  | bstore (core : CoreId) (n : Nat)
  /-- the 64-bit scratchpad word at 8 × n -/
  | scratch (rope : RopeId) (n : Nat)
  /-- one word of a transfer in flight on the ring -/
  | laneWord (rope : RopeId) (access : Nat) (word : Fin 8)
  /-- the 64-bit HBM word at physical address 8 × n -/
  | hbm (n : Nat)
  deriving DecidableEq, Repr

/-- A network element that can be declared dead (R435, R436). -/
inductive NetElement where
  | link (n : Nat)
  | switch (n : Nat)
  | member (pkg : PkgId)
  /-- a switch that lost the slot state of the named instances (R438) -/
  | lostInstances (ids : List Nat)
  deriving DecidableEq, Repr

/-- The way of a link-state update: the node that declared the death, and the chiplet of this package at which it arrives (R436). -/
structure UpdatePath where
  declarer : Nat
  node : BitVec 1
  deriving DecidableEq, Repr

/-- One tenant's partition configuration, as firmware installs it (R184, R402, R421). -/
structure Partition where
  /-- cores owned, as package core numbers -/
  cores : List Nat
  /-- (rope, bank mask, lane mask) for each rope used -/
  banks : List (Nat × Nat × Nat)
  /-- (die, channel mask) of the memory-port grants -/
  ports : List (Nat × Nat)
  /-- (rope, first handle, last handle) -/
  handles : List (Nat × Nat × Nat)
  /-- (first, last) physical byte address of each HBM partition -/
  hbm : List (Nat × Nat)
  /-- (chiplet, first byte, last byte) of the chunk-buffer ranges -/
  chunks : List (Nat × Nat × Nat)
  /-- (chiplet, first entry, last entry) of the trigger-table ranges -/
  triggers : List (Nat × Nat × Nat)
  /-- feature policy mask (R402) -/
  policy : BitVec 64
  /-- whether an object must be signed, and the public moduli, of 512 bytes each, that are trusted for its signatures (R398) -/
  needSig : Bool
  trusted : List (List Byte)
  /-- (ASID, data root, instruction root) of the tenant's address spaces (R22, R28, R30) -/
  roots : List (Nat × BitVec 64 × BitVec 64)
  /-- domain identifier carried by the tenant's space 5 requests (R32) -/
  domain : Nat
  deriving DecidableEq, Repr

/-- One instruction or event of the T32: one constructor for each row of spec/opcode_table.json. First the instructions and the
events that the machine raises itself, then the events that arrive from outside, then the forms without operands. -/
inductive Instr where
  /-- ADD (R191): Scalar 64-bit add: sD := a + b modulo 2^64. -/
  | add (o : ScalarOp)
  /-- SUB (R191): Scalar 64-bit subtract: sD := a - b. -/
  | sub (o : ScalarOp)
  /-- MUL (R191): Low 64 bits of the product a x b. -/
  | mul (o : ScalarOp)
  /-- MULH (R191): High 64 bits of the signed 128-bit product. -/
  | mulh (o : ScalarOp)
  /-- MULHN (R191): High 64 bits of the natural 128-bit product. -/
  | mulhn (o : ScalarOp)
  /-- DIV (R192): Signed division truncating toward zero, never trapping. -/
  | div (o : ScalarOp)
  /-- DIVN (R192): Natural division, never trapping. -/
  | divn (o : ScalarOp)
  /-- REM (R192): Signed remainder, with the sign of a or zero. -/
  | rem (o : ScalarOp)
  /-- REMN (R192): Natural remainder. -/
  | remn (o : ScalarOp)
  /-- AND (R191): Bitwise AND of a and b. -/
  | and (o : ScalarOp)
  /-- OR (R191): Bitwise OR of a and b. -/
  | or (o : ScalarOp)
  /-- XOR (R191): Bitwise XOR of a and b. -/
  | xor (o : ScalarOp)
  /-- ANDN (R191): Bitwise a AND NOT b. -/
  | andn (o : ScalarOp)
  /-- SHL (R191): Shift left by bits [5:0] of b. -/
  | shl (o : ScalarOp)
  /-- SHR (R191): Logical shift right by bits [5:0] of b. -/
  | shr (o : ScalarOp)
  /-- SRA (R191): Arithmetic shift right by bits [5:0] of b. -/
  | sra (o : ScalarOp)
  /-- ROT (R191): Rotate right by bits [5:0] of b. -/
  | rot (o : ScalarOp)
  /-- CLZ (R191): Count of leading zero bits of a. -/
  | clz (o : ScalarOp)
  /-- POPC (R191): Count of one bits of a. -/
  | popc (o : ScalarOp)
  /-- MIN (R191): Signed minimum of a and b. -/
  | min (o : ScalarOp)
  /-- MAX (R191): Signed maximum of a and b. -/
  | max (o : ScalarOp)
  /-- MINN (R191): Natural minimum of a and b. -/
  | minn (o : ScalarOp)
  /-- MAXN (R191): Natural maximum of a and b. -/
  | maxn (o : ScalarOp)
  /-- SEXT (R191): Sign-extends the low 8, 16 or 32 bits of a. -/
  | sext (o : ScalarOp)
  /-- ZEXT (R191): Zero-extends the low 8, 16 or 32 bits of a. -/
  | zext (o : ScalarOp)
  /-- BFX (R193): Extracts a bit field of a, natural or sign-extended. -/
  | bfx (o : ScalarOp)
  /-- BFI (R193): Inserts low bits of a into a field of sD. -/
  | bfi (o : ScalarOp)
  /-- LEA (R191): sD := a + (b << shift), with no address check. -/
  | lea (o : ScalarOp)
  /-- MOV (R191): Copies sA to sD. -/
  | mov (o : ScalarOp)
  /-- MOVL (R191): Loads a 32-bit sign-extended or 64-bit literal into sD. -/
  | movl (o : ScalarOp)
  /-- SEL (R191): Selects a or b by the predicate that FUNCT names. -/
  | sel (o : ScalarOp)
  /-- CMP (R194): Integer compare, signed or natural, into a scalar predicate. -/
  | cmp (o : ScalarOp)
  /-- FADD (R196): Scalar FP32 add, rounded once. -/
  | fadd (o : ScalarOp)
  /-- FSUB (R196): Scalar FP32 subtract, rounded once. -/
  | fsub (o : ScalarOp)
  /-- FMUL (R196): Scalar FP32 multiply, rounded once. -/
  | fmul (o : ScalarOp)
  /-- FFMA (R196): Scalar FP32 fused multiply-add into sD. -/
  | ffma (o : ScalarOp)
  /-- FMIN (R196): IEEE 754-2019 minimum of two FP32 values. -/
  | fmin (o : ScalarOp)
  /-- FMAX (R196): IEEE 754-2019 maximum of two FP32 values. -/
  | fmax (o : ScalarOp)
  /-- FCMP (R196): Ordered FP32 compare into a scalar predicate. -/
  | fcmp (o : ScalarOp)
  /-- FCVT (R197): Scalar conversion between FP and integer formats by conversion code. -/
  | fcvt (o : ScalarOp)
  /-- LIX (R198): Reads the INDEX of a loop level into sD. -/
  | lix (o : ScalarOp)
  /-- BR (R200): Relative branch with two delay bundles. -/
  | br (o : ScalarOp)
  /-- BC (R200): Conditional relative branch against zero, optionally gated by cmpt. -/
  | bc (o : ScalarOp)
  /-- JMP (R200): Jump to the address in sA with two delay bundles. -/
  | jmp (o : ScalarOp)
  /-- CALL_RELATIVE (R200): Pushes the return address and branches to a relative target. -/
  | callRelative (o : ScalarOp)
  /-- CALL_REGISTER (R200): Pushes the return address and branches to sA. -/
  | callRegister (o : ScalarOp)
  /-- RET (R200): Pops the return stack and branches there. -/
  | ret (o : ScalarOp)
  /-- LOOP (R203): Pushes a hardware loop level with count, END and flags. -/
  | loop (o : ScalarOp)
  /-- LOOPX (R204): Pops one to six loop levels. -/
  | loopx (o : ScalarOp)
  /-- VADD (R231): Per-element vector add. -/
  | vadd (o : VecOp)
  /-- VSUB (R231): Per-element vector subtract. -/
  | vsub (o : VecOp)
  /-- VMUL (R231): Per-element vector multiply. -/
  | vmul (o : VecOp)
  /-- VMULH (R231): High half of the per-element integer product. -/
  | vmulh (o : VecOp)
  /-- VFMA (R231): Per-element a x b + d, rounded once. -/
  | vfma (o : VecOp)
  /-- VFMS (R231): Per-element a x b - d, rounded once. -/
  | vfms (o : VecOp)
  /-- VFNMA (R231): Per-element d - a x b, rounded once. -/
  | vfnma (o : VecOp)
  /-- VMIN (R231): Per-element minimum. -/
  | vmin (o : VecOp)
  /-- VMAX (R231): Per-element maximum. -/
  | vmax (o : VecOp)
  /-- VABS (R231): Per-element absolute value. -/
  | vabs (o : VecOp)
  /-- VNEG (R231): Per-element negation. -/
  | vneg (o : VecOp)
  /-- VCLAMP (R232): Clamps a between lower bound b and upper bound d. -/
  | vclamp (o : VecOp)
  /-- VCEQ (R233): Vector equal compare into a lane predicate. -/
  | vceq (o : VecOp)
  /-- VCNE (R233): Vector not-equal compare into a lane predicate. -/
  | vcne (o : VecOp)
  /-- VCLT (R233): Vector less-than compare into a lane predicate. -/
  | vclt (o : VecOp)
  /-- VCLE (R233): Vector less-or-equal compare into a lane predicate. -/
  | vcle (o : VecOp)
  /-- VSEL (R234): Selects lanes of a or b by the lane predicate. -/
  | vsel (o : VecOp)
  /-- VAND (R235): Bitwise AND of 32-bit lanes. -/
  | vand (o : VecOp)
  /-- VOR (R235): Bitwise OR of 32-bit lanes. -/
  | vor (o : VecOp)
  /-- VXOR (R235): Bitwise XOR of 32-bit lanes. -/
  | vxor (o : VecOp)
  /-- VNOT (R235): Bitwise NOT of a. -/
  | vnot (o : VecOp)
  /-- VSHL (R235): Per-element shift left. -/
  | vshl (o : VecOp)
  /-- VSHR (R235): Per-element logical shift right. -/
  | vshr (o : VecOp)
  /-- VSRA (R235): Per-element arithmetic shift right. -/
  | vsra (o : VecOp)
  /-- VCVT (R236): Vector conversion by conversion code with a rounding mode. -/
  | vcvt (o : VecOp)
  /-- VMOV (R237): Copies v[a] to v[d]. -/
  | vmov (o : VecOp)
  /-- VSPLAT (R237): Broadcasts a scalar register or literal into every lane. -/
  | vsplat (o : VecOp)
  /-- VPERM (R237): Permutes lanes of v[a] by lane indices in b. -/
  | vperm (o : VecOp)
  /-- VROT (R237): Rotates lanes of v[a] by an amount from b. -/
  | vrot (o : VecOp)
  /-- VDOT (R238): Accumulates the lane's element products into the 32-bit accumulator. -/
  | vdot (o : VecOp)
  /-- VRED (R239): Tree reduction of a cluster into lane 0. -/
  | vred (o : VecOp)
  /-- VSCAN (R239): Inclusive prefix over the lanes of a cluster. -/
  | vscan (o : VecOp)
  /-- VDRAW (R281): Draw reduction over one cluster's elements into a node record. -/
  | vdraw (o : VecOp)
  /-- VQUANT (R240): Converts a 32-element block to a block-scaled integer format. -/
  | vquant (o : VecOp)
  /-- VDEQ (R241): Decodes a block-scaled block to floating point. -/
  | vdeq (o : VecOp)
  /-- XEXP2 (R243): Correctly rounded 2^x per element. -/
  | xexp2 (o : XfOp)
  /-- XLOG2 (R243): Correctly rounded log2 x per element. -/
  | xlog2 (o : XfOp)
  /-- XRCP (R243): Correctly rounded reciprocal per element. -/
  | xrcp (o : XfOp)
  /-- XRSQ (R243): Correctly rounded reciprocal square root per element. -/
  | xrsq (o : XfOp)
  /-- XSQRT (R243): Correctly rounded square root per element. -/
  | xsqrt (o : XfOp)
  /-- XTANH (R243): Correctly rounded tanh per element. -/
  | xtanh (o : XfOp)
  /-- XSIG (R243): Correctly rounded logistic sigmoid per element. -/
  | xsig (o : XfOp)
  /-- XSIN (R243): Correctly rounded sine per element. -/
  | xsin (o : XfOp)
  /-- XCOS (R243): Correctly rounded cosine per element. -/
  | xcos (o : XfOp)
  /-- XFER (R244): Moves lanes from the cluster at a fixed offset into each enabled cluster. -/
  | xfer (o : XfOp)
  /-- XBCAST (R244): Broadcasts v[a] of one source cluster to every enabled cluster. -/
  | xbcast (o : XfOp)
  /-- XRED (R244): Reduces lane 0 across the eight logical clusters. -/
  | xred (o : XfOp)
  /-- XDRAW (R283): Merges the node records of contributing clusters in three rounds. -/
  | xdraw (o : XfOp)
  /-- TROW (R271): Writes a row of the transposer block and sets its mask bit. -/
  | trow (o : XtOp)
  /-- TCOL (R271): Captures the full block or reads a column of the capture. -/
  | tcol (o : XtOp)
  /-- TCLR (R271): Clears the transposer block, mask and capture. -/
  | tclr (o : XtOp)
  /-- TMODE (R271): Sets the transposer element size and clears it. -/
  | tmode (o : XtOp)
  /-- MPUSH (R266): Writes a row-buffer entry from a vector register pair. -/
  | mpush (o : MpushOp)
  /-- MPUSH_T (R266): Writes a row-buffer entry from captured transposer columns of two clusters. -/
  | mpushT (o : MpushTOp)
  /-- MMAC (R267): Matrix multiply-accumulate with an immediate format entry. -/
  | mmac (o : MmacOp)
  /-- MMAC_F (R267): Matrix multiply-accumulate with the format entry chosen through the mfsel binding. -/
  | mmacF (o : MmacOp)
  /-- MPROM (R258): Promotes the open run into its tiles, optionally trapping on overflow. -/
  | mprom (chk : BitVec 1)
  /-- MCLR (R268): Writes +0 into a group of tiles and clears their overflow bits. -/
  | mclr (o : MclrOp)
  /-- MRD (R268): Reads a tile row into a vector register pair. -/
  | mrd (o : MrowOp)
  /-- MWR (R268): Writes a tile row from a vector register pair. -/
  | mwr (o : MrowOp)
  /-- MFMT (R269): Writes a format-table entry from a scalar register. -/
  | mfmt (entry : BitVec 6) (s : BitVec 5)
  /-- MFSEL (R269): Binds a loop level and base for .f format selection. -/
  | mfsel (level : BitVec 3) (base : BitVec 6)
  /-- MSCQ (R269): Discards entries from the head of the scale queue. -/
  | mscq (cnt : BitVec 6)
  /-- LD (R145): Statically timed scalar load of 1 to 8 bytes from the scratchpad. -/
  | ld (o : LdOp)
  /-- LDG (R155): Far load from global, host-window or domain memory. -/
  | ldg (o : LdgOp)
  /-- VLD (R145): Loads one 64-byte line into a vector register, optionally tag-checked. -/
  | vld (o : VldOp)
  /-- VLDS (R145): Vector load writing only predicated lanes. -/
  | vlds (o : VmaskOp)
  /-- VGAT (R146): Gathers sixteen words from a 1 KiB window. -/
  | vgat (o : VwinOp)
  /-- LDSC (R147): Loads one line as a scale-queue entry. -/
  | ldsc (o : LdscOp)
  /-- ST (R148): Statically timed scalar store to the scratchpad. -/
  | st (o : StOp)
  /-- STG (R155): Far store to global, host-window or domain memory. -/
  | stg (o : StgOp)
  /-- VST (R148): Stores a vector register as one 64-byte line. -/
  | vst (o : VstOp)
  /-- VSTS (R148): Vector store of predicated lanes only. -/
  | vsts (o : VmaskOp)
  /-- VSCT (R149): Scatters sixteen lanes into a 1 KiB window. -/
  | vsct (o : VwinOp)
  /-- AADD (R152): Atomic add, scratchpad or global by address space. -/
  | aadd (o : AtomOp)
  /-- AMIN (R152): Atomic minimum, signed or natural. -/
  | amin (o : AtomOp)
  /-- AMAX (R152): Atomic maximum, signed or natural. -/
  | amax (o : AtomOp)
  /-- AXCHG (R152): Atomic exchange. -/
  | axchg (o : AtomOp)
  /-- ACAS (R152): Atomic compare-and-swap. -/
  | acas (o : AtomOp)
  /-- AAND (R152): Atomic AND. -/
  | aand (o : AtomOp)
  /-- AOR (R152): Atomic OR. -/
  | aor (o : AtomOp)
  /-- AXOR (R152): Atomic XOR. -/
  | axor (o : AtomOp)
  /-- FENCE (R90): Orders the core's earlier off-core accesses before later ones for a scope. -/
  | fence (scope : BitVec 3)
  /-- CPY (R289): Queues a copy-engine transfer, optionally with a handle. -/
  | cpy (o : XferOp)
  /-- CPYB (R289): Queues a copy from the scratchpad into the B-store. -/
  | cpyb (o : XferOp)
  /-- BXFER (R289): Queues a timed block transfer starting at a stated cycle. -/
  | bxfer (o : XferOp)
  /-- BXFER2 (R289): Queues a timed two-dimensional block transfer. -/
  | bxfer2 (o : XferOp)
  /-- HSET (R295): Binds a free handle to a scratchpad range and optional write-back address. -/
  | hset (o : HsetOp)
  /-- HWAIT (R296): Anchor that waits until a handle is full or faulted. -/
  | hwait (handle : BitVec 6)
  /-- HREL (R296): Releases a handle, freeing it or starting its write-back. -/
  | hrel (handle : BitVec 6)
  /-- HPROBE (R296): Tests a handle's state into a predicate. -/
  | hprobe (o : HprobeOp)
  /-- CCALL (R299): Requests a timetable instance at a start cycle. -/
  | ccall (o : CollOp)
  /-- CTRIG (R299): Requests arming of a trigger-table entry with an action descriptor. -/
  | ctrig (o : CollOp)
  /-- CKPT (R299): Requests a checkpoint save of a state-class group. -/
  | ckpt (o : CollOp)
  /-- BAR_INIT (R309): Initialises a barrier word with its expected count. -/
  | barInit (o : BarOp)
  /-- BAR_ARRIVE (R309): Arrives at a barrier, optionally registering as a waiter. -/
  | barArrive (o : BarOp)
  /-- BAR_WAIT (R311): Anchor that waits for the latched barrier's release. -/
  | barWait (a : BitVec 5)
  /-- BAR_FINI (R309): Retires a barrier word and clears its type bit. -/
  | barFini (o : BarOp)
  /-- CLK (R305): Reads the global cycle counter into sD. -/
  | clk (d : BitVec 5)
  /-- WAITC (R306): Anchor that waits until a global cycle and reports lateness. -/
  | waitc (a : BitVec 5) (p : BitVec 3)
  /-- BELAY_BEGIN_PITCH (R313): Opens a pitch region with input and output handles. -/
  | belayBeginPitch (hIn : BitVec 6) (hOut : BitVec 6)
  /-- BELAY_KEEP_S (R314): Snapshots a literal-selected set of scalar registers for the region. -/
  | belayKeepS (lit : BitVec 4)
  /-- BELAY_KEEP_V (R314): Snapshots selected vector registers with q1-q7 for the region. -/
  | belayKeepV (lit : BitVec 4)
  /-- BELAY_KEEP_A (R314): Snapshots a group of tiles into the shadow pool. -/
  | belayKeepA (o : KeepAOp)
  /-- CMPT (R318): Compares two scalar or vector registers, a mismatch being a detected error. -/
  | cmpt (o : CmptOp)
  /-- ILOCK (R357): Fetches and locks instruction-store blocks of a range. -/
  | ilock (a : BitVec 5) (b : BitVec 5)
  /-- IUNLOCK (R357): Unlocks instruction-store blocks of a range. -/
  | iunlock (a : BitVec 5) (b : BitVec 5)
  /-- IPREF (R357): Prefetches instruction-store blocks without locking. -/
  | ipref (a : BitVec 5) (b : BitVec 5)
  /-- TRAP (R349): Raises trap cause 23 as a break or assertion. -/
  | trap (code : BitVec 16)
  /-- SYS (R349): Raises trap cause 24 as a service request. -/
  | sys (code : BitVec 16)
  /-- CSRR (R350): Reads a control register into sD. -/
  | csrr (o : CsrOp)
  /-- CSRW (R350): Writes a control register from sA and returns the old value. -/
  | csrw (o : CsrOp)
  /-- CSRS (R350): Sets control-register bits from sA. -/
  | csrs (o : CsrOp)
  /-- CSRC (R350): Clears control-register bits from sA. -/
  | csrc (o : CsrOp)
  /-- BIST (R354): Freezes the core and self-tests the selected unit groups. -/
  | bist (a : BitVec 5)
  /-- TIMED_DISPATCH_RELEASE (R111): Queued operations of a bundle are released at base plus TIME. -/
  | timedDispatchRelease (core : CoreId) (id : Nat)
  /-- MATRIX_QUEUE_START (R262): The matrix queue starts an operation once array, tiles and scales are available. -/
  | matrixQueueStart (core : CoreId)
  /-- LOOP_ITERATION_BOUNDARY (R161): After the END bundle the innermost level increments INDEX and repeats or pops. -/
  | loopIterationBoundary (core : CoreId)
  /-- INSTRUCTION_STORE_SLIP (R356): A non-resident bundle freezes the core and starts its fetch. -/
  | instructionStoreSlip (core : CoreId)
  /-- INSTRUCTION_FETCH_COMPLETE (R29): An instruction fetch or walk completes, letting the bundle issue or trapping. -/
  | instructionFetchComplete (core : CoreId) (id : Nat)
  /-- RESULT_LANDING (R40): A result is written to its register at its landing cycle, with flags. -/
  | resultLanding (core : CoreId) (id : Nat)
  /-- TILE_ROW_LANDING (R256): An mmac row lands in its tiles, or sets overflow bits in run mode. -/
  | tileRowLanding (core : CoreId) (id : Nat)
  /-- TRAP_HANDLER_ENTRY (R342): The handler's first bundle issues from TVEC at c + 8 in trap mode. -/
  | trapHandlerEntry (core : CoreId)
  /-- WATCHDOG_EXPIRY (R353): The idle count reaching WDLIMIT raises a watchdog trap. -/
  | watchdogExpiry (core : CoreId)
  /-- LOAD_TAP (R53): The load station taps its lane and checks the transfer tag. -/
  | loadTap (core : CoreId) (id : Nat)
  /-- STORE_BANK_WRITE (R71): A store's bank write performs, checking barrier words and consumed words. -/
  | storeBankWrite (core : CoreId) (id : Nat) (bank : BitVec 4)
  /-- SCRATCHPAD_ATOMIC_READ (R153): A scratchpad atomic reads its word at issue + 2 + travel. -/
  | scratchpadAtomicRead (core : CoreId) (id : Nat)
  /-- SCRATCHPAD_ATOMIC_WRITE (R153): A scratchpad atomic writes its word and returns the old value. -/
  | scratchpadAtomicWrite (core : CoreId) (id : Nat)
  /-- BAR_ACCESS_READ (R309): A bar access reads its word and checks type bit and interval overlap. -/
  | barAccessRead (core : CoreId) (id : Nat)
  /-- BAR_ACCESS_WRITE (R309): A bar access writes the barrier word, possibly completing a phase. -/
  | barAccessWrite (core : CoreId) (id : Nat)
  /-- INTERLOCKED_ACCESS_PERFORM (R157): An .il access performs at the first granted cycle with a free path. -/
  | interlockedAccessPerform (core : CoreId) (id : Nat)
  /-- SLOT_TABLE_SWAP (R60): An accepted slot table takes effect at a 64-cycle boundary. -/
  | slotTableSwap (rope : RopeId)
  /-- MEMORY_PORT_TABLE_SWAP (R64): An accepted memory-port table takes effect at a 64-cycle boundary. -/
  | memoryPortTableSwap (die : DieId)
  /-- MEMORY_PORT_ACCESS (R63): A requester starts a 128-byte channel access in its granted cycle. -/
  | memoryPortAccess (die : DieId) (channel : BitVec 5)
  /-- TRANSLATION_WALK_COMPLETE (R33): A page walk completes, installing an entry or reporting a fault. -/
  | translationWalkComplete (die : DieId) (id : Nat)
  /-- TBINV_PAGE (R35): Invalidates the page holding TBINVADDR for an ASID. -/
  | tbinvPage (core : CoreId)
  /-- TBINV_ASID (R35): Invalidates every translation entry of an ASID. -/
  | tbinvAsid (core : CoreId)
  /-- TBINV_ALL (R35): Invalidates every entry of every ASID on one side. -/
  | tbinvAll (core : CoreId)
  /-- TBINV_COMPLETE (R36): BUSY clears once selected entries are dropped and their users performed. -/
  | tbinvComplete (die : DieId)
  /-- FAR_REQUEST_SEND (R90): A far request leaves the rope once ordering and fences allow. -/
  | farRequestSend (core : CoreId) (id : Nat)
  /-- FAR_ACCESS_HOME_SERVICE (R155): The home serves a far load, store or engine beat in one service. -/
  | farAccessHomeService (core : CoreId) (id : Nat)
  /-- GLOBAL_ATOMIC_HOME_SERVICE (R154): The home's atomic unit performs a global atomic in one service. -/
  | globalAtomicHomeService (core : CoreId) (id : Nat)
  /-- FAR_RESPONSE_ARRIVAL (R156): A far value, status or fault returns to the core. -/
  | farResponseArrival (core : CoreId) (id : Nat)
  /-- TRANSFER_BEGIN (R291): An engine begins the next transfer from its time-sorted buffer. -/
  | transferBegin (rope : RopeId) (eng : BitVec 1)
  /-- CE_READ_BEAT (R292): An engine read beat reads a scratchpad line in a granted cycle. -/
  | ceReadBeat (rope : RopeId) (eng : BitVec 1)
  /-- CE_OFFCORE_READ_RETURN (R292): An off-core source line reaches the engine. -/
  | ceOffcoreReadReturn (rope : RopeId) (id : Nat) (line : Nat)
  /-- CE_WRITE_BEAT (R292): An engine write beat writes a scratchpad or B-store line. -/
  | ceWriteBeat (rope : RopeId) (id : Nat) (line : Nat)
  /-- CE_OFFCORE_WRITE_PERFORM (R290): An off-core destination line performs at its home. -/
  | ceOffcoreWritePerform (rope : RopeId) (id : Nat) (line : Nat)
  /-- WRITE_BACK_BEGIN (R297): A released handle's write-back starts on its engine. -/
  | writeBackBegin (rope : RopeId) (eng : BitVec 1)
  /-- CEFINFO_CLEAR (R294): A zero-valued write clears the engine fault record. -/
  | cefinfoClear (rope : RopeId)
  /-- PORT_BEAT (R74): A collective, host or debug station beat performs in a granted cycle. -/
  | portBeat (rope : RopeId) (id : Nat)
  /-- DETECTED_ERROR_ROLLBACK (R320): A detected error stops the core and starts rollback of the target region. -/
  | detectedErrorRollback (core : CoreId)
  /-- ROLLBACK_RESTORE (R320): After the wait, journals, tiles and state are restored and refills issued. -/
  | rollbackRestore (core : CoreId)
  /-- REGION_RESTART (R321): Execution restarts at H' in phase after a rollback. -/
  | regionRestart (core : CoreId)
  /-- BIST_COMPLETE (R354): The self-test ends and the core resumes in phase. -/
  | bistComplete (core : CoreId)
  /-- PREEMPTION_LANDING (R360): A pending REQ or MAPEV stops the core at a landing point. -/
  | preemptionLanding (core : CoreId)
  /-- CONTEXT_SAVE_COMPLETE (R360): The resume record is written and the core reports. -/
  | contextSaveComplete (core : CoreId)
  /-- PREEMPTION_REPORT (R183): A die reports saved contexts and chiplet 0 emits a pre-emption record. -/
  | preemptionReport (die : DieId) (launch : Nat)
  /-- CONTEXT_RESTORE (R411): A resume record is checked and bound to an image, then issue resumes. -/
  | contextRestore (launch : Nat)
  /-- CORE_RETIREMENT (R185): A core retires once all its results, far operations and transfers are done. -/
  | coreRetirement (core : CoreId)
  /-- RETIREMENT_REPORT (R185): A die reports retirement and chiplet 0 emits a retirement record. -/
  | retirementReport (die : DieId) (launch : Nat)
  /-- PACKET_LAUNCH (R175): A launch packet starts a kernel of an uploaded object. -/
  | packetLaunch (queue : QueueId) (seq : BitVec 32)
  /-- PACKET_BULK_COPY (R178): A bulk copy packet copies bytes between memories. -/
  | packetBulkCopy (queue : QueueId) (seq : BitVec 32)
  /-- PACKET_WAIT_ON_VALUE (R178): A packet waits until a masked memory word meets a condition. -/
  | packetWaitOnValue (queue : QueueId) (seq : BitVec 32)
  /-- PACKET_SIGNAL (R178): A packet writes or atomically adds a value. -/
  | packetSignal (queue : QueueId) (seq : BitVec 32)
  /-- PACKET_TIMETABLE_INSTALL (R425): Installs a timetable on every member chiplet. -/
  | packetTimetableInstall (queue : QueueId) (seq : BitVec 32)
  /-- PACKET_TIMETABLE_REMOVE (R425): Removes an installed timetable of the tenant. -/
  | packetTimetableRemove (queue : QueueId) (seq : BitVec 32)
  /-- PACKET_CHECKPOINT_SAVE (R447): A checkpoint packet starts a save. -/
  | packetCheckpointSave (queue : QueueId) (seq : BitVec 32)
  /-- PACKET_CHECKPOINT_RESTORE (R447): A checkpoint packet starts a restore. -/
  | packetCheckpointRestore (queue : QueueId) (seq : BitVec 32)
  /-- PACKET_MAP_QUERY (R377): Writes a die map or the package map record to memory. -/
  | packetMapQuery (queue : QueueId) (seq : BitVec 32)
  /-- PACKET_INVALID (R174): An invalid or malformed packet stops its queue with status 0x31. -/
  | packetInvalid (queue : QueueId) (seq : BitVec 32)
  /-- WAIT_VALUE_POLL (R178): A wait-on-value packet re-reads its address every 1,024 cycles. -/
  | waitValuePoll (queue : QueueId) (seq : BitVec 32)
  /-- PACKET_COMPLETE (R177): A packet completes, writing its completion record and advancing PROGRESS. -/
  | packetComplete (queue : QueueId) (seq : BitVec 32)
  /-- QUEUE_AGING (R180): A head packet waiting past QAGE raises its queue's effective priority. -/
  | queueAging (queue : QueueId)
  /-- LAUNCH_RECORD (R182): Each command processor applies a launch record and runs placement. -/
  | launchRecord (id : Nat)
  /-- RETIREMENT_RECORD (R181): Command processors free a die's cores of a retired launch. -/
  | retirementRecord (id : Nat)
  /-- PREEMPTION_RECORD (R183): Command processors free a die's cores of a pre-empted launch. -/
  | preemptionRecord (id : Nat)
  /-- MAP_RECORD (R181): Command processors adopt a new package map digest. -/
  | mapRecord (id : Nat)
  /-- HELD_TRIGGER_PERFORM (R187): Held triggered operations are performed when their owner is placed. -/
  | heldTriggerPerform (launch : Nat)
  /-- MAP_PUBLICATION (R378): The health engine publishes a new signed map version. -/
  | mapPublication (die : DieId)
  /-- CCALL_REQUEST (R427): The home chiplet receives a call and sends reservations. -/
  | ccallRequest (call : Nat)
  /-- TIMETABLE_RESERVATION (R428): A member accepts or refuses a reservation interval. -/
  | timetableReservation (call : Nat) (chip : Nat)
  /-- TIMETABLE_ACCEPTANCE (R427): The home collects a member's answer and commits or cancels. -/
  | timetableAcceptance (call : Nat) (chip : Nat)
  /-- TIMETABLE_COMMIT (R427): A member receives the commit or cancel of a reservation. -/
  | timetableCommit (call : Nat) (chip : Nat)
  /-- TIMETABLE_ACCEPT_DEADLINE (R427): Missing acceptances at S - 4,096 cancel the call with 0x42. -/
  | timetableAcceptDeadline (call : Nat)
  /-- TIMETABLE_INSTANCE_START (R429): At S members move destination handles to filling. -/
  | timetableInstanceStart (inst : Nat)
  /-- TIMETABLE_ENTRY_START (R430): An entry starts at S + OFFSET, reading its source. -/
  | timetableEntryStart (inst : Nat) (entry : Nat)
  /-- TIMETABLE_ENTRY_COMBINE (R430): An entry's data combines into its slot in POS order. -/
  | timetableEntryCombine (inst : Nat) (entry : Nat)
  /-- TIMETABLE_INSTANCE_END (R432): The home writes the instance record when an instance ends. -/
  | timetableInstanceEnd (inst : Nat)
  /-- TRIGGER_ARM (R433): The chiplet arms a trigger entry from its action descriptor. -/
  | triggerArm (core : CoreId) (id : Nat)
  /-- DRAIN_ROUND_END (R437): After the drain round old-epoch packets are discarded and resent. -/
  | drainRoundEnd (epoch : BitVec 32)
  /-- CHECKPOINT_READBACK (R445): After every item header reads back, the home writes the cairns. -/
  | checkpointReadback (ck : Nat)
  /-- VMARGIN_SETTLED (R459): BUSY clears once the supply offset has settled. -/
  | vmarginSettled (die : DieId)
  /-- LINKMARGIN_SCAN_DONE (R460): The eye scan ends and its error count is recorded. -/
  | linkmarginScanDone (die : DieId)
  /-- READ_REQUEST (R451): A read request transaction is served and answered. -/
  | readRequest (toDevice : Bool) (w0 : W64) (w1 : W64)
  /-- READ_COMPLETION (R451): A read completion returns data or a status. -/
  | readCompletion (toDevice : Bool) (w0 : W64) (w1 : W64) (data : List Byte)
  /-- SLOT_TABLE_INSTALL (R60): The command processor checks and accepts a slot-table image. -/
  | slotTableInstall (rope : RopeId) (tenant : Nat) (image : List Byte)
  /-- MEMORY_PORT_TABLE_INSTALL (R64): A memory-port slot table is checked and accepted. -/
  | memoryPortTableInstall (die : DieId) (tenant : Nat) (image : List Byte)
  /-- QUEUE_TABLE_WRITE (R171): Firmware writes a queue-table entry at the driver's request. -/
  | queueTableWrite (queue : QueueId) (entry : BitVec 256)
  /-- QUEUE_SWITCH_OUT (R173): Firmware stops a queue, pre-empts its launches and saves PROGRESS. -/
  | queueSwitchOut (queue : QueueId)
  /-- QUEUE_SWITCH_IN (R173): Firmware restores a queue's contexts and resumes reading. -/
  | queueSwitchIn (queue : QueueId)
  /-- QUEUE_RESET (R174): Firmware resets a stopped queue. -/
  | queueReset (queue : QueueId)
  /-- HOST_WINDOW_DESCRIPTOR_WRITE (R20): Firmware writes a host-window descriptor. -/
  | hostWindowDescriptorWrite (asid : BitVec 12) (win : BitVec 6) (base : BitVec 64) (len : Nat) (perm : BitVec 3)
  /-- POSTED_WRITE (R451): A posted write transaction performs on the host link. -/
  | postedWrite (toDevice : Bool) (w0 : W64) (w1 : W64) (data : List Byte)
  /-- QUEUE_DOORBELL (R172): A doorbell writes a queue's TAIL. -/
  | queueDoorbell (w0 : W64) (w1 : W64) (data : W64)
  /-- CONFIGURATION_READ (R451): A configuration read returns queue, defect-map or quote data. -/
  | configurationRead (w0 : W64) (w1 : W64)
  /-- REFUSED_TRANSACTION (R451): A transaction of an unused kind is discarded and counted. -/
  | refusedTransaction (w0 : W64)
  /-- HOST_LINK_TRAINING (R450): The host link trains, retrains or repairs lanes, dropping failed modules. -/
  | hostLinkTraining (modules : BitVec 4)
  /-- OBJECT_UPLOAD (R399): The loader checks an uploaded Buzil object. -/
  | objectUpload (tenant : Nat) (addr : W64) (len : Nat)
  /-- HEALTH_SAMPLE (R365): A monitor sample judges a unit's margin. -/
  | healthSample (die : DieId) (unit : UnitRef) (margin : Nat)
  /-- UNIT_RETEST (R366): A due retest measures a free unit's rate, adder and rope timing. -/
  | unitRetest (die : DieId) (unit : UnitRef) (res : RetestResult)
  /-- TIMETABLE_REVALIDATION (R440): A marked timetable is re-validated before its next instance. -/
  | timetableRevalidation (tt : Nat)
  /-- LINK_TIMEOUT (R435): A silent link is declared dead after 2 microseconds. -/
  | linkTimeout (link : Nat)
  /-- SWITCH_TIMEOUT (R435): A silent switch is declared dead after 20 microseconds. -/
  | switchTimeout (switch : Nat)
  /-- GROUP_TIMEOUT (R435): A silent member package is declared failed after 200 microseconds. -/
  | groupTimeout (pkg : PkgId)
  /-- LINK_STATE_UPDATE (R436): A node applies and forwards a link-state update of a new epoch. -/
  | linkStateUpdate (element : NetElement) (epoch : BitVec 32) (path : UpdatePath)
  /-- MEMBER_FAILURE_RECORD (R439): A failure record ends instances and checkpoints including the member. -/
  | memberFailureRecord (pkg : PkgId) (epoch : BitVec 32)
  /-- RESET (R456): A reset wipes all SRAM and brings the die up. -/
  | reset (die : DieId)
  /-- LANE_RECENTRE (R463): Every 100 ms firmware re-centres each HBM lane. -/
  | laneRecentre (die : DieId) (channel : BitVec 5)
  /-- THERMAL_TRIP (R449): A die at trip temperature halts its cores. -/
  | thermalTrip (die : DieId)
  /-- LIFECYCLE_TRANSITION (R454): A lifecycle change request is applied or refused, with a wipe. -/
  | lifecycleTransition (target : BitVec 3)
  /-- TENANT_REASSIGNMENT (R457): Firmware invalidates, zeroes and installs a new partition configuration. -/
  | tenantReassignment (outgoing : Nat) (incoming : Nat) (part : Partition)
  /-- QUOTE_REQUEST (R455): Firmware has a die produce a signed attestation quote. -/
  | quoteRequest (nonce : List Byte)
  /-- VMARGIN_WRITE (R459): A VMARGIN write applies or removes a supply offset. -/
  | vmarginWrite (die : DieId) (v : W64)
  /-- LINKMARGIN_SCAN_START (R460): A START write begins an eye scan on one lane. -/
  | linkmarginScanStart (die : DieId) (v : W64)
  /-- WFI_WAKE_REQUEST (R352): The command processor sets WAKE of a core. -/
  | wfiWakeRequest (core : CoreId)
  /-- STORAGE_BIT_FLIP (R41): Bits of a stored word flip, leaving uncorrectable or correctable data that a later consumer detects. -/
  | storageBitFlip (loc : StorageLoc) (uncorrectable : Bool)
  /-- IDLE_FLIT (R435): Each link sends an idle flit at least every 256 cycles, and its receipt restarts the link's silence timeout. -/
  | idleFlit (link : Nat)
  /-- ANCHOR (R304): Makes its bundle an anchor. -/
  | anchor
  /-- END (R304): Stops fetch so that the core retires. -/
  | endOp
  /-- WFAR (R307): Anchor that waits for all far operations and statuses of the core. -/
  | wfar
  /-- BELAY_BEGIN (R312): Opens a journalled belay region. -/
  | belayBegin
  /-- BELAY_END (R316): Commits and pops the innermost region. -/
  | belayEnd
  /-- ERET (R346): Leaves trap mode and resumes the frozen context in phase. -/
  | eret
  /-- YIELD (R351): Anchor at which a pending pre-emption or map event lands. -/
  | yield
  /-- WFI (R352): Anchor that waits for a wake, pre-emption or map event. -/
  | wfi
  /-- HOLD (R113): A bundle with no slots occupies its issue cycle and TIME empty cycles. -/
  | hold
  /-- LAUNCH_SELECTION (R180): Collective chiplet 0 chooses the next launch and emits its record. -/
  | launchSelection
  /-- STREAM_RECOVERY (R181): Firmware recovers the broadcast stream that a distribution fault halted. -/
  | streamRecovery
  deriving DecidableEq, Repr

end Sys2Proof
end

