-- ==== Sys2Proof/Config.lean ====
section
/-!
DEFINITION. What an implementation fixes and the values the spec leaves open. Every opaque constant is a free value: it has
no body, so nothing in Lean can evaluate it and no claim can rest on a particular value of it (DESIGN CHOICE, safe: log entry 11).
-/

namespace Sys2Proof.Config

/-- The package's own number in the load-store domain (R16): fixed for the machine, not stated by the spec.
DESIGN CHOICE, unsafe: log entry 7. -/
def ownPackage : Nat := 0

/-- The latency, in cycles, of the n-th off-core action (a far request, a walk, a fetch, a firmware step). The spec states
no latency for these (R76, R132); it is a free value of the counter. -/
opaque freeDelay : Nat → Nat

/-- A free 64-bit value, for results the spec leaves undefined. -/
opaque freeWord : Nat → BitVec 64

/-- The HBM channel, 0–31, that serves a physical byte address (R63 names 32 channels and gives no mapping). DESIGN CHOICE, safe: log entry 12. -/
opaque hbmChannel : Nat → Nat

/-- Which of its 8 entries a full set of a rope buffer drops (R31 gives no replacement rule). -/
opaque dtbVictim : Nat → Nat

/-- The set, of 256, in which a rope buffer holds the entry of an ASID and a page base (R31 gives no index function). DESIGN CHOICE, safe: log entry 80. -/
opaque dtbSet : Nat → Nat → Nat

/-- What the test patterns of a self-test find: the FAIL mask and first failing unit (R354, R355). -/
opaque bistResult : Nat → BitVec 64

/-- The RSA-4096 PKCS #1 v2.2 PSS signature of a message by the key with the given id (R370, R398, R455): PSS is
randomised and the private keys never leave the dies. -/
opaque rsaSign : List Byte → List Byte → BitVec 4096


/-- What the translator makes of a Prikor kernel (R418, R419): a function of the object's hash, the kernel, the specimen, the class key, the map version
and the policy mask. The n-th of its answers is taken that is an image as R412 and R418 have it. DESIGN CHOICE, safe: log entry 48. -/
opaque prikorTranslate : List Byte → Nat → BitVec 128 → List Byte → Nat → BitVec 64 → Nat → List Byte

/-- The public modulus of each die's RSA-4096 identity key, fused at manufacture (R452, R453). -/
opaque dieModulus : Nat → BitVec 4096

/-- The id of the key that signs package certificates (R453). -/
opaque makerKey : List Byte

/-- The instruction address, in units of 2 MiB, at which the loader maps a section of an object (R401): by the object's tag and the section. -/
opaque imageBase : List Byte → Nat → BitVec 27

/-- The page of the resume record that the command processor writes to a core's CTXBASE (R360, R363). -/
opaque contextPage : Nat → BitVec 45

/-- The specimen id of each die, fixed at manufacture (R371). -/
opaque specimen : Nat → BitVec 128

/-- What the fuses of a die mark as defects, record by record (R461): die, record, field. -/
opaque fusedBits : Nat → Nat → Nat → Nat

/-- The data lanes of a channel whose window training finds too small (R463): die, channel, reset. -/
opaque laneFails : Nat → Nat → Nat → BitVec 64

/-- The line at which, and the bytes with which, the k-th write of the training pattern falls into a channel (R463): die, channel, reset, k. The spec gives
neither. DESIGN CHOICE, safe: log entry 107. -/
opaque trainLine : Nat → Nat → Nat → Nat → Nat
opaque trainWord : Nat → Nat → Nat → Nat → BitVec 512

/-- Whether the boot firmware of a die verifies at the n-th reset (R452). -/
opaque firmwareOk : Nat → Nat → Bool

/-- What power-up measured of a die (R367): latency adders and distances that the fused map does not fix. -/
opaque powerUpWord : Nat → Nat → BitVec 64

/-- Errors an eye scan counts (R460). -/
opaque eyeErrors : Nat → Nat

/-- Cycles from an entry's start to the arrival of its last flit, under the maps in force (R426): by the timetable's bytes, the package map digest and
the entry. The spec gives link latencies and hop times and no flit rate. DESIGN CHOICE, safe: log entry 58. -/
opaque flitTime : List Byte → List Byte → Nat → Nat

/-- Whether the link cycles that a timetable books stay within every link's flit rate (R426). DESIGN CHOICE, safe: log entry 58. -/
opaque timetableFits : List Byte → List Byte → Bool

/-- The links of a switch, of a chiplet of this package, and of a member package (R435, R436): the spec gives no network graph. DESIGN CHOICE, safe: log
entry 62. -/
opaque switchLinks : Nat → List Nat
opaque chipLinks : Nat → List Nat
opaque memberLinks : Nat → List Nat

/-- Whether a surviving route joins two member packages, given the dead links and switches (R437): the spec gives no network graph. -/
opaque routed : List Nat → List Nat → Nat → Nat → Bool

/-- The checkpoint region that firmware sets in the home stack of a die (R441): its first byte, and the bytes of a slot. The argument is
32 × package + die. -/
opaque ckBase : Nat → Nat
opaque ckSlot : Nat → Nat

/-- What the first byte of a 64-byte aligned address of a host transaction names (R451): (0, a physical HBM byte), or (1 + a rope, a byte of its
scratchpad, which the rope's host port serves); none where there is no such address. The spec does not say in which address space the host's addresses
lie. DESIGN CHOICE, safe: log entry 71. -/
opaque hostTarget : BitVec 64 → Option (Nat × Nat)

/-- The bytes of the installed partition configuration that a quote hashes (R455): the spec gives them no layout. -/
opaque partitionBytes : List (Nat × Partition) → List Byte

/-- The measurement of firmware image n (R455): dies 0 to 31, then the two collective chiplets. -/
opaque firmwareHash : Nat → BitVec 512

end Sys2Proof.Config
end

