-- ==== Sys2Proof/Machine/State.lean ====
section
/-!
DEFINITION. The whole state of one T32 package as plain data, and the state after reset. Cores, ropes, dies and registers
are held in sparse tables (sorted lists of key and value): an entry that is not listed holds its reset value, so the state
after reset is small and equal tables hold equal data. Memory of every kind is one list of cells.
-/

namespace Sys2Proof.Machine

/-- A sparse table: sorted by key, no repeats; an unlisted key reads as the table's default. -/
abbrev Tbl (α : Type) := List (Nat × α)

/-! ### Registers and the sequencer of a core -/

/-- Register files of a core (R39). `s` keys 0–31 are s0–s31 and 32–47 are k0–k15; `v` keys are
(physical cluster × 32 + register) × 16 + lane; `q` keys are physical cluster × 8 + number. Unlisted registers read 0. -/
structure RegFile where
  s : Tbl W64
  p : BitVec 8
  v : Tbl W32
  q : Tbl (BitVec 16)
  deriving DecidableEq, Repr

/-- One level of the loop stack (R160). -/
structure LoopLevel where
  start : BitVec 42
  stop : BitVec 42
  count : BitVec 32
  index : BitVec 32
  rot : Bool
  pre : Bool
  il : Bool
  deriving DecidableEq, Repr

/-- A pending control transfer: its target and the delay bundles left (R202). -/
structure Transfer where
  target : BitVec 48
  left : Nat
  deriving DecidableEq, Repr

/-- What a core's sequencer is doing. -/
inductive RunState where
  /-- holds no launch -/
  | idle
  /-- holds a launch whose context has still to be restored on it (R187) -/
  | waiting
  /-- issues bundles -/
  | running
  /-- an instruction-store slip: waits for the fetch (R29, R356) -/
  | slipped
  /-- frozen by a trap, handler not yet entered (R339) -/
  | frozen
  /-- frozen by a self-test (R354) -/
  | testing
  /-- rolling a belay region back (R320) -/
  | rollingBack
  /-- leaving its core at a landing point (R360) -/
  | saving
  /-- issued `end`, waits to retire (R185) -/
  | retiring
  /-- halted by a double trap, a trip or the end of its launch (R343, R449) -/
  | halted
  deriving DecidableEq, Repr

/-- The sequencer of a core (R160). `nextIssue` is the cycle at which the next bundle would issue. -/
structure Sequencer where
  pc : BitVec 48
  loops : List LoopLevel
  rets : List (BitVec 48)
  rrb : BitVec 4
  transfer : Option Transfer
  /-- delay bundles of the latest control form still to issue, taken or not (R200, R201) -/
  delay : Nat
  nextIssue : Nat
  /-- the bundle issued last, and its cycle -/
  lastPc : BitVec 48
  lastIssue : Nat
  run : RunState
  /-- consecutive counted cycles spent at a wait (R353) -/
  idle : Nat
  /-- the cycle `c0` in which the waiting bundle would first have issued (R306) -/
  waitFrom : Option Nat
  /-- the timed-dispatch entry that waits, none where the bundle at the pc or a replayed one does -/
  waitEntry : Option Nat
  /-- the next bundle is the first after an iteration boundary of a `.pre` level (R166) -/
  preBoundary : Bool
  /-- the next bundle is the first of an interlocked loop body: it waits for every exposed result (R168) -/
  ilDrain : Bool
  /-- the next bundle is the first after an interlocked loop was left: it waits for every interlocked access (R157) -/
  ilLeave : Bool
  /-- the keep window of the innermost region is open (R314) -/
  keepWindow : Bool
  deriving DecidableEq, Repr

/-! ### Results in flight -/

/-- One register write of a landing result. -/
inductive RegWrite where
  | s (n : Nat) (v : W64)
  | p (n : Nat) (b : Bool)
  | v (key : Nat) (w : W32)
  /-- bits of a lane predicate selected by `mask` -/
  | q (key : Nat) (mask val : BitVec 16)
  deriving DecidableEq, Repr

/-- One row of an `mmac` in flight (R256, R257). -/
structure MmacRow where
  /-- the id under which the B chunk read at issue + 1 is held -/
  op : Nat
  tile : Nat
  m : Nat
  lastRow : Bool
  rowIdx : Nat
  chunk : Nat
  entry : W64
  scales : List Byte
  run : Bool
  /-- a row of the same `mmac` overflowed an inner accumulator (R257) -/
  ovf : Bool
  /-- cycle at which the A row is read, issue + 1 + m, and the row once read -/
  capAt : Nat
  arow : Option (List Byte)
  deriving DecidableEq, Repr

/-- What a result does when it lands. -/
inductive Effect where
  | regs (ws : List RegWrite)
  /-- a scale-queue entry (R147) -/
  | scale (bytes : List Byte)
  /-- a CSR write, with the value read at issue (R350) -/
  | csr (num : Nat) (new : W64)
  /-- a row-buffer entry (R266) -/
  | rowBuffer (row : Nat) (bytes : List Byte)
  /-- a format-table entry (R269) -/
  | format (entry : Nat) (v : W64)
  /-- the `mfsel` binding (R269) -/
  | binding (level base : Nat)
  /-- `mscq`: discard the first `n` entries of those issued before it (R269) -/
  | discardScales (n : Nat)
  /-- `mclr` (R268) -/
  | clearTiles (tile n : Nat)
  /-- `mwr`: one row of a tile (R268) -/
  | writeRow (tile row : Nat) (vals : List W32)
  /-- `mprom`: element values of the group (R258) -/
  | promote (tile n : Nat) (vals : Tbl W32) (overflowed : Bool)
  /-- one row of an `mmac` -/
  | mmacRow (r : MmacRow)
  /-- `trow` in the listed physical clusters (R271) -/
  | xtRow (idx : Nat) (rows : List (Nat × BitVec 512))
  /-- `tclr`, or `tmode` with a new element size (R271) -/
  | xtClear (clusters : List Nat) (esize : Option (BitVec 2))
  /-- locking blocks, and other effects that only mark their cycle -/
  | marker
  deriving DecidableEq, Repr

/-- A result in flight. `at_` is its landing cycle; `issue`, `slot` order it (R40, R73). -/
structure Landing where
  id : Nat
  at_ : Nat
  issue : Nat
  slot : Nat
  pc : BitVec 48
  word : W32
  eff : Effect
  flags : BitVec 6
  cluster : Nat
  lane : Nat
  /-- issued by a trap handler -/
  handler : Bool
  /-- first and count of the tiles kept busy until it lands (R44) -/
  busyTile : Nat
  busyCount : Nat
  deriving DecidableEq, Repr

/-! ### Timed dispatch -/

/-- A decoded bundle whose operations wait for their release (R111): slot words by slot number. -/
structure TdEntry where
  id : Nat
  pc : BitVec 48
  cmask : BitVec 8
  words : List (Nat × W32)
  pool : List W32
  release : Nat
  decoded : Nat
  /-- bundles that may be decoded after this one before it is released: 2 after a transfer, 0 after an anchor or another form
  on whose release the decoder waits, none where it does not wait -/
  allow : Option Nat
  deriving DecidableEq, Repr

/-- The timed dispatcher of a core (R111, R112). -/
structure TimedDispatch where
  base : Nat
  lastTime : Nat
  lastRelease : Nat
  entries : List TdEntry
  /-- the next bundle is a timing origin that is not an anchor -/
  origin : Bool
  /-- loop stack and pending transfer as the decoder, which runs ahead of the releases, sees them -/
  loops : List LoopLevel
  transfer : Option Transfer
  /-- the next bundle to decode is the first after a boundary of a `.pre` level -/
  pre : Bool
  deriving DecidableEq, Repr

/-! ### The matrix array and transposers -/

/-- The run of a core (R257). -/
structure MatrixRun where
  isOpen : Bool
  rt : Nat
  rm : Nat
  re : Nat
  entry : W64
  count : Nat
  ovf : Bool
  rsa : List Byte
  rsb : List Byte
  /-- inner accumulators, key m × 192 + n -/
  inner : Tbl Int
  deriving DecidableEq, Repr

/-- A matrix operation that waits in the timed-dispatch matrix queue (R262). -/
structure MatrixQueued where
  issue : Nat
  slot : Nat
  pc : BitVec 48
  word : W32
  /-- scalar and vector operands latched at release -/
  regs : RegFile
  rrb : BitVec 4
  loops : List LoopLevel
  deriving DecidableEq, Repr

/-- Matrix state of a core (R42–R44, R250–R263). Tile elements have key (tile × 128 + row) × 32 + column. -/
structure Matrix where
  tiles : Tbl W32
  ovf : BitVec 192
  rowBuf : Tbl (List Byte)
  fmt : Tbl W64
  bind : Option (Nat × Nat)
  scaleQ : List (List Byte)
  /-- issue cycles of the `ldsc`s whose entries are queued, in queue order (R269) -/
  scaleIssue : List Nat
  /-- scale entries in flight that an `mscq` discards as they land, by landing id -/
  discard : List Nat
  run : MatrixRun
  /-- the first cycle in which the array is free (R260) -/
  arrayFree : Nat
  /-- B chunks read by operations in flight -/
  held : Tbl (List Host.Cell)
  queue : List MatrixQueued
  /-- vector registers whose `mrd` result is pending in timed dispatch (R262): physical register keys -/
  pendingV : List Nat
  deriving DecidableEq, Repr

/-- The transposing unit of one physical cluster (R270). -/
structure Transposer where
  esize : BitVec 2
  block : Tbl (BitVec 512)
  mask : BitVec 16
  capture : Tbl (BitVec 512)
  capV : Bool
  capCycle : Nat
  deriving DecidableEq, Repr

/-! ### Far operations -/

/-- Where a far operation is on its way (R156). -/
inductive FarPhase where
  | queued | walking | waitingPort | sent | performed | landed
  deriving DecidableEq, Repr

/-- What a far operation asks its home (R155, R154, R299, R357). -/
inductive FarKind where
  | load (size : Nat) (sx : Bool)
  | store (size : Nat)
  | atomic (op : Nat) (natural : Bool)
  /-- `ccall`, `ctrig`, `ckpt` -/
  | ccall | ctrig | ckpt
  deriving DecidableEq, Repr

/-- One outstanding far operation (R155, R156). -/
structure FarOp where
  id : Nat
  seq : Nat
  kind : FarKind
  addr : W64
  phys : Nat
  data : W64
  cmp : W64
  dest : Nat
  pc : BitVec 48
  root : W64
  phase : FarPhase
  value : W64
  fault : Nat
  /-- value returned while the core was in trap mode and held (R156) -/
  heldBack : Bool
  issued : Nat
  /-- issued by a trap handler -/
  handler : Bool
  /-- bytes of its descriptor that the chiplet has read from scratchpad so far (R74, R299) -/
  desc : List Byte
  /-- the slot that issued it and its word, for the order of landings and the trap of a collision (R40) -/
  slot : Nat
  word : W32
  deriving DecidableEq, Repr

/-- The far-fault record of a core (R38). -/
structure FarFault where
  code : Nat
  addr : W64
  pc : BitVec 48
  more : Bool
  deriving DecidableEq, Repr

/-- The far queue of a core: operations in issue order, and the issue sequence number and issue cycle of its fences (R90). -/
structure FarQueue where
  ops : List FarOp
  fences : List (Nat × Nat)
  nextSeq : Nat
  fault : Option FarFault
  deriving DecidableEq, Repr

/-! ### Recovery -/

/-- Latched operands and words of a bundle, for issue and for replay (R339). -/
structure Latched where
  pc : BitVec 48
  cmask : BitVec 8
  time : Nat
  pool : List W32
  /-- present slots and their words -/
  words : List (Nat × W32)
  regs : RegFile
  rrb : BitVec 4
  loops : List LoopLevel
  /-- interlocked mode at the issue (R168) -/
  il : Bool
  /-- global counter value at the original issue (R305) -/
  clk : Nat
  /-- RNDSEQ taken by each `.rs` slot (R210) -/
  sq : List (Nat × BitVec 32)
  /-- a `cmpt` of the bundle failed (R150) -/
  cmptFail : Bool
  deriving DecidableEq, Repr

/-- One open belay region (R312–R316). -/
structure Region where
  pitch : Bool
  hIn : Nat
  hOut : Nat
  /-- H, the issue cycle of its `belay.begin` -/
  h : Nat
  /-- the first record id of that bundle: accesses with a lower id were issued before the region began -/
  first : Nat
  /-- the `belay.begin` bundle and its TIME: the restart point is the bundle after it (R321) -/
  restart : BitVec 48
  time : Nat
  /-- the other slots of that bundle -/
  beside : Latched
  rets : List (BitVec 48)
  loops : List LoopLevel
  rrb : BitVec 4
  p : BitVec 8
  rndseq : W64
  fpflags : W64
  fpfirst : W64
  retry : Nat
  unprotected : Bool
  /-- kept s registers and their values at the keep; v lanes and q registers by logical cluster -/
  keptS : Tbl W64
  keptV : Tbl W32
  keptQ : Tbl (BitVec 16)
  keptVregs : List Nat
  /-- a `belay.keep.v` has saved q1–q7, whatever registers it named -/
  keptPreds : Bool
  /-- shadow tiles: tile number, its elements, its overflow bit -/
  shadow : List (Nat × Tbl W32 × Bool)
  /-- enclosing copies moved into the undo journal: lines they take -/
  movedLines : Nat
  deriving DecidableEq, Repr

/-- One undo-journal entry (R315): the region depth it belongs to, the 64 old bytes of its line, and the words of the line that were live barrier words
then: their state is never rolled back (R308). -/
structure JournalEntry where
  depth : Nat
  line : Nat
  bytes : List Byte
  live : List Nat
  deriving DecidableEq, Repr

/-- A rollback in progress (R320, R321). -/
structure Rollback where
  /-- depth of the target region -/
  target : Nat
  /-- X, the cycle after the detected error, and the cycle at which this phase's event falls due -/
  x : Nat
  due : Nat
  /-- the target's state is restored: the core waits for H′ -/
  restored : Bool
  deriving DecidableEq, Repr

/-- Belay state of a core: innermost region first (R312, R315). -/
structure Belay where
  regions : List Region
  journal : List JournalEntry
  roll : Option Rollback
  deriving DecidableEq, Repr

/-- The barrier latch of a core (R311). -/
structure BarrierLatch where
  valid : Bool
  addr : W64
  released : Bool
  cycle : Nat
  deriving DecidableEq, Repr

/-! ### The instruction store -/

/-- What tells one image from another in the instruction store: ASID, object hash and section (R356). -/
structure CodeTag where
  asid : Nat
  objHash : List Byte
  section_ : Nat
  deriving DecidableEq, Repr

/-- One block of the instruction store: 16 bundles (R356). -/
structure CodeBlock where
  addr : BitVec 48
  asid : Nat
  objHash : List Byte
  section_ : Nat
  bytes : List Byte
  locked : Bool
  lastIssue : Nat
  deriving DecidableEq, Repr

/-- One entry of the instruction translation buffer (R29): a 2 MiB page. -/
structure ItbEntry where
  asid : Nat
  page : Nat
  ppn : Nat
  deriving DecidableEq, Repr

/-- A block fetch in progress: for issue, or for `ilock` and `ipref` (R29, R357). -/
structure CodeFetch where
  id : Nat
  addr : BitVec 48
  forIssue : Bool
  lock : Bool
  root : W64
  /-- whether its address is translated; the block's physical address then, or the fault code of its walk -/
  found : Bool
  phys : Nat
  fault : Nat
  deriving DecidableEq, Repr

/-- The instruction store of a core (R356–R358). -/
structure CodeStore where
  blocks : List CodeBlock
  itb : List ItbEntry
  fetches : List CodeFetch
  /-- the cycle in which each image last ran on the core (R357) -/
  runs : List (CodeTag × Nat)
  deriving DecidableEq, Repr

/-! ### Traps -/

/-- A cause found late, held for cycle E (R341). -/
structure HeldCause where
  cause : Nat
  sub : Nat
  pc : BitVec 48
  word : W32
  issue : Nat
  slot : Nat
  /-- CSR records written when it is raised (SFINFO, BKCONF) -/
  records : List (Nat × W64)
  deriving DecidableEq, Repr

/-- Control effects of a bundle, applied when its last slot has issued: the target of a taken transfer (R200), a loop
entered or skipped (R203), and `end` (R304). -/
structure Ctl where
  taken : Option (BitVec 48)
  jump : Option (BitVec 48)
  ended : Bool
  /-- the bundle holds a control form with delay bundles (R200) -/
  form : Bool
  /-- the decoder of timed dispatch has already moved on from the bundle -/
  released : Bool
  deriving DecidableEq, Repr

/-- Slots to be issued at or after E from latched operands (R346). `whole`: the bundle did not issue at all and is checked
as any issue; `waits`: it first waits for the events its slots name. -/
structure Replay where
  at_ : Nat
  lat : Latched
  ctl : Ctl
  whole : Bool
  waits : Bool
  deriving DecidableEq, Repr

/-- The trap frame of a core (R339). `c` is the cycle of the freeze; `reported` is the late cause the trap reports. -/
structure TrapFrame where
  c : Nat
  landings : List Landing
  td : TimedDispatch
  transfer : Option Transfer
  latched : Latched
  ctl : Ctl
  /-- the trap was raised at a bundle that did not issue, and one that waits (R346) -/
  whole : Bool
  waits : Bool
  reported : Option HeldCause
  /-- issue goes on with the next bundle: a late trap, or an unrecovered error -/
  goOn : Bool
  retiring : Bool
  refetch : Bool
  /-- loop levels held at the freeze: those of the frozen context -/
  loopDepth : Nat
  /-- status registers as they were before the trap, for a trap that an error of its cycle cancels (R341) -/
  undo : List (Nat × W64)
  held : List HeldCause
  fpe : Bool
  pc : BitVec 48
  nextIssue : Nat
  preBoundary : Bool
  ilDrain : Bool
  ilLeave : Bool
  /-- delay bundles left of a control form, and whether the keep window of the frozen context's region is open -/
  delay : Nat
  keepWindow : Bool
  /-- the fault is that of the operation at the head of the matrix queue: it starts again while RPL names slot 7 (R258, R262) -/
  mxHead : Bool
  deriving DecidableEq, Repr

/-- A latched transfer descriptor (R287). -/
structure XferDesc where
  op : Nat
  src : W64
  dst : W64
  tag : BitVec 16
  len : Nat
  rows : Nat
  sstr : Int
  dstr : Int
  eng : Nat
  root : W64
  deriving DecidableEq, Repr

/-- Where a line of a transfer stands. -/
inductive CePhase where
  /-- an off-core source line asked for -/
  | requested
  /-- at the engine -/
  | ready
  /-- its destination cycle is booked -/
  | booked
  /-- on its way to an off-core home -/
  | departed
  deriving DecidableEq, Repr

/-- One line of a transfer between its read and its write (R292). -/
structure CeLine where
  line : Nat
  data : List Byte
  phase : CePhase
  /-- address of an outstanding off-core request, and its physical or host address -/
  addr : W64
  phys : Nat
  /-- of a line at hand, the first cycle in which it may leave; of a booked one, its destination cycle -/
  w : Nat
  /-- the fault code with which its home answered, 0 for none -/
  code : Nat
  deriving DecidableEq, Repr

/-- A transfer: waiting in a time-sorted buffer, or begun (R291, R292). -/
structure Xfer where
  id : Nat
  desc : XferDesc
  s0 : Nat
  handle : Option Nat
  core : Nat
  /-- 0 refill, 1 write-back, 2 buffer entry (R291) -/
  rank : Nat
  order : Nat
  /-- issue sequence number among the core's off-core accesses, for fences (R90) -/
  farSeq : Nat
  issued : Nat
  began : Bool
  /-- next line to read, and lines landed -/
  nextLine : Nat
  written : Nat
  pending : List CeLine
  cancelled : Bool
  /-- 4 KiB pages being walked, and those whose walk faulted with its code -/
  walking : List Nat
  bad : List (Nat × Nat)
  /-- the line at which it faulted: later ones are not performed -/
  limit : Option Nat
  /-- the code and address of that fault until it is reported, when every earlier line has landed (R38, R294) -/
  fault : Option (Nat × W64)
  /-- counted by `CELATE`: one transfer adds at most 1 (R291) -/
  late : Bool
  deriving DecidableEq, Repr

/-- What tells a translated image from another: the key under which the loader caches it (R419), and the number by which its blocks are told from those
of another translation. -/
structure TransKey where
  num : Nat
  objHash : List Byte
  kernel : Nat
  specimen : BitVec 128
  classKey : List Byte
  mapVersion : Nat
  policy : BitVec 64
  deriving DecidableEq, Repr

/-- What a core holds of a launch (R175, R176, R379, R401). -/
structure CoreLaunch where
  launch : Nat
  lcore : Nat
  ncore : Nat
  tenant : Nat
  objHash : List Byte
  kernel : Nat
  section_ : Nat
  ib : BitVec 48
  /-- map version under which it was started or last restored -/
  mapVersion : Nat
  /-- what its image was translated from, none for a native one (R419) -/
  trans : Option TransKey
  /-- dispatch mode of the image, and whether the image check at its first bundle is due (R164, R384) -/
  imageMode : BitVec 1
  checkDue : Bool
  /-- traps go to the firmware handler, which ends the launch (R403) -/
  firmwareTrap : Bool
  deriving DecidableEq, Repr

/-- One core. CSRs are a table by number; fields that live elsewhere (MXSTAT, BELAYSTAT, ILOCKSTAT counts) are views. -/
structure Core where
  regs : RegFile
  seq : Sequencer
  csr : Tbl W64
  inflight : List Landing
  td : TimedDispatch
  mx : Matrix
  xt : Tbl Transposer
  far : FarQueue
  belay : Belay
  latch : BarrierLatch
  code : CodeStore
  /-- trap mode while a frame is held (R342) -/
  frame : Option TrapFrame
  /-- slots to be issued from latched operands at or after E (R346) -/
  replay : Option Replay
  /-- late causes, and an FP event, to be raised when issue resumes (R341) -/
  owed : List HeldCause
  owedFpe : Bool
  /-- E, the cycle at which they are raised (R341, R346) -/
  owedAt : Nat
  /-- a context on its way off the core: the landing cycle and the resume point (R360) -/
  save : Option (Nat × Nat)
  /-- an instruction-store slip: its cycle and the results frozen with the core (R77, R356) -/
  slip : Option (Nat × List Landing)
  /-- a self-test in progress: the units asked for and the cycle it was asked in (R354) -/
  test : Option (W64 × Nat)
  /-- last operation each physical unit accepted, by unit key: 2 × (cycle + 1), plus 1 where it holds a half-speed unit -/
  units : Tbl Nat
  launch : Option CoreLaunch
  /-- units used since their last passing test, as keys of `units` (R317) -/
  used : List Nat
  /-- a `DISPMODE` write by software, which takes effect at the core's next launch (R164) -/
  dispNext : Option W64
  /-- a unit in use was declared dead: the rollback ends at a landing point (R381) -/
  evacuate : Bool
  /-- the rollback is over: the restart point, which comes next, is that landing point -/
  leaving : Bool
  /-- the issue cycle of the `mmac` that `FPFIRST` records: rows of it that land later add their flags (R219) -/
  fpRow : Option Nat
  /-- transfers of a context on its way off the core that had not begun (R300) -/
  heldXfers : List Xfer
  /-- hardware updates of control registers made in a cycle before its CSR writes: the cycle, and by number what is added or set
  (R350) -/
  hw : Nat × Tbl Nat
  deriving DecidableEq, Repr

/-! ### Ropes -/

/-- Kinds of statically timed access (R74). -/
inductive AccKind where
  | ld (size : Nat) (sx : Bool) | vld | vlds | vgat | ldsc
  | st | vst | vsts | vsct
  | atomic (op : Nat) (natural : Bool)
  | barInit | barArrive (nw : Bool) | barFini
  deriving DecidableEq, Repr

/-- One statically timed access that has been issued (R51, R74). -/
structure Access where
  id : Nat
  core : Nat
  issue : Nat
  slot : Nat
  pc : BitVec 48
  word : W32
  kind : AccKind
  /-- scratchpad byte offset -/
  off : Nat
  lane : Nat
  tap : Nat
  station : Nat
  travel : Nat
  /-- destination register key or number -/
  dest : Nat
  /-- physical cluster of a vector access -/
  phys : Nat
  lanes : BitVec 16
  /-- word index of each lane, for `vgat` -/
  idx : List Nat
  /-- bytes to write, by scratchpad offset -/
  wr : List (Nat × Byte)
  opnd : W64
  cmp : W64
  /-- bank cycles still to be performed -/
  banks : List (Nat × Nat)
  /-- data on the lane, or the word read -/
  data : Option (List Byte)
  /-- an `.il` access that has not found its bank cycle yet (R157) -/
  interlocked : Bool
  /-- handle and expected tag of a tagged `.il` load (R145, R157) -/
  tagged : Option (Nat × BitVec 16)
  /-- faulted: performs nothing further -/
  dead : Bool
  handler : Bool
  /-- cycles by which a trap taken meanwhile delays its landing (R346) -/
  shift : Nat
  /-- a rollback discards its result (R320) -/
  discarded : Bool
  /-- its core has retired meanwhile: a cause found later is dropped -/
  orphan : Bool
  deriving DecidableEq, Repr

/-- One segment of a lane booked for a transfer over cycles `lo` to `hi` (R50–R53). -/
structure LaneBooking where
  lane : Nat
  seg : Nat
  lo : Nat
  hi : Nat
  tag : BitVec 6
  station : Nat
  deriving DecidableEq, Repr

/-- One bank cycle booked by a station (R57). -/
structure BankBooking where
  bank : Nat
  cycle : Nat
  station : Nat
  deriving DecidableEq, Repr

/-- Handle states (R65). -/
inductive HandleState where
  | free | filling | full | draining | faulted
  deriving DecidableEq, Repr

/-- A buffer handle with its write-back address and refill record (R65, R295). -/
structure Handle where
  tag : BitVec 16
  chk : BitVec 4
  wb : Bool
  st : HandleState
  fcode : Nat
  faddr : W64
  base : Nat
  len : Nat
  wbAddr : W64
  refill : Option XferDesc
  /-- filled by a pitch (hOut of the core with this position + 1), or by a timetable instance + 5 -/
  filler : Nat
  deriving DecidableEq, Repr

/-- One copy engine (R291). -/
structure Engine where
  tsb : List Xfer
  active : List Xfer
  /-- the cycle after the last read beat of the latest begun transfer, and whether it still reads -/
  free : Nat
  readBusy : Bool
  /-- the first cycle in which its next read beat can be tried -/
  readAt : Nat
  deriving DecidableEq, Repr

/-- One entry of the rope's data translation buffer (R31). Window entries carry the descriptor's host base. -/
structure DtbEntry where
  asid : Nat
  window : Bool
  vbase : Nat
  size : Nat
  pbase : Nat
  r : Bool
  w : Bool
  deriving DecidableEq, Repr

/-- Whose port beat it is. -/
inductive PortOwner where
  /-- a line of a timetable entry: instance, entry, line -/
  | timetable (inst entry line : Nat)
  /-- a line of a transfer of another rope (R87): rope, transfer, line -/
  | engine (rope xfer line : Nat)
  /-- a line of a triggered copy of a chiplet (R434) -/
  | trigger (copy : Nat)
  /-- a line that the destination of a timetable entry holds before the entry combines with it: instance, entry, line (R430) -/
  | old (inst entry line : Nat)
  /-- a line of the descriptor of a `ctrig` or `ckpt`: core, far operation (R299) -/
  | desc (core op : Nat)
  /-- a line of a posted write of the host, and one of a read request of the host (R49, R74) -/
  | hostWrite
  | hostRead (id : Nat)
  /-- a debug access, or one whose end nothing waits for: what it reads leaves the machine (R49, R74) -/
  | outside
  deriving DecidableEq, Repr

/-- A beat waiting at a collective, host or debug station (R74, R102). -/
structure PortReq where
  id : Nat
  station : Nat
  write : Bool
  off : Nat
  /-- bytes to write: one line, and the lines that follow it -/
  data : List Byte
  owner : PortOwner
  /-- the booked write cycle -/
  w : Option Nat
  deriving DecidableEq, Repr

/-- One rope (R48–R71, R286–R298). -/
structure Rope where
  /-- grantee of bank b in row i at key 16 × i + b; unlisted 31 (none) -/
  grants : Tbl Nat
  owners : Tbl Nat
  /-- an accepted table waiting for its swap cycle -/
  pendingTable : Option (Tbl Nat × Tbl Nat × Nat)
  lanes : List LaneBooking
  banks : List BankBooking
  accs : List Access
  /-- 8-byte word numbers whose barrier type bit is set (R69, R70) -/
  typeBits : List Nat
  handles : Tbl Handle
  engines : Tbl Engine
  dtb : List DtbEntry
  celate : BitVec 32
  /-- the cycle of the latest late starts, and how many it had: a write of `CELATE` in that cycle comes before them (R350) -/
  celateHw : Nat × Nat
  cefinfo : W64
  cefaddr : W64
  /-- the cycle of the latest engine faults, with their `CEFINFO` and `CEFADDR`: a write of `CEFINFO` in that cycle comes before them (R350) -/
  cefHw : Nat × List (W64 × W64)
  /-- position cores that owe a data-translation trap for an engine fault (R294) -/
  cefOwed : List Nat
  ports : List PortReq
  /-- status of the last slot-table install: 0 or 0x21 (R60) -/
  tableStatus : Nat
  deriving DecidableEq, Repr

/-! ### Dies -/

/-- Who waits for a walk (R33). -/
inductive Walker where
  | farOp (core op : Nat)
  | xfer (rope eng id : Nat)
  | code (core fetch : Nat)
  deriving DecidableEq, Repr

/-- A page walk in progress or waiting (R33). -/
structure Walk where
  id : Nat
  who : List Walker
  rope : Nat
  instr : Bool
  asid : Nat
  root : W64
  va : Nat
  started : Bool
  /-- the level and the table of the entry it reads next; none: it begins at its root (R22) -/
  at_ : Option (Nat × Nat)
  deriving DecidableEq, Repr

/-- A request waiting at a memory port (R63). -/
structure PortWait where
  id : Nat
  channel : Nat
  /-- requester code of R63 -/
  requester : Nat
  /-- event performed when it starts -/
  farCore : Nat
  farId : Nat
  xferRope : Nat
  line : Nat
  /-- 0 far operation, 1 engine read beat, 2 engine write beat, 3 command processor, 4 chiplet read, 5 chiplet write -/
  what : Nat
  /-- tenant whose HBM partitions the address is checked against (R27) -/
  tenant : Nat
  phys : Nat
  /-- the access has started in its granted cycle and is being served -/
  started : Bool
  /-- a chiplet's access: whose line it is, and the bytes it writes -/
  owner : PortOwner
  data : List Byte
  /-- the memory key of a chiplet's access -/
  key : Nat
  /-- a command processor's access: the event that follows once every access of its group has started -/
  ev : Option Instr
  deriving DecidableEq, Repr

/-- A core record of the die map, field for field (R372). -/
structure CoreMap where
  scal : BitVec 8
  bind : BitVec 32
  colst : BitVec 128
  xst : W64
  coladd : BitVec 128
  xadd : W64
  dist : BitVec 192
  spared : BitVec 192
  brep : BitVec 32
  csince : Nat
  /-- keys of units that ran at half rate when they became retiring: no bit of the record says so, and they keep that rate (R367) -/
  slow : List Nat
  deriving DecidableEq, Repr

/-- A rope record of the die map (R373). -/
structure RopeMap where
  hop : BitVec 32
  deadln : BitVec 16
  bankrep : BitVec 16
  deriving DecidableEq, Repr

/-- One published map of a die (R370, R371). -/
structure DieMap where
  version : Nat
  pubCyc : Nat
  cores : Tbl CoreMap
  ropes : Tbl RopeMap
  latW : BitVec 16
  latE : BitVec 16
  latC : BitVec 16
  prev : List Byte
  /-- signed bytes of the map -/
  bytes : List Byte
  deriving DecidableEq, Repr

/-- An access that a dropped translation entry has translated and that has still to perform (R36). -/
inductive TbUser where
  | far (core id : Nat)
  /-- a line of a transfer, on its way to be read or to be written -/
  | line (rope xfer line : Nat) (phase : CePhase)
  | fetch (core id : Nat)
  deriving DecidableEq, Repr

/-- An invalidation in progress (R35, R36). -/
structure TbInval where
  side : Bool
  kind : Nat
  asid : Nat
  addr : Nat
  /-- the users of the entries it has dropped; none while it has dropped nothing yet -/
  users : Option (List TbUser)
  deriving DecidableEq, Repr

/-- One compute die. -/
structure Die where
  /-- grantee of port p in row i at key 32 × i + p; unlisted 31 -/
  portGrants : Tbl Nat
  pendingPorts : Option (Tbl Nat × Nat)
  /-- status of the last memory-port table install: 0, 0x21 or 0x22 (R60, R64) -/
  portStatus : Nat
  portWaits : List PortWait
  walks : List Walk
  tbinvAddr : W64
  tbinv : Option TbInval
  /-- the fields last written to TBINV (R35) -/
  tbinvVal : W64
  vmargin : W64
  linkmargin : W64
  /-- published maps, newest first; empty: the power-up map of State.reset -/
  maps : List DieMap
  /-- measured records waiting for the next publication -/
  measuredCores : Tbl CoreMap
  measuredRopes : Tbl RopeMap
  /-- segments marked for a 2-cycle hop time at the next remeasurement (R365): rope × 32 + segment -/
  marked : List Nat
  /-- units declared dead since the last publication (R338 cause 18) -/
  failed : List (UnitRef × Nat)
  /-- fenced HBM channels (R464) -/
  fenced : BitVec 32
  /-- replaced data lanes of each channel: (spare 0, spare 1) -/
  laneRepair : Tbl (Nat × Nat)
  /-- first cycle after the die's wipes are done (R457) -/
  readyAt : Nat
  tripped : Bool
  inReset : Bool
  /-- whether the die map record sections changed since the last publication -/
  dirty : Bool
  /-- command processor: current package digest, and whether it stopped applying records (R181) -/
  digest : List Byte
  stopped : Bool
  deriving DecidableEq, Repr

/-! ### Launches and queues -/

/-- A queue-table entry (R171). -/
structure Queue where
  frec : BitVec 32
  savedProg : BitVec 32
  fetch : BitVec 32
  progress : BitVec 32
  tail : BitVec 32
  tenant : Nat
  prio : Nat
  en : Bool
  res : Bool
  log2n : Nat
  asid : Nat
  ring : W64
  /-- the queue is stopped by an invalid packet (R174) -/
  stopped : Bool
  /-- raised priority for the next launch (R180) -/
  aged : Bool
  /-- being switched out: it waits for its launches to leave their cores (R173) -/
  leaving : Bool
  /-- the access to the ring that has been asked for at a memory port, for the packet at FETCH (R63) -/
  asking : Option Nat
  deriving DecidableEq, Repr

/-- Where a packet is on its way (R179). -/
inductive PacketPhase where
  | read | started | done
  deriving DecidableEq, Repr

/-- A packet read from a ring (R174). -/
structure Packet where
  queue : Nat
  seq : BitVec 32
  words : List W64
  phase : PacketPhase
  status : BitVec 16
  readAt : Nat
  /-- value that stands in place of CYCLE in the record (R447) -/
  word1 : Option W64
  /-- what a map query answers: the map in force in the cycle in which it started (R377) -/
  answer : List Byte
  deriving DecidableEq, Repr

/-- An uploaded object (R396). -/
structure BuzilObject where
  addr : W64
  tenant : Nat
  bytes : List Byte
  /-- 0 accepted, 0x38 accepted but for the images whose expansion would pass its bound, 0x39 refused (R399, R301) -/
  status : Nat
  /-- native sections refused at upload with status 0x38 (R301) -/
  badSections : List Nat
  /-- expanded bodies of compressed sections -/
  expanded : Tbl (List Byte)
  deriving DecidableEq, Repr

/-- State of a launch (R182–R185). -/
inductive LaunchPhase where
  | selected | unplaced | running | preempting | preempted | ended
  deriving DecidableEq, Repr

/-- One launch. -/
structure Launch where
  id : Nat
  queue : Nat
  seq : BitVec 32
  tenant : Nat
  prio : Nat
  obj : W64
  kernel : Nat
  ncore : Nat
  args : List W64
  cmpl : W64
  phase : LaunchPhase
  /-- physical rope of each logical rope -/
  ropes : List Nat
  retiredDies : List Nat
  savedDies : List Nat
  status : Nat
  /-- resumes through resume records at these addresses: (logical core, address) -/
  records : Tbl W64
  /-- by logical core of a saved context: the section of its image and the addresses of its locked blocks (R357) -/
  locked : Tbl (Nat × List (BitVec 48))
  /-- the handles, refills and B-stores of its records are in place, and its contexts wait for held operations (R187) -/
  refilled : Bool
  deriving DecidableEq, Repr

/-- Records of the broadcast stream (R181). -/
inductive StreamKind where
  | launch (id : Nat)
  | retirement (id die : Nat)
  | preemption (id die : Nat)
  | map (digest : List Byte)
  deriving DecidableEq, Repr

structure StreamRec where
  kind : StreamKind
  digest : List Byte
  deriving DecidableEq, Repr

/-- An object whose bytes the loader has asked for: its address, its length, and the accesses that it waits for (R63, R399). -/
structure Upload where
  tenant : Nat
  addr : W64
  len : Nat
  group : Nat
  deriving DecidableEq, Repr

/-- Collective chiplet 0's queue and stream state. -/
structure Dispatcher where
  queues : Tbl Queue
  packets : List Packet
  /-- QAGE (R180), written by firmware outside the table (DESIGN CHOICE, safe: log entry 75) -/
  qage : BitVec 32
  /-- the queue chosen last at each priority (R180) -/
  lastChosen : Tbl Nat
  launches : List Launch
  stream : List StreamRec
  /-- records applied so far -/
  applied : Nat
  halted : Bool
  digest : List Byte
  objects : List BuzilObject
  uploads : List Upload
  /-- translated images that the loader keeps (R419) -/
  cache : List TransKey
  /-- events whose accesses to memory have been asked for at the ports (R63, R64) -/
  asked : List Instr
  deriving DecidableEq, Repr

/-! ### Collectives -/

/-- An endpoint of a timetable entry (R424). -/
structure Endpoint where
  kind : Nat
  mem : Nat
  die : Nat
  rope : Nat
  chip : Nat
  off : Nat
  deriving DecidableEq, Repr

/-- A timetable entry (R423). -/
structure TtEntry where
  off : Nat
  op : Nat
  ety : Nat
  root : Bool
  pos : Nat
  bytes : Nat
  dhandle : Option Nat
  src : Endpoint
  dst : Endpoint
  drawid : BitVec 32
  trig : Option Nat
  deriving DecidableEq, Repr

/-- An installed timetable (R422, R425, R440). -/
structure Timetable where
  id : Nat
  tenant : Nat
  number : Nat
  persist : Bool
  seed : W64
  duration : Nat
  done : W64
  members : BitVec 512
  entries : List TtEntry
  /-- the bytes it was installed from -/
  bytes : List Byte
  marked : Bool
  stale : Bool
  deriving DecidableEq, Repr

/-- A call in progress at its home (R427). -/
structure CcallReq where
  id : Nat
  /-- caller core and far operation, none for a trigger's call -/
  caller : Option (Nat × Nat)
  tenant : Nat
  number : Nat
  s : Nat
  /-- the timetable called, once found -/
  tt : Nat
  /-- chiplets whose acceptance the home still awaits, and chiplets that hold the reservation -/
  asked : List Nat
  accepted : List Nat
  /-- answered: the commit is on its way -/
  closed : Bool
  /-- its place in the order in which calls arrive at the home, and the chiplets that its reservation has still to reach (R427) -/
  order : Nat
  sent : List Nat
  /-- the epoch of its packets, and whether one of them was discarded (R437) -/
  epoch : Nat
  lost : Bool
  deriving DecidableEq, Repr

/-- A timetable instance (R429–R432). Entries are named by their place in the timetable. -/
structure Instance where
  id : Nat
  tt : Nat
  tenant : Nat
  s : Nat
  started : Bool
  /-- entries that the sequencer has started, and the source bytes read for them so far -/
  begun : List Nat
  data : Tbl (List Byte)
  /-- entries whose data has arrived, those combined, and those whose last byte has landed -/
  arrived : List Nat
  combined : List Nat
  landed : List Nat
  /-- entries whose destination handle was not free at S, or that faulted: they write nothing -/
  blocked : List Nat
  status : Nat
  z : Bool
  v : Bool
  o : Bool
  late : Bool
  rerun : Bool
  /-- what the destinations of entries held before they combine, as far as it has been read -/
  olds : Tbl (List Byte)
  /-- the epoch of the packets of entries that are on their way (R437) -/
  epochs : Tbl Nat
  /-- it has ended, and its instance record is on its way to its home (R432) -/
  ended : Bool
  deriving DecidableEq, Repr

/-- A trigger-table entry (R433, R434). -/
structure Trigger where
  armed : Bool
  count : Nat
  action : List Byte
  owner : Nat
  tenant : Nat
  deriving DecidableEq, Repr

/-- A fired operation held for a descheduled owner (R187). -/
structure HeldTrigger where
  chip : Nat
  entry : Nat
  action : List Byte
  owner : Nat
  tenant : Nat
  /-- the cycle in which it fired (R433) -/
  fired : Nat
  deriving DecidableEq, Repr

/-- A triggered copy in progress (R434): its action, the launch that owns it, and the bytes read so far; lines are written once all are read. -/
structure TrigCopy where
  id : Nat
  tenant : Nat
  owner : Nat
  action : List Byte
  data : List Byte
  deriving DecidableEq, Repr

/-- A checkpoint save or restore in progress (R445, R447). -/
structure Checkpoint where
  id : Nat
  group : Nat
  tenant : Nat
  desc : List Byte
  step : W64
  slot : Nat
  /-- reports to: queue and sequence of a packet -/
  packet : Option (Nat × BitVec 32)
  failed : Bool
  restore : Bool
  /-- its items are written, and are read back next -/
  written : Bool
  deriving DecidableEq, Repr

/-- A link-state update that a node has forwarded: the node, the live links that carry it, and what it says (R436). -/
structure NetUpdate where
  node : Nat
  links : List Nat
  element : NetElement
  epoch : BitVec 32
  declarer : Nat
  deriving DecidableEq, Repr

/-- The collective network's state. -/
structure Collective where
  timetables : List Timetable
  calls : List CcallReq
  instances : List Instance
  /-- key chiplet × 1024 + entry -/
  triggers : Tbl Trigger
  held : List HeldTrigger
  copies : List TrigCopy
  /-- by chiplet of the package, the highest epoch that it has seen (R436) -/
  epochs : Tbl (BitVec 32)
  /-- updates that the chiplets have forwarded, newest first -/
  updates : List NetUpdate
  deadLinks : List Nat
  deadSwitches : List Nat
  failedMembers : List Nat
  /-- by chiplet, the epoch of the drain round that it is in, and the cycle of its end (R437) -/
  draining : Tbl (BitVec 32 × Nat)
  /-- the cycle of the last flit received on a link -/
  lastFlit : Tbl Nat
  /-- failure records: package, epoch and cycle (R439) -/
  failureRecords : List (Nat × Nat × Nat)
  checkpoints : List Checkpoint
  deriving DecidableEq, Repr

/-! ### Host link and security -/

/-- A host-window descriptor (R20). -/
structure HostWindow where
  base : W64
  len : Nat
  r : Bool
  w : Bool
  valid : Bool
  deriving DecidableEq, Repr

/-- A message on the host link towards the host: header words and payload. -/
structure HostMsg where
  w0 : W64
  w1 : W64
  data : List Byte
  deriving DecidableEq, Repr

/-- Whose read of host memory it is (R20). -/
inductive HostReader where
  | far (core id : Nat)
  | line (rope xfer line : Nat)
  /-- the command processor or the loader: the access that waits for it -/
  | access (id : Nat)
  deriving DecidableEq, Repr

/-- A read request of the host in service: its header, the address of its next unit, the units still to read, and the bytes read (R451). -/
structure HostRead where
  id : Nat
  w0 : W64
  addr : W64
  left : Nat
  data : List Byte
  deriving DecidableEq, Repr

/-- The host link (R450, R451). -/
structure HostLink where
  modules : BitVec 4
  refusedCount : Nat
  outbox : List HostMsg
  /-- tags of the device's own read requests that have not completed, and whose they are -/
  openReads : List (Nat × HostReader)
  /-- posted writes of the device that have not performed, in the order sent: operation or transfer, and line (R451) -/
  posted : List (Nat × Nat)
  /-- units of posted writes of the host that have not performed, in the order sent: address and bytes; and its reads in service (R451) -/
  inbound : List (W64 × List Byte)
  reads : List HostRead
  windows : Tbl HostWindow
  deriving DecidableEq, Repr

/-- Identity, lifecycle and partitions (R184, R454, R455). -/
structure Security where
  life : BitVec 3
  partitions : Tbl Partition
  quote : List Byte
  resets : Nat
  /-- domain member packages (R16) -/
  members : BitVec 16
  /-- page-table root registered for a domain identifier on a package: key package × 2^16 + domain (R32) -/
  domainRoots : Tbl W64
  /-- translation buffer of the packages as targets of space 5 (R32): the entry's `asid` is the key of its root -/
  targetTb : List DtbEntry
  /-- fenced channels that firmware has reported to the driver: die and channel (R464) -/
  reported : List (Nat × Nat)
  deriving DecidableEq, Repr

/-- An uncorrectable or correctable stored word (R41, R44, R47, R55). -/
structure Flip where
  loc : StorageLoc
  bad : Bool
  deriving DecidableEq, Repr

/-! ### The issuing bundle, the agenda and the whole state -/

/-- The bundle that is issuing in this cycle, between its first and its last slot. -/
structure Bundle where
  active : Bool
  core : Nat
  lat : Latched
  present : BitVec 12
  slot : SlotKind
  word : W32
  /-- slots still to issue -/
  rest : List SlotKind
  /-- issue is a replay of RPL slots (R346) -/
  replaying : Bool
  /-- the core was in trap mode when the bundle issued -/
  handler : Bool
  /-- slots that faulted, the first reported (R129) -/
  faulted : BitVec 12
  firstCause : Option (Nat × Nat × Nat)
  /-- slots that `eret` issues again -/
  rpl : BitVec 12
  ctl : Ctl
  /-- the slot does not issue: only the registers it names are collected, for the scoreboard of an interlocked loop (R168) -/
  probing : Bool
  uses : List Nat
  /-- the timed-dispatch entry it comes from -/
  entry : Option Nat
  /-- while probing: an anchor whose check of exposed results is done or not to be repeated (R166, R346) -/
  checked : Bool
  /-- the release cycle of a matrix operation that starts from the queue in this cycle (R262) -/
  queued : Option Nat
  /-- the sequencer, p1–p7, `RNDSEQ` and the next record id as the bundle found them: what `belay.begin` records (R312) -/
  seq0 : Sequencer
  p0 : BitVec 8
  rnd0 : W64
  id0 : Nat
  /-- slots of LD, ST, CE and SY whose port has already accepted an operation of another bundle in this cycle (R114, R116) -/
  busy : BitVec 12
  deriving DecidableEq, Repr

/-- An event due at a cycle. Within a cycle, events run in ascending `prio`. -/
structure Due where
  at_ : Nat
  prio : Nat
  ev : Instr
  deriving DecidableEq, Repr

/-- The whole package. -/
structure State where
  /-- the global cycle counter (R2, R72) -/
  cycle : Nat
  /-- the lowest core whose turn to issue in this cycle has not passed -/
  turn : Nat
  /-- events due, sorted by cycle and priority -/
  agenda : List Due
  bnd : Bundle
  cores : Tbl Core
  ropes : Tbl Rope
  dies : Tbl Die
  mem : List Host.Cell
  disp : Dispatcher
  coll : Collective
  host : HostLink
  sec : Security
  flips : List Flip
  /-- next record id -/
  nextId : Nat
  /-- by agent, the number of free values taken: the model's own field (DESIGN CHOICE, safe: log entry 11) -/
  free : Tbl Nat
  deriving DecidableEq, Repr

/-! ### Reset values -/

/-- All registers zero (R456). -/
def RegFile.reset : RegFile := { s := [], p := 0#8, v := [], q := [] }

/-- Stacks empty, RRB 0, no launch (R176, R456). -/
def Sequencer.reset : Sequencer :=
  { pc := 0#48, loops := [], rets := [], rrb := 0#4, transfer := none, delay := 0, nextIssue := 0, lastPc := 0#48, lastIssue := 0,
    run := .idle, idle := 0, waitFrom := none, waitEntry := none,
    preBoundary := false, ilDrain := false, ilLeave := false, keepWindow := false }

def TimedDispatch.reset : TimedDispatch :=
  { base := 0, lastTime := 0, lastRelease := 0, entries := [], origin := false,
    loops := [], transfer := none, pre := false }

def MatrixRun.reset : MatrixRun :=
  { isOpen := false, rt := 0, rm := 0, re := 0, entry := 0#64, count := 0, ovf := false, rsa := [], rsb := [], inner := [] }

def Matrix.reset : Matrix :=
  { tiles := [], ovf := 0#192, rowBuf := [], fmt := [], bind := none, scaleQ := [], scaleIssue := [], discard := [], run := .reset,
    arrayFree := 0, held := [], queue := [], pendingV := [] }

def Transposer.reset : Transposer :=
  { esize := 0#2, block := [], mask := 0#16, capture := [], capV := false, capCycle := 0 }

def FarQueue.reset : FarQueue := { ops := [], fences := [], nextSeq := 0, fault := none }

def Belay.reset : Belay := { regions := [], journal := [], roll := none }

def BarrierLatch.reset : BarrierLatch := { valid := false, addr := 0#64, released := false, cycle := 0 }

def CodeStore.reset : CodeStore := { blocks := [], itb := [], fetches := [], runs := [] }

/-- A core after reset: all SRAM zero (R456). CSRs the spec gives a reset value are read through `csrReset`. -/
def Core.reset : Core :=
  { regs := .reset, seq := .reset, csr := [], inflight := [], td := .reset, mx := .reset, xt := [], far := .reset,
    belay := .reset, latch := .reset, code := .reset, frame := none, replay := none, owed := [], owedFpe := false, owedAt := 0, save := none, slip := none,
    test := none, units := [], launch := none, used := [],
    dispNext := none, evacuate := false, leaving := false, fpRow := none, heldXfers := [], hw := (0, []) }

def Handle.reset : Handle :=
  { tag := 0#16, chk := 0#4, wb := false, st := .free, fcode := 0, faddr := 0#64, base := 0, len := 0, wbAddr := 0#64,
    refill := none, filler := 0 }

def Engine.reset : Engine := { tsb := [], active := [], free := 0, readBusy := false, readAt := 0 }

/-- A rope after reset: scratchpad and tables zero, no grant. DESIGN CHOICE, unsafe: log entry 4. -/
def Rope.reset : Rope :=
  { grants := [], owners := [], pendingTable := none, lanes := [], banks := [], accs := [], typeBits := [], handles := [],
    engines := [], dtb := [], celate := 0#32, celateHw := (0, 0), cefinfo := 0#64, cefaddr := 0#64, cefHw := (0, []), cefOwed := [], ports := [], tableStatus := 0 }

/-- A core record with every unit ok, no adder, logical cluster c on physical cluster c (log entry 5). -/
def CoreMap.reset : CoreMap :=
  { scal := 0#8, bind := 0x76543210#32, colst := 0#128, xst := 0#64, coladd := 0#128, xadd := 0#64, dist := 0#192,
    spared := 0#192, brep := 0#32, csince := 1, slow := [] }

def RopeMap.reset : RopeMap := { hop := 0#32, deadln := 0#16, bankrep := 0#16 }

/-- The map in force after reset: version 1 with every unit ok and every hop 1 cycle. DESIGN CHOICE, unsafe: log entry 5. -/
def DieMap.reset : DieMap :=
  { version := 1, pubCyc := 0, cores := [], ropes := [], latW := 0#16, latE := 0#16, latC := 0#16, prev := [], bytes := [] }

def Die.reset : Die :=
  { portGrants := [], pendingPorts := none, portStatus := 0, portWaits := [], walks := [], tbinvAddr := 0#64, tbinv := none, tbinvVal := 0#64, vmargin := 0#64,
    linkmargin := 0#64, maps := [], measuredCores := [], measuredRopes := [], marked := [], failed := [], fenced := 0#32,
    laneRepair := [], readyAt := 0, tripped := false, inReset := false, dirty := false, digest := [], stopped := false }

def Queue.reset : Queue :=
  { frec := 0#32, savedProg := 0#32, fetch := 0#32, progress := 0#32, tail := 0#32, tenant := 0, prio := 0, en := false,
    res := false, log2n := 0, asid := 0, ring := 0#64, stopped := false, aged := false,
    leaving := false, asking := none }

def Dispatcher.reset : Dispatcher :=
  { queues := [], packets := [], qage := 3800000#32, lastChosen := [], launches := [], stream := [], applied := 0, halted := false,
    digest := [], objects := [], uploads := [], cache := [], asked := [] }

def Trigger.reset : Trigger := { armed := false, count := 0, action := [], owner := 0, tenant := 0 }

def Collective.reset : Collective :=
  { timetables := [], calls := [], instances := [], triggers := [], held := [], copies := [], epochs := [], updates := [], deadLinks := [],
    deadSwitches := [], failedMembers := [], draining := [], lastFlit := [], failureRecords := [],
    checkpoints := [] }

def HostWindow.reset : HostWindow := { base := 0#64, len := 0, r := false, w := false, valid := false }

def HostLink.reset : HostLink := { modules := 0xF#4, refusedCount := 0, outbox := [], openReads := [], posted := [], inbound := [], reads := [], windows := [] }

def Partition.reset : Partition :=
  { cores := [], banks := [], ports := [], handles := [], hbm := [], chunks := [], triggers := [], policy := 0#64, needSig := false,
    trusted := [], roots := [], domain := 0 }

/-- DESIGN CHOICE, unsafe: log entry 6. -/
def Security.reset : Security :=
  { life := 2#3, partitions := [], quote := [], resets := 0, members := 1#16, domainRoots := [], targetTb := [], reported := [] }

def Latched.reset : Latched :=
  { pc := 0#48, cmask := 0#8, time := 0, pool := [], words := [], regs := .reset, rrb := 0#4, loops := [], il := false, clk := 0, sq := [],
    cmptFail := false }

def Ctl.reset : Ctl := { taken := none, jump := none, ended := false, form := false, released := false }

def Bundle.reset : Bundle :=
  { active := false, core := 0, lat := .reset, present := 0#12, slot := .sa, word := 0#32, rest := [], replaying := false,
    handler := false, faulted := 0#12, firstCause := none, rpl := 0#12, ctl := .reset,
    probing := false, uses := [], entry := none, checked := false, queued := none, seq0 := .reset, p0 := 0#8,
    rnd0 := 0#64, id0 := 0, busy := 0#12 }

/-- The machine right after reset: the counter at 0, every SRAM zero, no launch, nothing due (R456; log entries 1 to 6).
DESIGN CHOICE, unsafe: log entry 2. -/
def State.reset : State :=
  { cycle := 0, turn := 0, agenda := [], bnd := .reset, cores := [], ropes := [], dies := [], mem := [], disp := .reset, coll := .reset,
    host := .reset, sec := .reset, flips := [], nextId := 1, free := [] }

/-! ### How a step stops -/

/-- Why a step ends in a fault. -/
inductive Fault where
  /-- Raised by `step` when an event due lies before the global counter: the counter never runs back, so no run reaches such
  a state. Safe: a run stops where the machine has no next cycle to name. -/
  | pastDue (cycle : Nat)
  deriving DecidableEq, Repr

/-- Why a step ends in a refusal. -/
inductive Refusal where
  /-- Raised by an arm of `exec` that has no meaning yet. Safe: nothing can be proved of the instruction. -/
  | notModelled (mnemonic : String)
  deriving DecidableEq, Repr

end Sys2Proof.Machine
end

