-- ==== Sys2Proof/Machine/Tbl.lean ====
section
/-!
DEFINITION. Sparse tables: reading, writing and the canonical form, and the small list and bit helpers that every
meaning shares.
-/

namespace Sys2Proof.Machine

/-- The value at a key, or the default. -/
def tblGet {α : Type} (d : α) (k : Nat) : Tbl α → α
  | [] => d
  | (k', v) :: t => if k' = k then v else tblGet d k t

/-- The table without a key. -/
def tblErase {α : Type} (k : Nat) (t : Tbl α) : Tbl α := t.filter (fun e => e.1 != k)

/-- Insertion before the first greater key. -/
def tblInsert {α : Type} (k : Nat) (v : α) : Tbl α → Tbl α
  | [] => [(k, v)]
  | (k', v') :: t => if k < k' then (k, v) :: (k', v') :: t else (k', v') :: tblInsert k v t

/-- The table with a key set. -/
def tblSet {α : Type} (k : Nat) (v : α) (t : Tbl α) : Tbl α := tblInsert k v (tblErase k t)

/-- The table with a key set, dropping entries equal to the default: the canonical form of memory and registers. -/
def tblPut {α : Type} [DecidableEq α] (d : α) (k : Nat) (v : α) (t : Tbl α) : Tbl α :=
  if v = d then tblErase k t else tblSet k v t

/-- Keys strictly rising. -/
def tblSorted {α : Type} : Tbl α → Bool
  | [] => true
  | [_] => true
  | (k, _) :: (k', v') :: t => decide (k < k') && tblSorted ((k', v') :: t)

/-- The canonical form: sorted, and no entry equal to what an unlisted key reads as. -/
def tblWf {α : Type} [DecidableEq α] (d : α) (t : Tbl α) : Bool := tblSorted t && t.all (fun e => decide (e.2 ≠ d))

/-- Set a list of entries in order. -/
def tblPutAll {α : Type} [DecidableEq α] (d : α) (es : List (Nat × α)) (t : Tbl α) : Tbl α :=
  es.foldl (fun acc e => tblPut d e.1 e.2 acc) t

/-- Replace the elements that satisfy `p`. -/
def listMod {α : Type} (p : α → Bool) (f : α → α) (l : List α) : List α := l.map (fun x => if p x then f x else x)

/-- The naturals 0 to n − 1. -/
def upTo (n : Nat) : List Nat := List.range n

/-- `n` copies of a value. -/
def copies {α : Type} : Nat → α → List α
  | 0, _ => []
  | n + 1, a => a :: copies n a

/-- The i-th element, or a default. -/
def nth {α : Type} (d : α) : List α → Nat → α
  | [], _ => d
  | x :: _, 0 => x
  | _ :: t, n + 1 => nth d t n

/-- The first `n` elements and the rest. -/
def cut {α : Type} : Nat → List α → List α × List α
  | 0, l => ([], l)
  | _ + 1, [] => ([], [])
  | n + 1, x :: t => let r := cut n t; (x :: r.1, r.2)

/-- The first number at or after `c`, among `fuel` tried, that satisfies `p`. -/
def firstFrom (p : Nat → Bool) : Nat → Nat → Option Nat
  | 0, _ => none
  | fuel + 1, c => if p c then some c else firstFrom p fuel (c + 1)

/-- Little-endian bytes of a natural (R4). -/
def leBytes : Nat → Nat → List Byte
  | 0, _ => []
  | n + 1, x => BitVec.ofNat 8 x :: leBytes n (x / 256)

/-- The natural of little-endian bytes (R4). -/
def leNat : List Byte → Nat
  | [] => 0
  | b :: t => b.toNat + 256 * leNat t

/-- Bit i of a bit vector. -/
def bitAt {n : Nat} (w : BitVec n) (i : Nat) : Bool := w.getLsbD i

/-- A bit vector with bit i set to b. -/
def setBit {n : Nat} (w : BitVec n) (i : Nat) (b : Bool) : BitVec n :=
  if b then w ||| BitVec.ofNat n (2 ^ i) else w &&& ~~~ (BitVec.ofNat n (2 ^ i))

/-- Field [l + n − 1 : l] of a natural. -/
def field (x l n : Nat) : Nat := (x / 2 ^ l) % 2 ^ n

/-- A natural with field [l + n − 1 : l] replaced. -/
def setField (x l n v : Nat) : Nat := x - (field x l n) * 2 ^ l + (v % 2 ^ n) * 2 ^ l

/-- A natural of `n` bits read as signed. -/
def signedOf (n x : Nat) : Int := if x < 2 ^ (n - 1) then (x : Int) else (x : Int) - (2 ^ n : Nat)

/-- An integer clamped to a range. -/
def clampInt (lo hi x : Int) : Int := if x < lo then lo else if hi < x then hi else x

/-- The lowest element of a non-empty list, by value. -/
def minimumOf : List Nat → Option Nat
  | [] => none
  | x :: t => match minimumOf t with
    | none => some x
    | some y => some (if x ≤ y then x else y)

/-- The greatest element of a list, 0 for an empty one. -/
def maximumOf (l : List Nat) : Nat := l.foldl (fun a b => if a < b then b else a) 0

end Sys2Proof.Machine
end

