-- ==== Sys2Proof/Machine/Fp.lean ====
section
/-!
DEFINITION. Floating point as R205–R217 give it: formats, exact values, the one rounding in five modes, the flush of
subnormals, NaNs, sums, products, comparisons, conversions and the block-scaled formats. Values are computed exactly on
integers and narrowed once.
-/

namespace Sys2Proof.Machine

/-- Flags in the group order of R218: V, Z, O, U, X, D. -/
abbrev FpFlags := BitVec 6
def flV : FpFlags := 1#6
def flZ : FpFlags := 2#6
def flO : FpFlags := 4#6
def flU : FpFlags := 8#6
def flX : FpFlags := 16#6
def flD : FpFlags := 32#6

/-- A binary format: exponent bits and fraction bits (R205). -/
structure FpFmt where
  ebits : Nat
  fbits : Nat
  deriving DecidableEq, Repr

def fp32 : FpFmt := { ebits := 8, fbits := 23 }
def bf16 : FpFmt := { ebits := 8, fbits := 7 }
def fp16 : FpFmt := { ebits := 5, fbits := 10 }

def FpFmt.bias (f : FpFmt) : Int := 2 ^ (f.ebits - 1) - 1
def FpFmt.emin (f : FpFmt) : Int := 1 - f.bias
def FpFmt.emax (f : FpFmt) : Int := f.bias
def FpFmt.prec (f : FpFmt) : Nat := f.fbits + 1
/-- Exponent of the unit in the last place of the smallest normal number. -/
def FpFmt.umin (f : FpFmt) : Int := f.emin - f.fbits
/-- Bits of an infinity, the largest finite magnitude and the canonical quiet NaN (R205). -/
def FpFmt.infBits (f : FpFmt) : Nat := (2 ^ f.ebits - 1) * 2 ^ f.fbits
def FpFmt.maxBits (f : FpFmt) : Nat := f.infBits - 1
def FpFmt.nanBits (f : FpFmt) : Nat := f.infBits + 2 ^ (f.fbits - 1)
def FpFmt.signBit (f : FpFmt) : Nat := 2 ^ (f.ebits + f.fbits)
/-- Bits with a sign. -/
def FpFmt.withSign (f : FpFmt) (neg : Bool) (b : Nat) : Nat := if neg then b + f.signBit else b

/-- A floating-point datum: a finite one is ± m × 2^e. -/
inductive FpVal where
  | nan (signalling : Bool)
  | inf (neg : Bool)
  | fin (neg : Bool) (m : Nat) (e : Int)
  deriving DecidableEq, Repr

/-- Result bits and the flags raised. -/
structure FpRes where
  bits : Nat
  fl : FpFlags
  deriving DecidableEq, Repr

/-- The rounding modes of R208; stochastic rounding carries its 16 random bits (R209). -/
inductive RMode where
  | rne | rz | ru | rd
  | stoch (r : Nat)
  deriving DecidableEq, Repr

/-- The datum that bits of a format hold (R205). -/
def fpDecode (f : FpFmt) (b : Nat) : FpVal :=
  let neg := decide (1 ≤ field b (f.ebits + f.fbits) 1)
  let ex := field b f.fbits f.ebits
  let fr := field b 0 f.fbits
  if ex = 2 ^ f.ebits - 1 then
    if fr = 0 then .inf neg else .nan (field fr (f.fbits - 1) 1 == 0)
  else if ex = 0 then .fin neg fr f.umin
  else .fin neg (fr + 2 ^ f.fbits) (f.umin + ((ex : Int) - 1))

/-- Whether bits hold a subnormal (R205). -/
def fpSubnormal (f : FpFmt) (b : Nat) : Bool := field b f.fbits f.ebits == 0 && field b 0 f.fbits != 0

/-- Read an input of a computational form: outside an `.il` body a subnormal reads as zero of its sign and sets D (R212). -/
def fpRead (f : FpFmt) (il : Bool) (b : Nat) : FpVal × FpFlags :=
  match fpDecode f b with
  | .nan sg => (.nan sg, if sg then flV else 0#6)
  | .inf n => (.inf n, 0#6)
  | .fin n m e => if fpSubnormal f b && !il then (.fin n 0 e, flD) else (.fin n m e, 0#6)

def FpVal.isNan : FpVal → Bool
  | .nan _ => true
  | _ => false

def FpVal.isNeg : FpVal → Bool
  | .nan _ => false
  | .inf n => n
  | .fin n _ _ => n

def FpVal.isZero : FpVal → Bool
  | .fin _ 0 _ => true
  | _ => false

/-- Whether a magnitude with remainder `rem` of `2^sh` rounds away from zero (R208, R209). -/
def roundsUp (mode : RMode) (neg : Bool) (q rem sh : Nat) : Bool :=
  match mode with
  | .rne => if rem = 0 then false else decide (2 ^ (sh - 1) < rem) || (rem == 2 ^ (sh - 1) && q % 2 == 1)
  | .rz => false
  | .ru => !neg && rem != 0
  | .rd => neg && rem != 0
  | .stoch r => decide (2 ^ 16 ≤ (if sh ≤ 16 then rem * 2 ^ (16 - sh) else rem / 2 ^ (sh - 16)) + r)

/-- A magnitude m × 2^e in units of 2^u: quotient after rounding, and whether it was inexact. -/
def roundUnits (mode : RMode) (neg : Bool) (m : Nat) (e u : Int) : Nat × Bool :=
  if u ≤ e then (m * 2 ^ (e - u).toNat, false)
  else
    let sh := (u - e).toNat
    let q := m / 2 ^ sh
    let rem := m % 2 ^ sh
    (if roundsUp mode neg q rem sh then q + 1 else q, rem != 0)

/-- The result of an overflow (R208). -/
def fpOverflow (f : FpFmt) (mode : RMode) (neg : Bool) : FpRes :=
  let b := match mode with
    | .rne => f.infBits
    | .stoch _ => f.infBits
    | .rz => f.maxBits
    | .ru => if neg then f.maxBits else f.infBits
    | .rd => if neg then f.infBits else f.maxBits
  { bits := f.withSign neg b, fl := flO ||| flX }

/-- Round an exact finite magnitude once to a format (R208, R209, R212). -/
def fpRound (f : FpFmt) (mode : RMode) (il neg : Bool) (m : Nat) (e : Int) : FpRes :=
  if m = 0 then { bits := f.withSign neg 0, fl := 0#6 }
  else
    let ex : Int := (Nat.log2 m : Int) + e
    if !il && decide (ex < f.emin) then { bits := f.withSign neg 0, fl := flU ||| flX }
    else
      let exc := if ex < f.emin then f.emin else ex
      let u := exc - f.fbits
      let r := roundUnits mode neg m e u
      if r.1 ≠ 0 ∧ decide (f.emax < (Nat.log2 r.1 : Int) + u) then fpOverflow f mode neg
      else
        let mag := r.1 + (u - f.umin).toNat * 2 ^ f.fbits
        -- tininess in `.il` bodies: of the delivered value where rounding is stochastic (R209), else after rounding to unbounded exponent range (R212)
        let r' := roundUnits mode neg m e (ex - f.fbits)
        let tiny := decide (ex < f.emin) && (match mode with
          | .stoch _ => decide (r.1 < 2 ^ f.fbits)
          | _ => !(decide (ex = f.emin - 1) && r'.1 == 2 ^ f.prec))
        { bits := f.withSign neg mag,
          fl := (if r.2 then flX else 0#6) ||| (if tiny && r.2 then flU else 0#6) }

/-- The bits of a datum that needs no rounding in its own format, or one rounding. -/
def fpEncode (f : FpFmt) (mode : RMode) (il : Bool) : FpVal → FpRes
  | .nan _ => { bits := f.nanBits, fl := 0#6 }
  | .inf n => { bits := f.withSign n f.infBits, fl := 0#6 }
  | .fin n m e => fpRound f mode il n m e

/-- The exact product; 0 × ∞ is invalid (R213). -/
def fpMulVal (a b : FpVal) : FpVal × FpFlags :=
  match a, b with
  | .nan _, _ => (.nan false, 0#6)
  | _, .nan _ => (.nan false, 0#6)
  | .inf n, .inf n' => (.inf (n != n'), 0#6)
  | .inf n, .fin n' m _ => if m = 0 then (.nan false, flV) else (.inf (n != n'), 0#6)
  | .fin n m _, .inf n' => if m = 0 then (.nan false, flV) else (.inf (n != n'), 0#6)
  | .fin n m e, .fin n' m' e' => (.fin (n != n') (m * m') (e + e'), 0#6)

def FpVal.negate : FpVal → FpVal
  | .nan s => .nan s
  | .inf n => .inf (!n)
  | .fin n m e => .fin (!n) m e

/-- A signed mantissa in units of 2^u, for u at or below the exponent. -/
def scaledInt (neg : Bool) (m : Nat) (e u : Int) : Int :=
  let x : Int := (m * 2 ^ (e - u).toNat : Nat)
  if neg then -x else x

/-- The lowest exponent of the finite terms. -/
def lowExp : List FpVal → Int → Int
  | [], acc => acc
  | .fin _ m e :: t, acc => lowExp t (if m ≠ 0 ∧ e < acc then e else acc)
  | _ :: t, acc => lowExp t acc

/-- The exact sum of finite terms in units of 2^u. -/
def sumUnits (u : Int) : List FpVal → Int
  | [] => 0
  | .fin n m e :: t => (if m = 0 then 0 else scaledInt n m e u) + sumUnits u t
  | _ :: t => sumUnits u t

/-- The exact sum of terms, as one value: NaN and ∞ − ∞, and the sign of an exact zero (R208, R213, R223). -/
def fpSumVal (mode : RMode) (ts : List FpVal) : FpVal × FpFlags :=
  if ts.any FpVal.isNan then (.nan false, 0#6)
  else
    let pos := ts.any (fun t => t == .inf false)
    let neg := ts.any (fun t => t == .inf true)
    if pos && neg then (.nan false, flV)
    else if pos then (.inf false, 0#6)
    else if neg then (.inf true, 0#6)
    else
      let u := lowExp ts 4096
      let x := sumUnits u ts
      if x = 0 then
        let z := if ts.all (fun t => t.isZero && t.isNeg) then true
                 else if ts.all (fun t => t.isZero && !t.isNeg) then false
                 else mode == .rd
        (.fin z 0 0, 0#6)
      else (.fin (decide (x < 0)) x.natAbs u, 0#6)

/-- One rounded sum of exact terms. -/
def fpSum (f : FpFmt) (mode : RMode) (il : Bool) (ts : List FpVal) : FpRes :=
  let v := fpSumVal mode ts
  let r := fpEncode f mode il v.1
  { r with fl := r.fl ||| v.2 }

/-- a + b, a − b, a × b and the fused forms, each rounded once (R196, R231). -/
def fpAdd (f : FpFmt) (mode : RMode) (il : Bool) (a b : Nat) : FpRes :=
  let x := fpRead f il a
  let y := fpRead f il b
  let r := fpSum f mode il [x.1, y.1]
  { r with fl := r.fl ||| x.2 ||| y.2 }

def fpSub (f : FpFmt) (mode : RMode) (il : Bool) (a b : Nat) : FpRes :=
  let x := fpRead f il a
  let y := fpRead f il b
  let r := fpSum f mode il [x.1, y.1.negate]
  { r with fl := r.fl ||| x.2 ||| y.2 }

def fpMul (f : FpFmt) (mode : RMode) (il : Bool) (a b : Nat) : FpRes :=
  let x := fpRead f il a
  let y := fpRead f il b
  let p := fpMulVal x.1 y.1
  let r := fpEncode f mode il p.1
  { r with fl := r.fl ||| p.2 ||| x.2 ||| y.2 }

/-- ± a × b ± d, rounded once. -/
def fpFma (f : FpFmt) (mode : RMode) (il negProd negAdd : Bool) (a b d : Nat) : FpRes :=
  let x := fpRead f il a
  let y := fpRead f il b
  let z := fpRead f il d
  let p := fpMulVal x.1 y.1
  let q := if negProd then p.1.negate else p.1
  let w := if negAdd then z.1.negate else z.1
  let r := fpSum f mode il [q, w]
  { r with fl := r.fl ||| p.2 ||| x.2 ||| y.2 ||| z.2 }

/-- Order of two non-NaN data: −1, 0 or 1; +0 and −0 compare equal. -/
def fpCompare (a b : FpVal) : Int :=
  match a, b with
  | .inf n, .inf n' => if n = n' then 0 else if n then -1 else 1
  | .inf n, _ => if n then -1 else 1
  | _, .inf n => if n then 1 else -1
  | .fin n m e, .fin n' m' e' =>
    let u := if e < e' then e else e'
    let x := scaledInt n m e u
    let y := scaledInt n' m' e' u
    if x < y then -1 else if y < x then 1 else 0
  | _, _ => 0

/-- IEEE 754-2019 minimum and maximum: a NaN gives the canonical NaN and −0 is below +0 (R196, R231). -/
def fpMinMax (f : FpFmt) (il isMax : Bool) (a b : Nat) : FpRes :=
  let x := fpRead f il a
  let y := fpRead f il b
  let fl := x.2 ||| y.2
  if x.1.isNan || y.1.isNan then { bits := f.nanBits, fl := fl }
  else
    let c := fpCompare x.1 y.1
    let takeX := if c = 0 then (if isMax then !x.1.isNeg else x.1.isNeg) else if isMax then decide (0 < c) else decide (c < 0)
    let r := fpEncode f .rne true (if takeX then x.1 else y.1)
    { r with fl := fl }

/-- Ordered comparison by condition code 0 eq, 1 ne, 2 lt, 3 le, 4 gt, 5 ge, with its V (R196, R233). -/
def fpCond (f : FpFmt) (il : Bool) (cond : Nat) (a b : Nat) : Bool × FpFlags :=
  let x := fpRead f il a
  let y := fpRead f il b
  let fl := x.2 ||| y.2
  if x.1.isNan || y.1.isNan then (cond == 1, fl ||| (if 2 ≤ cond then flV else 0#6))
  else
    let c := fpCompare x.1 y.1
    (match cond with
      | 0 => decide (c = 0)
      | 1 => decide (c ≠ 0)
      | 2 => decide (c < 0)
      | 3 => decide (c ≤ 0)
      | 4 => decide (0 < c)
      | _ => decide (0 ≤ c), fl)

/-- Convert between floating formats: any NaN becomes the canonical one (R213). -/
def fpConvert (src dst : FpFmt) (mode : RMode) (il : Bool) (a : Nat) : FpRes :=
  let x := fpRead src il a
  let r := fpEncode dst mode il x.1
  { r with fl := r.fl ||| x.2 }

/-- Convert to an integer range, rounding, then saturating; NaN gives 0 (R197, R236). -/
def fpToInt (f : FpFmt) (mode : RMode) (il : Bool) (lo hi : Int) (a : Nat) : Int × FpFlags :=
  let x := fpRead f il a
  match x.1 with
  | .nan _ => (0, x.2 ||| flV)
  | .inf n => (if n then lo else hi, x.2 ||| flV)
  | .fin n m e =>
    let r := roundUnits mode n m e 0
    let y : Int := if n then -(r.1 : Int) else r.1
    if y < lo then (lo, x.2 ||| flV)
    else if hi < y then (hi, x.2 ||| flV)
    else (y, x.2 ||| (if r.2 then flX else 0#6))

/-- Convert an integer (R197, R236). -/
def fpOfInt (f : FpFmt) (mode : RMode) (il : Bool) (x : Int) : FpRes := fpRound f mode il (decide (x < 0)) x.natAbs 0

/-! ### Block-scaled integers (R215–R217) -/

/-- The coded element width of format 0 `.mx8`, 1 `.mx6`, 2 `.mx4`. -/
def mxWidth (fmt : Nat) : Nat := if fmt = 0 then 8 else if fmt = 1 then 6 else 4

/-- Convert a block of 32 FP data to scale and codes (R216). -/
def mxQuant (n : Nat) (xs : List FpVal) : Nat × List Int × FpFlags :=
  if xs.any (fun x => match x with | .fin _ _ _ => false | _ => true) then (0xFF, xs.map (fun _ => 0), flV)
  else
    let exps := xs.filterMap (fun x => match x with
      | .fin _ m e => if m = 0 then none else some ((Nat.log2 m : Int) + e)
      | _ => none)
    match exps with
    | [] => (0, xs.map (fun _ => 0), 0#6)
    | h :: t =>
      let top := t.foldl (fun a b => if a < b then b else a) h
      let s : Nat := (top + 127).toNat
      let lim : Int := 2 ^ (n - 1) - 1
      let cs := xs.map (fun x => match x with
        | .fin ng m e =>
          let r := roundUnits .rne ng m (e + ((n : Int) - 2) - ((s : Int) - 127)) 0
          let v : Int := if ng then -(r.1 : Int) else r.1
          let c := clampInt (-lim) lim v
          (c, r.2 || c != v)
        | _ => (0, false))
      (s, cs.map (·.1), if cs.any (·.2) then flX else 0#6)

/-- The value of one code under a scale (R215, R217). -/
def mxValue (n scale : Nat) (code : Int) : FpVal :=
  if scale = 0xFF then .nan false
  else .fin (decide (code < 0)) code.natAbs (((scale : Int) - 127) - ((n : Int) - 2))

/-- Code k of packed n-bit codes held as a natural, signed (R215). -/
def mxCode (n k packed : Nat) : Int := signedOf n (field packed (n * k) n)

/-- Codes packed in ascending order, lowest element in the lowest bits (R215). -/
def mxPack (n : Nat) : List Int → Nat
  | [] => 0
  | c :: t => (c % (2 ^ n : Nat)).toNat + 2 ^ n * mxPack n t

/-! ### The coin (R277) -/

/-- The generator of draw merges and of stochastic rounding (R277). -/
def coin (seed : W64) (drawid : BitVec 32) (lv : Nat) (start : BitVec 32) : BitVec 32 :=
  let m : W64 := (drawid.setWidth 64 <<< 32) ||| start.setWidth 64
  let x0 : W64 := seed + 0x9E3779B97F4A7C15#64 * (m ^^^ (BitVec.ofNat 64 lv <<< 58))
  let x1 : W64 := (x0 ^^^ (x0 >>> 30)) * 0xBF58476D1CE4E5B9#64
  let x2 : W64 := (x1 ^^^ (x1 >>> 27)) * 0x94D049BB133111EB#64
  let x3 : W64 := x2 ^^^ (x2 >>> 31)
  (x3 >>> 32).setWidth 32

/-- The 16 random bits of a stochastic rounding (R209). -/
def stochBits (seed : W64) (sq : BitVec 32) (elem : Nat) : Nat := (coin seed sq 63 (BitVec.ofNat 32 elem)).toNat / 2 ^ 16

/-- The rounding mode of a FUNCT code (R120). -/
def rmodeOf (funct : Nat) (seed : W64) (sq : BitVec 32) (elem : Nat) : RMode :=
  match funct with
  | 0 => .rne
  | 1 => .rz
  | 2 => .ru
  | 3 => .rd
  | _ => .stoch (stochBits seed sq elem)

end Sys2Proof.Machine
end

