-- ==== Sys2Proof/WellFormed.lean ====
section
/-!
DEFINITION. Well-formed instructions: the coded fields hold values that R117–R125 and the form's own rule allow. An encoded word
whose fields fail these checks is an illegal instruction (R128). Operand values outside limits (a tile past a191, an odd
pair register) are not decode failures: the meanings raise their own faults.
-/

namespace Sys2Proof

namespace ScalarOp

/-- UNIT names one of the three scalar ALUs (R117). -/
def unitOk (o : ScalarOp) : Bool := o.unit != 3#2

/-- Three-operand form with FUNCT zero (R191). -/
def wfPlain (o : ScalarOp) : Bool := o.unitOk && o.funct == 0#3

/-- Form that reads only a: B, L and FUNCT zero (R191). -/
def wfUnary (o : ScalarOp) : Bool := o.wfPlain && o.b == 0#5 && o.l == 0#1

/-- Form with FUNCT at most `n` (R120). -/
def wfFunct (n : Nat) (o : ScalarOp) : Bool := o.unitOk && decide (o.funct.toNat ≤ n)

/-- A literal in a control form is a 32-bit pool word (R199). -/
def wfOffset (o : ScalarOp) : Bool := o.l == 1#1 && o.b.extractLsb' 4 1 == 0#1

end ScalarOp

namespace VecOp

/-- UNIT names one of columns e0–e5 (R121). -/
def unitOk (o : VecOp) : Bool := decide (o.unit.toNat ≤ 5)

/-- A literal reference keeps B[4] zero (R121). -/
def litOk (o : VecOp) : Bool := o.l == 0#1 || o.b.extractLsb' 4 1 == 0#1

/-- Form with operand b and TYPE in `ts` (R228). -/
def wfB (ts : List Nat) (o : VecOp) : Bool := o.unitOk && o.litOk && ts.contains o.ty.toNat

/-- Form whose B and L are zero and TYPE in `ts` (R228). -/
def wfUnary (ts : List Nat) (o : VecOp) : Bool :=
  o.unitOk && o.l == 0#1 && o.b == 0#5 && ts.contains o.ty.toNat

/-- Form whose B is a code at most `n`, L zero (R239–R241). -/
def wfCode (ts : List Nat) (n : Nat) (o : VecOp) : Bool :=
  o.unitOk && o.l == 0#1 && decide (o.b.toNat ≤ n) && ts.contains o.ty.toNat

/-- Compare: D[4:3] zero (R233). -/
def wfCmp (ts : List Nat) (o : VecOp) : Bool := o.wfB ts && o.d.extractLsb' 3 2 == 0#2

/-- `vcvt`: TYPE carries the rounding mode; a conversion that never rounds takes mode 0 (R236). -/
def wfCvt (o : VecOp) : Bool :=
  o.unitOk && o.l == 0#1 && decide (o.b.toNat ≤ 18) &&
    (if [0, 1, 2, 3, 6, 7].contains o.b.toNat then decide (o.ty.toNat ≤ 4) else o.ty == 0#3)

end VecOp

/-- XF function form (R243). -/
def XfOp.wfFun (o : XfOp) : Bool := o.ty != 3#2 && o.b == 0#5 && o.c1 == 0#3 && o.c2 == 0#3

/-- Well-formedness of an instruction (R125, R128). Events carry no encoding and are always well formed. -/
def Instr.wf : Instr → Bool
  | .add o => o.wfPlain
  | .sub o => o.wfPlain
  | .mul o => o.wfPlain
  | .mulh o => o.wfPlain
  | .mulhn o => o.wfPlain
  | .div o => o.wfPlain
  | .divn o => o.wfPlain
  | .rem o => o.wfPlain
  | .remn o => o.wfPlain
  | .and o => o.wfPlain
  | .or o => o.wfPlain
  | .xor o => o.wfPlain
  | .andn o => o.wfPlain
  | .shl o => o.wfPlain
  | .shr o => o.wfPlain
  | .sra o => o.wfPlain
  | .rot o => o.wfPlain
  | .clz o => o.wfUnary
  | .popc o => o.wfUnary
  | .min o => o.wfPlain
  | .max o => o.wfPlain
  | .minn o => o.wfPlain
  | .maxn o => o.wfPlain
  | .sext o => o.wfFunct 2 && o.b == 0#5 && o.l == 0#1
  | .zext o => o.wfFunct 2 && o.b == 0#5 && o.l == 0#1
  | .bfx o => o.wfFunct 1
  | .bfi o => o.wfPlain
  | .lea o => o.wfFunct 3
  | .mov o => o.wfUnary
  | .movl o => o.wfPlain && o.a == 0#5 && o.l == 1#1
  | .sel o => o.unitOk
  | .cmp o => o.wfFunct 5 && o.d.extractLsb' 3 1 == 0#1 && (o.d.extractLsb' 4 1 == 0#1 || decide (2 ≤ o.funct.toNat))
  | .fadd o => o.wfFunct 4
  | .fsub o => o.wfFunct 4
  | .fmul o => o.wfFunct 4
  | .ffma o => o.wfFunct 4
  | .fmin o => o.wfPlain
  | .fmax o => o.wfPlain
  | .fcmp o => o.wfFunct 5 && o.d.extractLsb' 3 2 == 0#2
  | .fcvt o => o.wfFunct 4 && o.l == 0#1 && decide (o.b.toNat ≤ 9)
  | .lix o => o.wfFunct 5 && o.a == 0#5 && o.b == 0#5 && o.l == 0#1
  | .br o => o.wfPlain && o.d == 0#5 && o.a == 0#5 && o.wfOffset
  | .bc o => o.wfFunct 5 && o.d.extractLsb' 1 4 == 0#4 && o.wfOffset
  | .jmp o => o.wfUnary && o.d == 0#5
  | .callRelative o => o.wfPlain && o.d == 0#5 && o.a == 0#5 && o.wfOffset
  | .callRegister o => o.unitOk && o.funct == 1#3 && o.d == 0#5 && o.b == 0#5 && o.l == 0#1
  | .ret o => o.wfUnary && o.d == 0#5 && o.a == 0#5
  | .loop o => o.unitOk && o.d == 0#5 && o.wfOffset
  | .loopx o => o.wfFunct 5 && o.d == 0#5 && o.a == 0#5 && o.b == 0#5 && o.l == 0#1
  | .vadd o => o.wfB [0, 1, 2, 3, 4, 5, 6]
  | .vsub o => o.wfB [0, 1, 2, 3, 4, 5, 6]
  | .vmul o => o.wfB [0, 1, 2, 3, 4, 5, 6]
  | .vmulh o => o.wfB [3, 4, 5, 6]
  | .vfma o => o.wfB [0, 1, 2]
  | .vfms o => o.wfB [0, 1, 2]
  | .vfnma o => o.wfB [0, 1, 2]
  | .vmin o => o.wfB [0, 1, 2, 3, 4, 5, 6]
  | .vmax o => o.wfB [0, 1, 2, 3, 4, 5, 6]
  | .vabs o => o.wfUnary [0, 1, 2, 3, 4, 5, 6]
  | .vneg o => o.wfUnary [0, 1, 2, 3, 4, 5, 6]
  | .vclamp o => o.wfB [0, 1, 2, 3, 4, 5, 6]
  | .vceq o => o.wfCmp [0, 1, 2, 3, 4, 5, 6, 7]
  | .vcne o => o.wfCmp [0, 1, 2, 3, 4, 5, 6, 7]
  | .vclt o => o.wfCmp [0, 1, 2, 3, 4, 5, 6]
  | .vcle o => o.wfCmp [0, 1, 2, 3, 4, 5, 6]
  | .vsel o => o.wfB [0, 1, 2, 3, 4, 5, 6, 7]
  | .vand o => o.wfB [0, 1, 2, 3, 4, 5, 6, 7]
  | .vor o => o.wfB [0, 1, 2, 3, 4, 5, 6, 7]
  | .vxor o => o.wfB [0, 1, 2, 3, 4, 5, 6, 7]
  | .vnot o => o.wfUnary [0, 1, 2, 3, 4, 5, 6, 7]
  | .vshl o => o.wfB [3, 4, 5, 6, 7]
  | .vshr o => o.wfB [3, 4, 5, 6, 7]
  | .vsra o => o.wfB [3, 4, 5]
  | .vcvt o => o.wfCvt
  | .vmov o => o.wfUnary [0, 1, 2, 3, 4, 5, 6, 7]
  | .vsplat o => o.wfB [0, 1, 2, 3, 4, 5, 6, 7] && o.a == 0#5
  | .vperm o => o.wfB [0, 1, 2, 3, 4, 5, 6, 7]
  | .vrot o => o.wfB [0, 1, 2, 3, 4, 5, 6, 7]
  | .vdot o => o.wfB [0, 1, 2, 3, 4, 5, 6, 7]
  | .vred o => o.wfCode [0, 1, 2, 3, 4] 2
  | .vscan o => o.wfCode [0, 3] 2
  | .vdraw o => o.unitOk && o.l == 0#1 && decide (o.ty.toNat ≤ 2)
  | .vquant o => o.wfCode [0, 1, 2] 2
  | .vdeq o => o.wfCode [0, 1, 2] 2
  | .xexp2 o => o.wfFun
  | .xlog2 o => o.wfFun
  | .xrcp o => o.wfFun
  | .xrsq o => o.wfFun
  | .xsqrt o => o.wfFun
  | .xtanh o => o.wfFun
  | .xsig o => o.wfFun
  | .xsin o => o.wfFun
  | .xcos o => o.wfFun
  | .xfer o => o.b == 0#5 && o.c2 == 0#3
  | .xbcast o => o.b == 0#5 && o.c2 == 0#3
  | .xred o => o.ty == 0#2 && decide (o.b.toNat ≤ 2) && o.c1 == 0#3 && o.c2 == 0#3
  | .xdraw o => o.ty == 0#2 && o.c2 == 0#3
  | .trow o => o.esize != 3#2
  | .tcol o => o.esize != 3#2
  | .tclr o => o.v == 0#5 && o.idx == 0#5 && o.esize == 0#2
  | .tmode o => o.v == 0#5 && o.idx == 0#5 && o.esize != 3#2
  | .mpush _ => true
  | .mpushT _ => true
  | .mmac _ => true
  | .mmacF o => o.fmt == 0#6
  | .mprom _ => true
  | .mclr _ => true
  | .mrd _ => true
  | .mwr _ => true
  | .mfmt _ _ => true
  | .mfsel level _ => decide (level.toNat ≤ 5)
  | .mscq _ => true
  | .ld o => (o.size != 3#2 || o.sx == 0#1) && (o.il == 0#1 || o.tap == 0#6)
  | .ldg o => o.size != 3#2 || o.sx == 0#1
  | .vld o => o.il == 0#1 || o.tap == 0#6
  | .vlds _ => true
  | .vgat _ => true
  | .ldsc _ => true
  | .st o => o.il == 0#1 || o.tap == 0#6
  | .stg _ => true
  | .vst o => o.il == 0#1 || o.tap == 0#6
  | .vsts _ => true
  | .vsct _ => true
  | .aadd o => o.n == 0#1
  | .amin _ => true
  | .amax _ => true
  | .axchg o => o.n == 0#1
  | .acas o => o.n == 0#1
  | .aand o => o.n == 0#1
  | .aor o => o.n == 0#1
  | .axor o => o.n == 0#1
  | .fence scope => decide (scope.toNat ≤ 4)
  | .cpy o => o.h == 1#1 || o.handle == 0#6
  | .cpyb o => o.h == 1#1 || o.handle == 0#6
  | .bxfer o => o.h == 1#1 || o.handle == 0#6
  | .bxfer2 o => o.h == 1#1 || o.handle == 0#6
  | .hset o => o.wb == 1#1 || o.c == 0#5
  | .hwait _ => true
  | .hrel _ => true
  | .hprobe o => decide (o.cond.toNat ≤ 5)
  | .ccall _ => true
  | .ctrig _ => true
  | .ckpt _ => true
  | .anchor => true
  | .endOp => true
  | .barInit o => o.nw == 0#1
  | .barArrive o => o.b == 0#5
  | .barWait _ => true
  | .barFini o => o.b == 0#5 && o.nw == 0#1
  | .clk _ => true
  | .waitc _ _ => true
  | .wfar => true
  | .belayBegin => true
  | .belayBeginPitch _ _ => true
  | .belayKeepS _ => true
  | .belayKeepV _ => true
  | .belayKeepA _ => true
  | .belayEnd => true
  | .cmpt _ => true
  | .ilock _ _ => true
  | .iunlock _ _ => true
  | .ipref _ _ => true
  | .trap _ => true
  | .sys _ => true
  | .eret => true
  | .csrr o => o.a == 0#5
  | .csrw _ => true
  | .csrs _ => true
  | .csrc _ => true
  | .yield => true
  | .wfi => true
  | .bist _ => true
  | .hold => true
  | .timedDispatchRelease _ _ => true
  | .matrixQueueStart _ => true
  | .loopIterationBoundary _ => true
  | .instructionStoreSlip _ => true
  | .instructionFetchComplete _ _ => true
  | .resultLanding _ _ => true
  | .tileRowLanding _ _ => true
  | .trapHandlerEntry _ => true
  | .watchdogExpiry _ => true
  | .loadTap _ _ => true
  | .storeBankWrite _ _ _ => true
  | .scratchpadAtomicRead _ _ => true
  | .scratchpadAtomicWrite _ _ => true
  | .barAccessRead _ _ => true
  | .barAccessWrite _ _ => true
  | .interlockedAccessPerform _ _ => true
  | .slotTableInstall _ _ _ => true
  | .slotTableSwap _ => true
  | .memoryPortTableInstall _ _ _ => true
  | .memoryPortTableSwap _ => true
  | .memoryPortAccess _ _ => true
  | .translationWalkComplete _ _ => true
  | .tbinvPage _ => true
  | .tbinvAsid _ => true
  | .tbinvAll _ => true
  | .tbinvComplete _ => true
  | .farRequestSend _ _ => true
  | .farAccessHomeService _ _ => true
  | .globalAtomicHomeService _ _ => true
  | .farResponseArrival _ _ => true
  | .transferBegin _ _ => true
  | .ceReadBeat _ _ => true
  | .ceOffcoreReadReturn _ _ _ => true
  | .ceWriteBeat _ _ _ => true
  | .ceOffcoreWritePerform _ _ _ => true
  | .writeBackBegin _ _ => true
  | .cefinfoClear _ => true
  | .portBeat _ _ => true
  | .detectedErrorRollback _ => true
  | .rollbackRestore _ => true
  | .regionRestart _ => true
  | .bistComplete _ => true
  | .preemptionLanding _ => true
  | .contextSaveComplete _ => true
  | .preemptionReport _ _ => true
  | .contextRestore _ => true
  | .coreRetirement _ => true
  | .retirementReport _ _ => true
  | .packetLaunch _ _ => true
  | .packetBulkCopy _ _ => true
  | .packetWaitOnValue _ _ => true
  | .packetSignal _ _ => true
  | .packetTimetableInstall _ _ => true
  | .packetTimetableRemove _ _ => true
  | .packetCheckpointSave _ _ => true
  | .packetCheckpointRestore _ _ => true
  | .packetMapQuery _ _ => true
  | .packetInvalid _ _ => true
  | .waitValuePoll _ _ => true
  | .packetComplete _ _ => true
  | .launchSelection => true
  | .queueAging _ => true
  | .launchRecord _ => true
  | .retirementRecord _ => true
  | .preemptionRecord _ => true
  | .mapRecord _ => true
  | .heldTriggerPerform _ => true
  | .queueTableWrite _ _ => true
  | .queueSwitchOut _ => true
  | .queueSwitchIn _ => true
  | .queueReset _ => true
  | .hostWindowDescriptorWrite _ _ _ _ _ => true
  | .postedWrite _ _ _ _ => true
  | .readRequest _ _ _ => true
  | .readCompletion _ _ _ _ => true
  | .queueDoorbell _ _ _ => true
  | .configurationRead _ _ => true
  | .refusedTransaction _ => true
  | .hostLinkTraining _ => true
  | .objectUpload _ _ _ => true
  | .healthSample _ _ _ => true
  | .unitRetest _ _ _ => true
  | .mapPublication _ => true
  | .timetableRevalidation _ => true
  | .ccallRequest _ => true
  | .timetableReservation _ _ => true
  | .timetableAcceptance _ _ => true
  | .timetableCommit _ _ => true
  | .timetableAcceptDeadline _ => true
  | .timetableInstanceStart _ => true
  | .timetableEntryStart _ _ => true
  | .timetableEntryCombine _ _ => true
  | .timetableInstanceEnd _ => true
  | .triggerArm _ _ => true
  | .linkTimeout _ => true
  | .switchTimeout _ => true
  | .groupTimeout _ => true
  | .linkStateUpdate _ _ _ => true
  | .drainRoundEnd _ => true
  | .memberFailureRecord _ _ => true
  | .checkpointReadback _ => true
  | .reset _ => true
  | .laneRecentre _ _ => true
  | .thermalTrip _ => true
  | .lifecycleTransition _ => true
  | .tenantReassignment _ _ _ => true
  | .quoteRequest _ => true
  | .vmarginWrite _ _ => true
  | .vmarginSettled _ => true
  | .linkmarginScanStart _ _ => true
  | .linkmarginScanDone _ => true
  | .wfiWakeRequest _ => true
  | .storageBitFlip _ _ => true
  | .idleFlit _ => true
  | .streamRecovery => true

end Sys2Proof
end

