-- ==== Sys2Proof/Decode.lean ====
section
/-!
DEFINITION. The decoder of slot words (R117–R127, and each form's own layout) and, after it, the encoder written from
the same layouts. The decoder is total: every 32-bit word in every slot answers an instruction or a named failure.
-/

namespace Sys2Proof

/-- Why a slot word is not an instruction (R128): each is the illegal-instruction fault of its slot. -/
inductive DecodeError where
  /-- opcode 0 or beyond the slot's last opcode (R126) -/
  | opcode
  /-- a control form outside SA (R127) -/
  | controlOutsideSa
  /-- a bit the layout marks zero is set (R125) -/
  | reservedBits
  /-- a coded field holds a reserved value (R128) -/
  | reservedField
  deriving DecidableEq, Repr

/-- Bits [h:l] of a word as a natural (R9). -/
def bitsNat {n : Nat} (w : BitVec n) (h l : Nat) : Nat := (w.toNat / 2 ^ l) % 2 ^ (h + 1 - l)

/-- Field of `n` bits at bit `l` of a slot word. -/
def fld (w : W32) (l n : Nat) : BitVec n := w.extractLsb' l n

/-- The ScalarOp fields of a slot word. -/
def ScalarOp.ofWord (w : W32) : ScalarOp :=
  { unit := fld w 22 2, d := fld w 17 5, a := fld w 12 5, b := fld w 7 5, l := fld w 6 1, guard := fld w 3 3, funct := fld w 0 3 }

/-- The VecOp fields of a slot word. -/
def VecOp.ofWord (w : W32) : VecOp :=
  { ty := fld w 22 3, unit := fld w 19 3, d := fld w 14 5, a := fld w 9 5, b := fld w 4 5, l := fld w 3 1, q := fld w 0 3 }

/-- The XfOp fields of a slot word. -/
def XfOp.ofWord (w : W32) : XfOp :=
  { ty := fld w 24 2, d := fld w 19 5, a := fld w 14 5, b := fld w 9 5, c1 := fld w 6 3, c2 := fld w 3 3, q := fld w 0 3 }

/-- The XtOp fields of a slot word. -/
def XtOp.ofWord (w : W32) : XtOp :=
  { v := fld w 23 5, idx := fld w 18 5, esize := fld w 16 2 }

/-- The MpushOp fields of a slot word. -/
def MpushOp.ofWord (w : W32) : MpushOp :=
  { row := fld w 19 7, a := fld w 13 5, c := fld w 10 3 }

/-- The MpushTOp fields of a slot word. -/
def MpushTOp.ofWord (w : W32) : MpushTOp :=
  { row := fld w 19 7, col := fld w 14 4, c := fld w 10 3 }

/-- The MmacOp fields of a slot word. -/
def MmacOp.ofWord (w : W32) : MmacOp :=
  { tile := fld w 18 8, mm1 := fld w 11 7, fmt := fld w 4 6, cs := fld w 0 4 }

/-- The MclrOp fields of a slot word. -/
def MclrOp.ofWord (w : W32) : MclrOp :=
  { tile := fld w 18 8, nm1 := fld w 15 3 }

/-- The MrowOp fields of a slot word. -/
def MrowOp.ofWord (w : W32) : MrowOp :=
  { v := fld w 21 5, tile := fld w 13 8, row := fld w 6 7, c := fld w 3 3, i := fld w 2 1 }

/-- The LdOp fields of a slot word. -/
def LdOp.ofWord (w : W32) : LdOp :=
  { d := fld w 21 5, a := fld w 16 5, lane := fld w 12 4, tap := fld w 6 6, size := fld w 4 2, sx := fld w 3 1, il := fld w 2 1 }

/-- The LdgOp fields of a slot word. -/
def LdgOp.ofWord (w : W32) : LdgOp :=
  { d := fld w 21 5, a := fld w 16 5, size := fld w 4 2, sx := fld w 3 1 }

/-- The VldOp fields of a slot word. -/
def VldOp.ofWord (w : W32) : VldOp :=
  { d := fld w 21 5, a := fld w 16 5, lane := fld w 12 4, tap := fld w 6 6, c := fld w 3 3, il := fld w 2 1, h := fld w 1 1 }

/-- The VmaskOp fields of a slot word. -/
def VmaskOp.ofWord (w : W32) : VmaskOp :=
  { v := fld w 21 5, a := fld w 16 5, lane := fld w 12 4, tap := fld w 6 6, c := fld w 3 3, q := fld w 0 3 }

/-- The VwinOp fields of a slot word. -/
def VwinOp.ofWord (w : W32) : VwinOp :=
  { v := fld w 21 5, a := fld w 16 5, lane := fld w 12 4, tap := fld w 6 6, c := fld w 3 3 }

/-- The LdscOp fields of a slot word. -/
def LdscOp.ofWord (w : W32) : LdscOp :=
  { a := fld w 16 5, lane := fld w 12 4, tap := fld w 6 6 }

/-- The StOp fields of a slot word. -/
def StOp.ofWord (w : W32) : StOp :=
  { s := fld w 21 5, a := fld w 16 5, lane := fld w 12 4, tap := fld w 6 6, size := fld w 4 2, g := fld w 3 1, il := fld w 2 1 }

/-- The StgOp fields of a slot word. -/
def StgOp.ofWord (w : W32) : StgOp :=
  { s := fld w 21 5, a := fld w 16 5, size := fld w 4 2, g := fld w 3 1 }

/-- The VstOp fields of a slot word. -/
def VstOp.ofWord (w : W32) : VstOp :=
  { s := fld w 21 5, a := fld w 16 5, lane := fld w 12 4, tap := fld w 6 6, c := fld w 3 3, il := fld w 2 1, g := fld w 1 1 }

/-- The AtomOp fields of a slot word. -/
def AtomOp.ofWord (w : W32) : AtomOp :=
  { d := fld w 21 5, a := fld w 16 5, lane := fld w 12 4, tap := fld w 6 6, s := fld w 1 5, n := fld w 0 1 }

/-- The XferOp fields of a slot word. -/
def XferOp.ofWord (w : W32) : XferOp :=
  { e := fld w 25 1, x := fld w 20 5, h := fld w 19 1, handle := fld w 13 6 }

/-- The HsetOp fields of a slot word. -/
def HsetOp.ofWord (w : W32) : HsetOp :=
  { handle := fld w 20 6, a := fld w 15 5, b := fld w 10 5, wb := fld w 9 1, c := fld w 4 5 }

/-- The HprobeOp fields of a slot word. -/
def HprobeOp.ofWord (w : W32) : HprobeOp :=
  { handle := fld w 20 6, p := fld w 17 3, cond := fld w 14 3 }

/-- The CollOp fields of a slot word. -/
def CollOp.ofWord (w : W32) : CollOp :=
  { d := fld w 21 5, a := fld w 16 5, b := fld w 11 5 }

/-- The BarOp fields of a slot word. -/
def BarOp.ofWord (w : W32) : BarOp :=
  { a := fld w 21 5, b := fld w 16 5, lane := fld w 12 4, tap := fld w 6 6, nw := fld w 5 1 }

/-- The KeepAOp fields of a slot word. -/
def KeepAOp.ofWord (w : W32) : KeepAOp :=
  { tile := fld w 16 8, nm1 := fld w 12 4 }

/-- The CmptOp fields of a slot word. -/
def CmptOp.ofWord (w : W32) : CmptOp :=
  { v := fld w 25 1, a := fld w 20 5, b := fld w 15 5 }

/-- The CsrOp fields of a slot word. -/
def CsrOp.ofWord (w : W32) : CsrOp :=
  { d := fld w 21 5, a := fld w 16 5, num := fld w 4 12 }

/-- The Scalar column of the opcode map (R126). -/
def ctorScalar (w : W32) : Option Instr :=
  match (fld w 24 8).toNat with
  | 1 => some (.add (.ofWord w))
  | 2 => some (.sub (.ofWord w))
  | 3 => some (.mul (.ofWord w))
  | 4 => some (.mulh (.ofWord w))
  | 5 => some (.mulhn (.ofWord w))
  | 6 => some (.div (.ofWord w))
  | 7 => some (.divn (.ofWord w))
  | 8 => some (.rem (.ofWord w))
  | 9 => some (.remn (.ofWord w))
  | 10 => some (.and (.ofWord w))
  | 11 => some (.or (.ofWord w))
  | 12 => some (.xor (.ofWord w))
  | 13 => some (.andn (.ofWord w))
  | 14 => some (.shl (.ofWord w))
  | 15 => some (.shr (.ofWord w))
  | 16 => some (.sra (.ofWord w))
  | 17 => some (.rot (.ofWord w))
  | 18 => some (.clz (.ofWord w))
  | 19 => some (.popc (.ofWord w))
  | 20 => some (.min (.ofWord w))
  | 21 => some (.max (.ofWord w))
  | 22 => some (.minn (.ofWord w))
  | 23 => some (.maxn (.ofWord w))
  | 24 => some (.sext (.ofWord w))
  | 25 => some (.zext (.ofWord w))
  | 26 => some (.bfx (.ofWord w))
  | 27 => some (.bfi (.ofWord w))
  | 28 => some (.lea (.ofWord w))
  | 29 => some (.mov (.ofWord w))
  | 30 => some (.movl (.ofWord w))
  | 31 => some (.sel (.ofWord w))
  | 32 => some (.cmp (.ofWord w))
  | 33 => some (.fadd (.ofWord w))
  | 34 => some (.fsub (.ofWord w))
  | 35 => some (.fmul (.ofWord w))
  | 36 => some (.ffma (.ofWord w))
  | 37 => some (.fmin (.ofWord w))
  | 38 => some (.fmax (.ofWord w))
  | 39 => some (.fcmp (.ofWord w))
  | 40 => some (.fcvt (.ofWord w))
  | 41 => some (.lix (.ofWord w))
  | 42 => some (.br (.ofWord w))
  | 43 => some (.bc (.ofWord w))
  | 44 => some (.jmp (.ofWord w))
  | 45 => if fld w 0 3 == 1#3 then some (.callRegister (.ofWord w)) else some (.callRelative (.ofWord w))
  | 46 => some (.ret (.ofWord w))
  | 47 => some (.loop (.ofWord w))
  | 48 => some (.loopx (.ofWord w))
  | _ => none

/-- The Vector column of the opcode map (R126). -/
def ctorVector (w : W32) : Option Instr :=
  match (fld w 25 7).toNat with
  | 1 => some (.vadd (.ofWord w))
  | 2 => some (.vsub (.ofWord w))
  | 3 => some (.vmul (.ofWord w))
  | 4 => some (.vmulh (.ofWord w))
  | 5 => some (.vfma (.ofWord w))
  | 6 => some (.vfms (.ofWord w))
  | 7 => some (.vfnma (.ofWord w))
  | 8 => some (.vmin (.ofWord w))
  | 9 => some (.vmax (.ofWord w))
  | 10 => some (.vabs (.ofWord w))
  | 11 => some (.vneg (.ofWord w))
  | 12 => some (.vclamp (.ofWord w))
  | 13 => some (.vceq (.ofWord w))
  | 14 => some (.vcne (.ofWord w))
  | 15 => some (.vclt (.ofWord w))
  | 16 => some (.vcle (.ofWord w))
  | 17 => some (.vsel (.ofWord w))
  | 18 => some (.vand (.ofWord w))
  | 19 => some (.vor (.ofWord w))
  | 20 => some (.vxor (.ofWord w))
  | 21 => some (.vnot (.ofWord w))
  | 22 => some (.vshl (.ofWord w))
  | 23 => some (.vshr (.ofWord w))
  | 24 => some (.vsra (.ofWord w))
  | 25 => some (.vcvt (.ofWord w))
  | 26 => some (.vmov (.ofWord w))
  | 27 => some (.vsplat (.ofWord w))
  | 28 => some (.vperm (.ofWord w))
  | 29 => some (.vrot (.ofWord w))
  | 30 => some (.vdot (.ofWord w))
  | 31 => some (.vred (.ofWord w))
  | 32 => some (.vscan (.ofWord w))
  | 33 => some (.vdraw (.ofWord w))
  | 34 => some (.vquant (.ofWord w))
  | 35 => some (.vdeq (.ofWord w))
  | _ => none

/-- The Xf column of the opcode map (R126). -/
def ctorXf (w : W32) : Option Instr :=
  match (fld w 26 6).toNat with
  | 1 => some (.xexp2 (.ofWord w))
  | 2 => some (.xlog2 (.ofWord w))
  | 3 => some (.xrcp (.ofWord w))
  | 4 => some (.xrsq (.ofWord w))
  | 5 => some (.xsqrt (.ofWord w))
  | 6 => some (.xtanh (.ofWord w))
  | 7 => some (.xsig (.ofWord w))
  | 8 => some (.xsin (.ofWord w))
  | 9 => some (.xcos (.ofWord w))
  | 10 => some (.xfer (.ofWord w))
  | 11 => some (.xbcast (.ofWord w))
  | 12 => some (.xred (.ofWord w))
  | 13 => some (.xdraw (.ofWord w))
  | _ => none

/-- The Xt column of the opcode map (R126). -/
def ctorXt (w : W32) : Option Instr :=
  match (fld w 28 4).toNat with
  | 1 => some (.trow (.ofWord w))
  | 2 => some (.tcol (.ofWord w))
  | 3 => some (.tclr (.ofWord w))
  | 4 => some (.tmode (.ofWord w))
  | _ => none

/-- The Mx column of the opcode map (R126). -/
def ctorMx (w : W32) : Option Instr :=
  match (fld w 26 6).toNat with
  | 1 => if fld w 18 1 == 1#1 then some (.mpushT (.ofWord w)) else some (.mpush (.ofWord w))
  | 2 => if fld w 10 1 == 1#1 then some (.mmacF (.ofWord w)) else some (.mmac (.ofWord w))
  | 3 => some (.mprom (fld w 25 1))
  | 4 => some (.mclr (.ofWord w))
  | 5 => some (.mrd (.ofWord w))
  | 6 => some (.mwr (.ofWord w))
  | 7 => some (.mfmt (fld w 20 6) (fld w 15 5))
  | 8 => some (.mfsel (fld w 23 3) (fld w 17 6))
  | 9 => some (.mscq (fld w 20 6))
  | _ => none

/-- The Ld column of the opcode map (R126). -/
def ctorLd (w : W32) : Option Instr :=
  match (fld w 26 6).toNat with
  | 1 => some (.ld (.ofWord w))
  | 2 => some (.ldg (.ofWord w))
  | 3 => some (.vld (.ofWord w))
  | 4 => some (.vlds (.ofWord w))
  | 5 => some (.vgat (.ofWord w))
  | 6 => some (.ldsc (.ofWord w))
  | _ => none

/-- The St column of the opcode map (R126). -/
def ctorSt (w : W32) : Option Instr :=
  match (fld w 26 6).toNat with
  | 1 => some (.st (.ofWord w))
  | 2 => some (.stg (.ofWord w))
  | 3 => some (.vst (.ofWord w))
  | 4 => some (.vsts (.ofWord w))
  | 5 => some (.vsct (.ofWord w))
  | 6 => some (.aadd (.ofWord w))
  | 7 => some (.amin (.ofWord w))
  | 8 => some (.amax (.ofWord w))
  | 9 => some (.axchg (.ofWord w))
  | 10 => some (.acas (.ofWord w))
  | 11 => some (.aand (.ofWord w))
  | 12 => some (.aor (.ofWord w))
  | 13 => some (.axor (.ofWord w))
  | 14 => some (.fence (fld w 23 3))
  | _ => none

/-- The Ce column of the opcode map (R126). -/
def ctorCe (w : W32) : Option Instr :=
  match (fld w 26 6).toNat with
  | 1 => some (.cpy (.ofWord w))
  | 2 => some (.cpyb (.ofWord w))
  | 3 => some (.bxfer (.ofWord w))
  | 4 => some (.bxfer2 (.ofWord w))
  | 5 => some (.hset (.ofWord w))
  | 6 => some (.hwait (fld w 20 6))
  | 7 => some (.hrel (fld w 20 6))
  | 8 => some (.hprobe (.ofWord w))
  | 9 => some (.ccall (.ofWord w))
  | 10 => some (.ctrig (.ofWord w))
  | 11 => some (.ckpt (.ofWord w))
  | _ => none

/-- The Sy column of the opcode map (R126). -/
def ctorSy (w : W32) : Option Instr :=
  match (fld w 26 6).toNat with
  | 1 => some (.anchor)
  | 2 => some (.endOp)
  | 3 => some (.barInit (.ofWord w))
  | 4 => some (.barArrive (.ofWord w))
  | 5 => some (.barWait (fld w 21 5))
  | 6 => some (.barFini (.ofWord w))
  | 7 => some (.clk (fld w 21 5))
  | 8 => some (.waitc (fld w 21 5) (fld w 18 3))
  | 9 => some (.wfar)
  | 10 => if fld w 25 1 == 1#1 then some (.belayBeginPitch (fld w 19 6) (fld w 13 6)) else some .belayBegin
  | 11 => match (fld w 24 2).toNat with
    | 0 => some (.belayKeepS (fld w 20 4))
    | 1 => some (.belayKeepV (fld w 20 4))
    | 2 => some (.belayKeepA (.ofWord w))
    | _ => none
  | 12 => some (.belayEnd)
  | 13 => some (.cmpt (.ofWord w))
  | 14 => some (.ilock (fld w 21 5) (fld w 16 5))
  | 15 => some (.iunlock (fld w 21 5) (fld w 16 5))
  | 16 => some (.ipref (fld w 21 5) (fld w 16 5))
  | 17 => some (.trap (fld w 0 16))
  | 18 => some (.sys (fld w 0 16))
  | 19 => some (.eret)
  | 20 => some (.csrr (.ofWord w))
  | 21 => some (.csrw (.ofWord w))
  | 22 => some (.csrs (.ofWord w))
  | 23 => some (.csrc (.ofWord w))
  | 24 => some (.yield)
  | 25 => some (.wfi)
  | 26 => some (.bist (fld w 21 5))
  | _ => none

/-! ### The encoder -/

/-- The word of a ScalarOp with its opcode. -/
def packScalar (op : BitVec 8) (o : ScalarOp) : W32 :=
  op ++ o.unit ++ o.d ++ o.a ++ o.b ++ o.l ++ o.guard ++ o.funct

/-- The word of a VecOp with its opcode. -/
def packVector (op : BitVec 7) (o : VecOp) : W32 :=
  op ++ o.ty ++ o.unit ++ o.d ++ o.a ++ o.b ++ o.l ++ o.q

/-- The word of a XfOp with its opcode. -/
def packXf (op : BitVec 6) (o : XfOp) : W32 :=
  op ++ o.ty ++ o.d ++ o.a ++ o.b ++ o.c1 ++ o.c2 ++ o.q

/-- The word of a XtOp with its opcode. -/
def packXt (op : BitVec 4) (o : XtOp) : W32 :=
  op ++ o.v ++ o.idx ++ o.esize ++ 0#16

/-- The word of a AtomOp with its opcode. -/
def packAtom (op : BitVec 6) (o : AtomOp) : W32 :=
  op ++ o.d ++ o.a ++ o.lane ++ o.tap ++ o.s ++ o.n

/-- The word of a XferOp with its opcode. -/
def packXfer (op : BitVec 6) (o : XferOp) : W32 :=
  op ++ o.e ++ o.x ++ o.h ++ o.handle ++ 0#13

/-- The word of a CollOp with its opcode. -/
def packColl (op : BitVec 6) (o : CollOp) : W32 :=
  op ++ o.d ++ o.a ++ o.b ++ 0#11

/-- The word of a CsrOp with its opcode. -/
def packCsr (op : BitVec 6) (o : CsrOp) : W32 :=
  op ++ o.d ++ o.a ++ o.num ++ 0#4

/-- The 32-bit word of an instruction; events have none and answer zero. -/
def encode : Instr → W32
  | .add o => packScalar 1#8 o
  | .sub o => packScalar 2#8 o
  | .mul o => packScalar 3#8 o
  | .mulh o => packScalar 4#8 o
  | .mulhn o => packScalar 5#8 o
  | .div o => packScalar 6#8 o
  | .divn o => packScalar 7#8 o
  | .rem o => packScalar 8#8 o
  | .remn o => packScalar 9#8 o
  | .and o => packScalar 10#8 o
  | .or o => packScalar 11#8 o
  | .xor o => packScalar 12#8 o
  | .andn o => packScalar 13#8 o
  | .shl o => packScalar 14#8 o
  | .shr o => packScalar 15#8 o
  | .sra o => packScalar 16#8 o
  | .rot o => packScalar 17#8 o
  | .clz o => packScalar 18#8 o
  | .popc o => packScalar 19#8 o
  | .min o => packScalar 20#8 o
  | .max o => packScalar 21#8 o
  | .minn o => packScalar 22#8 o
  | .maxn o => packScalar 23#8 o
  | .sext o => packScalar 24#8 o
  | .zext o => packScalar 25#8 o
  | .bfx o => packScalar 26#8 o
  | .bfi o => packScalar 27#8 o
  | .lea o => packScalar 28#8 o
  | .mov o => packScalar 29#8 o
  | .movl o => packScalar 30#8 o
  | .sel o => packScalar 31#8 o
  | .cmp o => packScalar 32#8 o
  | .fadd o => packScalar 33#8 o
  | .fsub o => packScalar 34#8 o
  | .fmul o => packScalar 35#8 o
  | .ffma o => packScalar 36#8 o
  | .fmin o => packScalar 37#8 o
  | .fmax o => packScalar 38#8 o
  | .fcmp o => packScalar 39#8 o
  | .fcvt o => packScalar 40#8 o
  | .lix o => packScalar 41#8 o
  | .br o => packScalar 42#8 o
  | .bc o => packScalar 43#8 o
  | .jmp o => packScalar 44#8 o
  | .callRelative o => packScalar 45#8 o
  | .callRegister o => packScalar 45#8 o
  | .ret o => packScalar 46#8 o
  | .loop o => packScalar 47#8 o
  | .loopx o => packScalar 48#8 o
  | .vadd o => packVector 1#7 o
  | .vsub o => packVector 2#7 o
  | .vmul o => packVector 3#7 o
  | .vmulh o => packVector 4#7 o
  | .vfma o => packVector 5#7 o
  | .vfms o => packVector 6#7 o
  | .vfnma o => packVector 7#7 o
  | .vmin o => packVector 8#7 o
  | .vmax o => packVector 9#7 o
  | .vabs o => packVector 10#7 o
  | .vneg o => packVector 11#7 o
  | .vclamp o => packVector 12#7 o
  | .vceq o => packVector 13#7 o
  | .vcne o => packVector 14#7 o
  | .vclt o => packVector 15#7 o
  | .vcle o => packVector 16#7 o
  | .vsel o => packVector 17#7 o
  | .vand o => packVector 18#7 o
  | .vor o => packVector 19#7 o
  | .vxor o => packVector 20#7 o
  | .vnot o => packVector 21#7 o
  | .vshl o => packVector 22#7 o
  | .vshr o => packVector 23#7 o
  | .vsra o => packVector 24#7 o
  | .vcvt o => packVector 25#7 o
  | .vmov o => packVector 26#7 o
  | .vsplat o => packVector 27#7 o
  | .vperm o => packVector 28#7 o
  | .vrot o => packVector 29#7 o
  | .vdot o => packVector 30#7 o
  | .vred o => packVector 31#7 o
  | .vscan o => packVector 32#7 o
  | .vdraw o => packVector 33#7 o
  | .vquant o => packVector 34#7 o
  | .vdeq o => packVector 35#7 o
  | .xexp2 o => packXf 1#6 o
  | .xlog2 o => packXf 2#6 o
  | .xrcp o => packXf 3#6 o
  | .xrsq o => packXf 4#6 o
  | .xsqrt o => packXf 5#6 o
  | .xtanh o => packXf 6#6 o
  | .xsig o => packXf 7#6 o
  | .xsin o => packXf 8#6 o
  | .xcos o => packXf 9#6 o
  | .xfer o => packXf 10#6 o
  | .xbcast o => packXf 11#6 o
  | .xred o => packXf 12#6 o
  | .xdraw o => packXf 13#6 o
  | .trow o => packXt 1#4 o
  | .tcol o => packXt 2#4 o
  | .tclr o => packXt 3#4 o
  | .tmode o => packXt 4#4 o
  | .mpush o => 1#6 ++ o.row ++ 0#1 ++ o.a ++ o.c ++ 0#10
  | .mpushT o => 1#6 ++ o.row ++ 1#1 ++ o.col ++ 0#1 ++ o.c ++ 0#10
  | .mmac o => 2#6 ++ o.tile ++ o.mm1 ++ 0#1 ++ o.fmt ++ o.cs
  | .mmacF o => 2#6 ++ o.tile ++ o.mm1 ++ 1#1 ++ o.fmt ++ o.cs
  | .mprom chk => 3#6 ++ chk ++ 0#25
  | .mclr o => 4#6 ++ o.tile ++ o.nm1 ++ 0#15
  | .mrd o => 5#6 ++ o.v ++ o.tile ++ o.row ++ o.c ++ o.i ++ 0#2
  | .mwr o => 6#6 ++ o.v ++ o.tile ++ o.row ++ o.c ++ o.i ++ 0#2
  | .mfmt entry s => 7#6 ++ entry ++ s ++ 0#15
  | .mfsel level base => 8#6 ++ level ++ base ++ 0#17
  | .mscq cnt => 9#6 ++ cnt ++ 0#20
  | .ld o => 1#6 ++ o.d ++ o.a ++ o.lane ++ o.tap ++ o.size ++ o.sx ++ o.il ++ 0#2
  | .ldg o => 2#6 ++ o.d ++ o.a ++ 0#10 ++ o.size ++ o.sx ++ 0#3
  | .vld o => 3#6 ++ o.d ++ o.a ++ o.lane ++ o.tap ++ o.c ++ o.il ++ o.h ++ 0#1
  | .vlds o => 4#6 ++ o.v ++ o.a ++ o.lane ++ o.tap ++ o.c ++ o.q
  | .vgat o => 5#6 ++ o.v ++ o.a ++ o.lane ++ o.tap ++ o.c ++ 0#3
  | .ldsc o => 6#6 ++ 0#5 ++ o.a ++ o.lane ++ o.tap ++ 0#6
  | .st o => 1#6 ++ o.s ++ o.a ++ o.lane ++ o.tap ++ o.size ++ o.g ++ o.il ++ 0#2
  | .stg o => 2#6 ++ o.s ++ o.a ++ 0#10 ++ o.size ++ o.g ++ 0#3
  | .vst o => 3#6 ++ o.s ++ o.a ++ o.lane ++ o.tap ++ o.c ++ o.il ++ o.g ++ 0#1
  | .vsts o => 4#6 ++ o.v ++ o.a ++ o.lane ++ o.tap ++ o.c ++ o.q
  | .vsct o => 5#6 ++ o.v ++ o.a ++ o.lane ++ o.tap ++ o.c ++ 0#3
  | .aadd o => packAtom 6#6 o
  | .amin o => packAtom 7#6 o
  | .amax o => packAtom 8#6 o
  | .axchg o => packAtom 9#6 o
  | .acas o => packAtom 10#6 o
  | .aand o => packAtom 11#6 o
  | .aor o => packAtom 12#6 o
  | .axor o => packAtom 13#6 o
  | .fence scope => 14#6 ++ scope ++ 0#23
  | .cpy o => packXfer 1#6 o
  | .cpyb o => packXfer 2#6 o
  | .bxfer o => packXfer 3#6 o
  | .bxfer2 o => packXfer 4#6 o
  | .hset o => 5#6 ++ o.handle ++ o.a ++ o.b ++ o.wb ++ o.c ++ 0#4
  | .hwait handle => 6#6 ++ handle ++ 0#20
  | .hrel handle => 7#6 ++ handle ++ 0#20
  | .hprobe o => 8#6 ++ o.handle ++ o.p ++ o.cond ++ 0#14
  | .ccall o => packColl 9#6 o
  | .ctrig o => packColl 10#6 o
  | .ckpt o => packColl 11#6 o
  | .anchor => 1#6 ++ 0#26
  | .endOp => 2#6 ++ 0#26
  | .barInit o => 3#6 ++ o.a ++ o.b ++ o.lane ++ o.tap ++ o.nw ++ 0#5
  | .barArrive o => 4#6 ++ o.a ++ o.b ++ o.lane ++ o.tap ++ o.nw ++ 0#5
  | .barWait a => 5#6 ++ a ++ 0#21
  | .barFini o => 6#6 ++ o.a ++ o.b ++ o.lane ++ o.tap ++ o.nw ++ 0#5
  | .clk d => 7#6 ++ d ++ 0#21
  | .waitc a p => 8#6 ++ a ++ p ++ 0#18
  | .wfar => 9#6 ++ 0#26
  | .belayBegin => 10#6 ++ 0#26
  | .belayBeginPitch hIn hOut => 10#6 ++ 1#1 ++ hIn ++ hOut ++ 0#13
  | .belayKeepS lit => 11#6 ++ 0#2 ++ lit ++ 0#20
  | .belayKeepV lit => 11#6 ++ 1#2 ++ lit ++ 0#20
  | .belayKeepA o => 11#6 ++ 2#2 ++ o.tile ++ o.nm1 ++ 0#12
  | .belayEnd => 12#6 ++ 0#26
  | .cmpt o => 13#6 ++ o.v ++ o.a ++ o.b ++ 0#15
  | .ilock a b => 14#6 ++ a ++ b ++ 0#16
  | .iunlock a b => 15#6 ++ a ++ b ++ 0#16
  | .ipref a b => 16#6 ++ a ++ b ++ 0#16
  | .trap code => 17#6 ++ 0#10 ++ code
  | .sys code => 18#6 ++ 0#10 ++ code
  | .eret => 19#6 ++ 0#26
  | .csrr o => packCsr 20#6 o
  | .csrw o => packCsr 21#6 o
  | .csrs o => packCsr 22#6 o
  | .csrc o => packCsr 23#6 o
  | .yield => 24#6 ++ 0#26
  | .wfi => 25#6 ++ 0#26
  | .bist a => 26#6 ++ a ++ 0#21
  | .hold => 0#32
  | .timedDispatchRelease _ _ => 0#32
  | .matrixQueueStart _ => 0#32
  | .loopIterationBoundary _ => 0#32
  | .instructionStoreSlip _ => 0#32
  | .instructionFetchComplete _ _ => 0#32
  | .resultLanding _ _ => 0#32
  | .tileRowLanding _ _ => 0#32
  | .trapHandlerEntry _ => 0#32
  | .watchdogExpiry _ => 0#32
  | .loadTap _ _ => 0#32
  | .storeBankWrite _ _ _ => 0#32
  | .scratchpadAtomicRead _ _ => 0#32
  | .scratchpadAtomicWrite _ _ => 0#32
  | .barAccessRead _ _ => 0#32
  | .barAccessWrite _ _ => 0#32
  | .interlockedAccessPerform _ _ => 0#32
  | .slotTableInstall _ _ _ => 0#32
  | .slotTableSwap _ => 0#32
  | .memoryPortTableInstall _ _ _ => 0#32
  | .memoryPortTableSwap _ => 0#32
  | .memoryPortAccess _ _ => 0#32
  | .translationWalkComplete _ _ => 0#32
  | .tbinvPage _ => 0#32
  | .tbinvAsid _ => 0#32
  | .tbinvAll _ => 0#32
  | .tbinvComplete _ => 0#32
  | .farRequestSend _ _ => 0#32
  | .farAccessHomeService _ _ => 0#32
  | .globalAtomicHomeService _ _ => 0#32
  | .farResponseArrival _ _ => 0#32
  | .transferBegin _ _ => 0#32
  | .ceReadBeat _ _ => 0#32
  | .ceOffcoreReadReturn _ _ _ => 0#32
  | .ceWriteBeat _ _ _ => 0#32
  | .ceOffcoreWritePerform _ _ _ => 0#32
  | .writeBackBegin _ _ => 0#32
  | .cefinfoClear _ => 0#32
  | .portBeat _ _ => 0#32
  | .detectedErrorRollback _ => 0#32
  | .rollbackRestore _ => 0#32
  | .regionRestart _ => 0#32
  | .bistComplete _ => 0#32
  | .preemptionLanding _ => 0#32
  | .contextSaveComplete _ => 0#32
  | .preemptionReport _ _ => 0#32
  | .contextRestore _ => 0#32
  | .coreRetirement _ => 0#32
  | .retirementReport _ _ => 0#32
  | .packetLaunch _ _ => 0#32
  | .packetBulkCopy _ _ => 0#32
  | .packetWaitOnValue _ _ => 0#32
  | .packetSignal _ _ => 0#32
  | .packetTimetableInstall _ _ => 0#32
  | .packetTimetableRemove _ _ => 0#32
  | .packetCheckpointSave _ _ => 0#32
  | .packetCheckpointRestore _ _ => 0#32
  | .packetMapQuery _ _ => 0#32
  | .packetInvalid _ _ => 0#32
  | .waitValuePoll _ _ => 0#32
  | .packetComplete _ _ => 0#32
  | .launchSelection => 0#32
  | .queueAging _ => 0#32
  | .launchRecord _ => 0#32
  | .retirementRecord _ => 0#32
  | .preemptionRecord _ => 0#32
  | .mapRecord _ => 0#32
  | .heldTriggerPerform _ => 0#32
  | .queueTableWrite _ _ => 0#32
  | .queueSwitchOut _ => 0#32
  | .queueSwitchIn _ => 0#32
  | .queueReset _ => 0#32
  | .hostWindowDescriptorWrite _ _ _ _ _ => 0#32
  | .postedWrite _ _ _ _ => 0#32
  | .readRequest _ _ _ => 0#32
  | .readCompletion _ _ _ _ => 0#32
  | .queueDoorbell _ _ _ => 0#32
  | .configurationRead _ _ => 0#32
  | .refusedTransaction _ => 0#32
  | .hostLinkTraining _ => 0#32
  | .objectUpload _ _ _ => 0#32
  | .healthSample _ _ _ => 0#32
  | .unitRetest _ _ _ => 0#32
  | .mapPublication _ => 0#32
  | .timetableRevalidation _ => 0#32
  | .ccallRequest _ => 0#32
  | .timetableReservation _ _ => 0#32
  | .timetableAcceptance _ _ => 0#32
  | .timetableCommit _ _ => 0#32
  | .timetableAcceptDeadline _ => 0#32
  | .timetableInstanceStart _ => 0#32
  | .timetableEntryStart _ _ => 0#32
  | .timetableEntryCombine _ _ => 0#32
  | .timetableInstanceEnd _ => 0#32
  | .triggerArm _ _ => 0#32
  | .linkTimeout _ => 0#32
  | .switchTimeout _ => 0#32
  | .groupTimeout _ => 0#32
  | .linkStateUpdate _ _ _ => 0#32
  | .drainRoundEnd _ => 0#32
  | .memberFailureRecord _ _ => 0#32
  | .checkpointReadback _ => 0#32
  | .reset _ => 0#32
  | .laneRecentre _ _ => 0#32
  | .thermalTrip _ => 0#32
  | .lifecycleTransition _ => 0#32
  | .tenantReassignment _ _ _ => 0#32
  | .quoteRequest _ => 0#32
  | .vmarginWrite _ _ => 0#32
  | .vmarginSettled _ => 0#32
  | .linkmarginScanStart _ _ => 0#32
  | .linkmarginScanDone _ => 0#32
  | .wfiWakeRequest _ => 0#32
  | .storageBitFlip _ _ => 0#32
  | .idleFlit _ => 0#32
  | .streamRecovery => 0#32

/-- The slot that issues an instruction: SA, VA for the kinds that share a column; none for events (R126). -/
def Instr.slot? : Instr → Option SlotKind
  | .add _ => some .sa
  | .sub _ => some .sa
  | .mul _ => some .sa
  | .mulh _ => some .sa
  | .mulhn _ => some .sa
  | .div _ => some .sa
  | .divn _ => some .sa
  | .rem _ => some .sa
  | .remn _ => some .sa
  | .and _ => some .sa
  | .or _ => some .sa
  | .xor _ => some .sa
  | .andn _ => some .sa
  | .shl _ => some .sa
  | .shr _ => some .sa
  | .sra _ => some .sa
  | .rot _ => some .sa
  | .clz _ => some .sa
  | .popc _ => some .sa
  | .min _ => some .sa
  | .max _ => some .sa
  | .minn _ => some .sa
  | .maxn _ => some .sa
  | .sext _ => some .sa
  | .zext _ => some .sa
  | .bfx _ => some .sa
  | .bfi _ => some .sa
  | .lea _ => some .sa
  | .mov _ => some .sa
  | .movl _ => some .sa
  | .sel _ => some .sa
  | .cmp _ => some .sa
  | .fadd _ => some .sa
  | .fsub _ => some .sa
  | .fmul _ => some .sa
  | .ffma _ => some .sa
  | .fmin _ => some .sa
  | .fmax _ => some .sa
  | .fcmp _ => some .sa
  | .fcvt _ => some .sa
  | .lix _ => some .sa
  | .br _ => some .sa
  | .bc _ => some .sa
  | .jmp _ => some .sa
  | .callRelative _ => some .sa
  | .callRegister _ => some .sa
  | .ret _ => some .sa
  | .loop _ => some .sa
  | .loopx _ => some .sa
  | .vadd _ => some .va
  | .vsub _ => some .va
  | .vmul _ => some .va
  | .vmulh _ => some .va
  | .vfma _ => some .va
  | .vfms _ => some .va
  | .vfnma _ => some .va
  | .vmin _ => some .va
  | .vmax _ => some .va
  | .vabs _ => some .va
  | .vneg _ => some .va
  | .vclamp _ => some .va
  | .vceq _ => some .va
  | .vcne _ => some .va
  | .vclt _ => some .va
  | .vcle _ => some .va
  | .vsel _ => some .va
  | .vand _ => some .va
  | .vor _ => some .va
  | .vxor _ => some .va
  | .vnot _ => some .va
  | .vshl _ => some .va
  | .vshr _ => some .va
  | .vsra _ => some .va
  | .vcvt _ => some .va
  | .vmov _ => some .va
  | .vsplat _ => some .va
  | .vperm _ => some .va
  | .vrot _ => some .va
  | .vdot _ => some .va
  | .vred _ => some .va
  | .vscan _ => some .va
  | .vdraw _ => some .va
  | .vquant _ => some .va
  | .vdeq _ => some .va
  | .xexp2 _ => some .xf
  | .xlog2 _ => some .xf
  | .xrcp _ => some .xf
  | .xrsq _ => some .xf
  | .xsqrt _ => some .xf
  | .xtanh _ => some .xf
  | .xsig _ => some .xf
  | .xsin _ => some .xf
  | .xcos _ => some .xf
  | .xfer _ => some .xf
  | .xbcast _ => some .xf
  | .xred _ => some .xf
  | .xdraw _ => some .xf
  | .trow _ => some .xt
  | .tcol _ => some .xt
  | .tclr _ => some .xt
  | .tmode _ => some .xt
  | .mpush _ => some .mx
  | .mpushT _ => some .mx
  | .mmac _ => some .mx
  | .mmacF _ => some .mx
  | .mprom _ => some .mx
  | .mclr _ => some .mx
  | .mrd _ => some .mx
  | .mwr _ => some .mx
  | .mfmt _ _ => some .mx
  | .mfsel _ _ => some .mx
  | .mscq _ => some .mx
  | .ld _ => some .ld
  | .ldg _ => some .ld
  | .vld _ => some .ld
  | .vlds _ => some .ld
  | .vgat _ => some .ld
  | .ldsc _ => some .ld
  | .st _ => some .st
  | .stg _ => some .st
  | .vst _ => some .st
  | .vsts _ => some .st
  | .vsct _ => some .st
  | .aadd _ => some .st
  | .amin _ => some .st
  | .amax _ => some .st
  | .axchg _ => some .st
  | .acas _ => some .st
  | .aand _ => some .st
  | .aor _ => some .st
  | .axor _ => some .st
  | .fence _ => some .st
  | .cpy _ => some .ce
  | .cpyb _ => some .ce
  | .bxfer _ => some .ce
  | .bxfer2 _ => some .ce
  | .hset _ => some .ce
  | .hwait _ => some .ce
  | .hrel _ => some .ce
  | .hprobe _ => some .ce
  | .ccall _ => some .ce
  | .ctrig _ => some .ce
  | .ckpt _ => some .ce
  | .anchor => some .sy
  | .endOp => some .sy
  | .barInit _ => some .sy
  | .barArrive _ => some .sy
  | .barWait _ => some .sy
  | .barFini _ => some .sy
  | .clk _ => some .sy
  | .waitc _ _ => some .sy
  | .wfar => some .sy
  | .belayBegin => some .sy
  | .belayBeginPitch _ _ => some .sy
  | .belayKeepS _ => some .sy
  | .belayKeepV _ => some .sy
  | .belayKeepA _ => some .sy
  | .belayEnd => some .sy
  | .cmpt _ => some .sy
  | .ilock _ _ => some .sy
  | .iunlock _ _ => some .sy
  | .ipref _ _ => some .sy
  | .trap _ => some .sy
  | .sys _ => some .sy
  | .eret => some .sy
  | .csrr _ => some .sy
  | .csrw _ => some .sy
  | .csrs _ => some .sy
  | .csrc _ => some .sy
  | .yield => some .sy
  | .wfi => some .sy
  | .bist _ => some .sy
  | .hold => none
  | .timedDispatchRelease _ _ => none
  | .matrixQueueStart _ => none
  | .loopIterationBoundary _ => none
  | .instructionStoreSlip _ => none
  | .instructionFetchComplete _ _ => none
  | .resultLanding _ _ => none
  | .tileRowLanding _ _ => none
  | .trapHandlerEntry _ => none
  | .watchdogExpiry _ => none
  | .loadTap _ _ => none
  | .storeBankWrite _ _ _ => none
  | .scratchpadAtomicRead _ _ => none
  | .scratchpadAtomicWrite _ _ => none
  | .barAccessRead _ _ => none
  | .barAccessWrite _ _ => none
  | .interlockedAccessPerform _ _ => none
  | .slotTableInstall _ _ _ => none
  | .slotTableSwap _ => none
  | .memoryPortTableInstall _ _ _ => none
  | .memoryPortTableSwap _ => none
  | .memoryPortAccess _ _ => none
  | .translationWalkComplete _ _ => none
  | .tbinvPage _ => none
  | .tbinvAsid _ => none
  | .tbinvAll _ => none
  | .tbinvComplete _ => none
  | .farRequestSend _ _ => none
  | .farAccessHomeService _ _ => none
  | .globalAtomicHomeService _ _ => none
  | .farResponseArrival _ _ => none
  | .transferBegin _ _ => none
  | .ceReadBeat _ _ => none
  | .ceOffcoreReadReturn _ _ _ => none
  | .ceWriteBeat _ _ _ => none
  | .ceOffcoreWritePerform _ _ _ => none
  | .writeBackBegin _ _ => none
  | .cefinfoClear _ => none
  | .portBeat _ _ => none
  | .detectedErrorRollback _ => none
  | .rollbackRestore _ => none
  | .regionRestart _ => none
  | .bistComplete _ => none
  | .preemptionLanding _ => none
  | .contextSaveComplete _ => none
  | .preemptionReport _ _ => none
  | .contextRestore _ => none
  | .coreRetirement _ => none
  | .retirementReport _ _ => none
  | .packetLaunch _ _ => none
  | .packetBulkCopy _ _ => none
  | .packetWaitOnValue _ _ => none
  | .packetSignal _ _ => none
  | .packetTimetableInstall _ _ => none
  | .packetTimetableRemove _ _ => none
  | .packetCheckpointSave _ _ => none
  | .packetCheckpointRestore _ _ => none
  | .packetMapQuery _ _ => none
  | .packetInvalid _ _ => none
  | .waitValuePoll _ _ => none
  | .packetComplete _ _ => none
  | .launchSelection => none
  | .queueAging _ => none
  | .launchRecord _ => none
  | .retirementRecord _ => none
  | .preemptionRecord _ => none
  | .mapRecord _ => none
  | .heldTriggerPerform _ => none
  | .queueTableWrite _ _ => none
  | .queueSwitchOut _ => none
  | .queueSwitchIn _ => none
  | .queueReset _ => none
  | .hostWindowDescriptorWrite _ _ _ _ _ => none
  | .postedWrite _ _ _ _ => none
  | .readRequest _ _ _ => none
  | .readCompletion _ _ _ _ => none
  | .queueDoorbell _ _ _ => none
  | .configurationRead _ _ => none
  | .refusedTransaction _ => none
  | .hostLinkTraining _ => none
  | .objectUpload _ _ _ => none
  | .healthSample _ _ _ => none
  | .unitRetest _ _ _ => none
  | .mapPublication _ => none
  | .timetableRevalidation _ => none
  | .ccallRequest _ => none
  | .timetableReservation _ _ => none
  | .timetableAcceptance _ _ => none
  | .timetableCommit _ _ => none
  | .timetableAcceptDeadline _ => none
  | .timetableInstanceStart _ => none
  | .timetableEntryStart _ _ => none
  | .timetableEntryCombine _ _ => none
  | .timetableInstanceEnd _ => none
  | .triggerArm _ _ => none
  | .linkTimeout _ => none
  | .switchTimeout _ => none
  | .groupTimeout _ => none
  | .linkStateUpdate _ _ _ => none
  | .drainRoundEnd _ => none
  | .memberFailureRecord _ _ => none
  | .checkpointReadback _ => none
  | .reset _ => none
  | .laneRecentre _ _ => none
  | .thermalTrip _ => none
  | .lifecycleTransition _ => none
  | .tenantReassignment _ _ _ => none
  | .quoteRequest _ => none
  | .vmarginWrite _ _ => none
  | .vmarginSettled _ => none
  | .linkmarginScanStart _ _ => none
  | .linkmarginScanDone _ => none
  | .wfiWakeRequest _ => none
  | .storageBitFlip _ _ => none
  | .idleFlit _ => none
  | .streamRecovery => none

/-- The control forms, legal only in SA (R127). -/
def Instr.isControl : Instr → Bool
  | .br _ | .bc _ | .jmp _ | .callRelative _ | .callRegister _ | .ret _ | .loop _ | .loopx _ => true
  | _ => false

/-- Two slots read one column of the opcode map (R126). -/
def SlotKind.column : SlotKind → SlotKind
  | .sa => .sa | .sb => .sa | .va => .va | .vb => .va | .vc => .va | .xf => .xf
  | .xt => .xt | .mx => .mx | .ld => .ld | .st => .st | .ce => .ce | .sy => .sy

/-- The opcode column of a slot (R126). -/
def ctorOf (k : SlotKind) (w : W32) : Option Instr :=
  match k.column with
  | .sa => ctorScalar w
  | .va => ctorVector w
  | .xf => ctorXf w
  | .xt => ctorXt w
  | .mx => ctorMx w
  | .ld => ctorLd w
  | .st => ctorSt w
  | .ce => ctorCe w
  | _ => ctorSy w

/-- Decode one slot word (R117–R128): the opcode map first, then the control rule, the zero bits and the coded fields. -/
def decodeSlot (k : SlotKind) (w : W32) : Except DecodeError Instr :=
  match ctorOf k w with
  | none => .error .opcode
  | some i =>
    if i.isControl && k == .sb then .error .controlOutsideSa
    else if encode i != w then .error .reservedBits
    else if i.wf then .ok i
    else .error .reservedField

/-- Rank of a reading of a bare word: 64 for each bit of the word that the row of the instruction fixes as 1, and 1 for each bit it fixes. Used only
where a word comes without its slot. -/
def Instr.rank : Instr → Nat
  | .add _ => 75
  | .sub _ => 75
  | .mul _ => 139
  | .mulh _ => 75
  | .mulhn _ => 139
  | .div _ => 139
  | .divn _ => 203
  | .rem _ => 75
  | .remn _ => 139
  | .and _ => 139
  | .or _ => 203
  | .xor _ => 139
  | .andn _ => 203
  | .shl _ => 203
  | .shr _ => 267
  | .sra _ => 75
  | .rot _ => 139
  | .clz _ => 145
  | .popc _ => 209
  | .min _ => 139
  | .max _ => 203
  | .minn _ => 203
  | .maxn _ => 267
  | .sext _ => 142
  | .zext _ => 206
  | .bfx _ => 202
  | .bfi _ => 267
  | .lea _ => 201
  | .mov _ => 273
  | .movl _ => 337
  | .sel _ => 328
  | .cmp _ => 73
  | .fadd _ => 136
  | .fsub _ => 136
  | .fmul _ => 200
  | .ffma _ => 136
  | .fmin _ => 203
  | .fmax _ => 203
  | .fcmp _ => 266
  | .fcvt _ => 137
  | .lix _ => 211
  | .br _ => 279
  | .bc _ => 334
  | .jmp _ => 214
  | .callRelative _ => 343
  | .callRegister _ => 342
  | .ret _ => 283
  | .loop _ => 399
  | .loopx _ => 152
  | .vadd _ => 71
  | .vsub _ => 71
  | .vmul _ => 135
  | .vmulh _ => 71
  | .vfma _ => 135
  | .vfms _ => 135
  | .vfnma _ => 199
  | .vmin _ => 71
  | .vmax _ => 135
  | .vabs _ => 141
  | .vneg _ => 205
  | .vclamp _ => 135
  | .vceq _ => 201
  | .vcne _ => 201
  | .vclt _ => 265
  | .vcle _ => 73
  | .vsel _ => 135
  | .vand _ => 135
  | .vor _ => 199
  | .vxor _ => 135
  | .vnot _ => 205
  | .vshl _ => 199
  | .vshr _ => 263
  | .vsra _ => 135
  | .vcvt _ => 200
  | .vmov _ => 205
  | .vsplat _ => 268
  | .vperm _ => 199
  | .vrot _ => 263
  | .vdot _ => 263
  | .vred _ => 328
  | .vscan _ => 72
  | .vdraw _ => 136
  | .vquant _ => 136
  | .vdeq _ => 200
  | .xexp2 _ => 81
  | .xlog2 _ => 81
  | .xrcp _ => 145
  | .xrsq _ => 81
  | .xsqrt _ => 145
  | .xtanh _ => 145
  | .xsig _ => 209
  | .xsin _ => 81
  | .xcos _ => 145
  | .xfer _ => 142
  | .xbcast _ => 206
  | .xred _ => 142
  | .xdraw _ => 203
  | .trow _ => 84
  | .tcol _ => 84
  | .tclr _ => 160
  | .tmode _ => 94
  | .mpush _ => 81
  | .mpushT _ => 146
  | .mmac _ => 71
  | .mmacF _ => 141
  | .mprom _ => 159
  | .mclr _ => 85
  | .mrd _ => 136
  | .mwr _ => 136
  | .mfmt _ _ => 213
  | .mfsel _ _ => 87
  | .mscq _ => 154
  | .ld _ => 72
  | .ldg _ => 83
  | .vld _ => 135
  | .vlds _ => 70
  | .vgat _ => 137
  | .ldsc _ => 145
  | .st _ => 72
  | .stg _ => 83
  | .vst _ => 135
  | .vsts _ => 70
  | .vsct _ => 137
  | .aadd _ => 135
  | .amin _ => 198
  | .amax _ => 70
  | .axchg _ => 135
  | .acas _ => 135
  | .aand _ => 199
  | .aor _ => 135
  | .axor _ => 199
  | .fence _ => 221
  | .cpy _ => 83
  | .cpyb _ => 83
  | .bxfer _ => 147
  | .bxfer2 _ => 83
  | .hset _ => 138
  | .hwait _ => 154
  | .hrel _ => 218
  | .hprobe _ => 84
  | .ccall _ => 145
  | .ctrig _ => 145
  | .ckpt _ => 209
  | .anchor => 96
  | .endOp => 96
  | .barInit _ => 140
  | .barArrive _ => 80
  | .barWait _ => 155
  | .barFini _ => 145
  | .clk _ => 219
  | .waitc _ _ => 88
  | .wfar => 160
  | .belayBegin => 160
  | .belayBeginPitch _ _ => 212
  | .belayKeepS _ => 220
  | .belayKeepV _ => 284
  | .belayKeepA _ => 276
  | .belayEnd => 160
  | .cmpt _ => 213
  | .ilock _ _ => 214
  | .iunlock _ _ => 278
  | .ipref _ _ => 86
  | .trap _ => 144
  | .sys _ => 144
  | .eret => 224
  | .csrr _ => 143
  | .csrw _ => 202
  | .csrs _ => 202
  | .csrc _ => 266
  | .yield => 160
  | .wfi => 224
  | .bist _ => 219
  | .hold => 0
  | .timedDispatchRelease _ _ => 0
  | .matrixQueueStart _ => 0
  | .loopIterationBoundary _ => 0
  | .instructionStoreSlip _ => 0
  | .instructionFetchComplete _ _ => 0
  | .resultLanding _ _ => 0
  | .tileRowLanding _ _ => 0
  | .trapHandlerEntry _ => 0
  | .watchdogExpiry _ => 0
  | .loadTap _ _ => 0
  | .storeBankWrite _ _ _ => 0
  | .scratchpadAtomicRead _ _ => 0
  | .scratchpadAtomicWrite _ _ => 0
  | .barAccessRead _ _ => 0
  | .barAccessWrite _ _ => 0
  | .interlockedAccessPerform _ _ => 0
  | .slotTableInstall _ _ _ => 0
  | .slotTableSwap _ => 0
  | .memoryPortTableInstall _ _ _ => 0
  | .memoryPortTableSwap _ => 0
  | .memoryPortAccess _ _ => 0
  | .translationWalkComplete _ _ => 0
  | .tbinvPage _ => 0
  | .tbinvAsid _ => 0
  | .tbinvAll _ => 0
  | .tbinvComplete _ => 0
  | .farRequestSend _ _ => 0
  | .farAccessHomeService _ _ => 0
  | .globalAtomicHomeService _ _ => 0
  | .farResponseArrival _ _ => 0
  | .transferBegin _ _ => 0
  | .ceReadBeat _ _ => 0
  | .ceOffcoreReadReturn _ _ _ => 0
  | .ceWriteBeat _ _ _ => 0
  | .ceOffcoreWritePerform _ _ _ => 0
  | .writeBackBegin _ _ => 0
  | .cefinfoClear _ => 0
  | .portBeat _ _ => 0
  | .detectedErrorRollback _ => 0
  | .rollbackRestore _ => 0
  | .regionRestart _ => 0
  | .bistComplete _ => 0
  | .preemptionLanding _ => 0
  | .contextSaveComplete _ => 0
  | .preemptionReport _ _ => 0
  | .contextRestore _ => 0
  | .coreRetirement _ => 0
  | .retirementReport _ _ => 0
  | .packetLaunch _ _ => 0
  | .packetBulkCopy _ _ => 0
  | .packetWaitOnValue _ _ => 0
  | .packetSignal _ _ => 0
  | .packetTimetableInstall _ _ => 0
  | .packetTimetableRemove _ _ => 0
  | .packetCheckpointSave _ _ => 0
  | .packetCheckpointRestore _ _ => 0
  | .packetMapQuery _ _ => 0
  | .packetInvalid _ _ => 0
  | .waitValuePoll _ _ => 0
  | .packetComplete _ _ => 0
  | .launchSelection => 0
  | .queueAging _ => 0
  | .launchRecord _ => 0
  | .retirementRecord _ => 0
  | .preemptionRecord _ => 0
  | .mapRecord _ => 0
  | .heldTriggerPerform _ => 0
  | .queueTableWrite _ _ => 0
  | .queueSwitchOut _ => 0
  | .queueSwitchIn _ => 0
  | .queueReset _ => 0
  | .hostWindowDescriptorWrite _ _ _ _ _ => 0
  | .postedWrite _ _ _ _ => 0
  | .readRequest _ _ _ => 0
  | .readCompletion _ _ _ _ => 0
  | .queueDoorbell _ _ _ => 0
  | .configurationRead _ _ => 0
  | .refusedTransaction _ => 0
  | .hostLinkTraining _ => 0
  | .objectUpload _ _ _ => 0
  | .healthSample _ _ _ => 0
  | .unitRetest _ _ _ => 0
  | .mapPublication _ => 0
  | .timetableRevalidation _ => 0
  | .ccallRequest _ => 0
  | .timetableReservation _ _ => 0
  | .timetableAcceptance _ _ => 0
  | .timetableCommit _ _ => 0
  | .timetableAcceptDeadline _ => 0
  | .timetableInstanceStart _ => 0
  | .timetableEntryStart _ _ => 0
  | .timetableEntryCombine _ _ => 0
  | .timetableInstanceEnd _ => 0
  | .triggerArm _ _ => 0
  | .linkTimeout _ => 0
  | .switchTimeout _ => 0
  | .groupTimeout _ => 0
  | .linkStateUpdate _ _ _ => 0
  | .drainRoundEnd _ => 0
  | .memberFailureRecord _ _ => 0
  | .checkpointReadback _ => 0
  | .reset _ => 0
  | .laneRecentre _ _ => 0
  | .thermalTrip _ => 0
  | .lifecycleTransition _ => 0
  | .tenantReassignment _ _ _ => 0
  | .quoteRequest _ => 0
  | .vmarginWrite _ _ => 0
  | .vmarginSettled _ => 0
  | .linkmarginScanStart _ _ => 0
  | .linkmarginScanDone _ => 0
  | .wfiWakeRequest _ => 0
  | .storageBitFlip _ _ => 0
  | .idleFlit _ => 0
  | .streamRecovery => 0

/-- The reading of higher rank; the earlier one where they tie. -/
def betterReading (a b : Option (SlotKind × Instr)) : Option (SlotKind × Instr) :=
  match a, b with
  | none, y => y
  | x, none => x
  | some x, some y => if x.2.rank < y.2.rank then some y else some x

/-- One reading of a word in a slot. -/
def readingIn (w : W32) (k : SlotKind) : Option (SlotKind × Instr) :=
  match decodeSlot k w with
  | .ok i => some (k, i)
  | .error _ => none

/-- A bare word has no slot: the reading taken is the one that explains most of it over the nine opcode columns.
DESIGN CHOICE, safe: log entry 10. -/
def bareReading (w : W32) : Option (SlotKind × Instr) :=
  [SlotKind.sa, .va, .xf, .xt, .mx, .ld, .st, .ce, .sy].foldl (fun acc k => betterReading acc (readingIn w k)) none

/-- The instruction read from a table word (host interface): every encoded row has 32 bits. -/
def decodeTableWord (nbits w : Nat) : Option Instr :=
  if nbits ≤ 32 then (bareReading (BitVec.ofNat 32 w)).map (·.2) else none

end Sys2Proof
end

