-- ==== Sys2Proof/Machine/Ops.lean ====
section
/-!
DEFINITION. The named operations over memory, tables and registers; results in flight; taking a trap (R339–R345) and the
return from one (R346), each as one shared operation.
-/

namespace Sys2Proof.Machine

/-! ### Memory: one canonical list of cells -/

/-- Base key of a storage region: regions are 2^64 apart, so an offset never reaches the next one. -/
def regionKey (r : Nat) : Nat := r * 2 ^ 64

/-- Key of a byte of a package's HBM at a 41-bit physical address (R21). -/
def keyHbm (pkg phys : Nat) : Nat := regionKey (0x1000 + pkg) + phys
/-- Key of a byte of a rope's scratchpad (R48). -/
def keyPad (rope off : Nat) : Nat := regionKey (0x2000 + rope) + off
/-- Key of a byte of a core's B-store at a space 2 offset (R45). -/
def keyB (core off : Nat) : Nat := regionKey (0x3000 + core) + off
/-- Key of a byte of a chiplet's chunk buffers (R420). -/
def keyChunk (chip off : Nat) : Nat := regionKey (0x4000 + chip) + off
/-- Key of a byte of host memory behind the host link (R20). -/
def keyHost (a : Nat) : Nat := regionKey 0x5000 + a

/-- What a byte that nothing has written reads as: zero. DESIGN CHOICE, unsafe: log entry 3. -/
def unlisted : Byte := 0#8

/-- One byte of memory. -/
def memGet (m : List Host.Cell) (k : Nat) : Byte := tblGet unlisted k m
/-- Memory with one byte written, kept in canonical form. -/
def memPut (m : List Host.Cell) (k : Nat) (b : Byte) : List Host.Cell := tblPut unlisted k b m
/-- The canonical form of memory. -/
def memWf (m : List Host.Cell) : Bool := tblWf unlisted m

/-- `n` bytes from a key up. -/
def readBytes (m : List Host.Cell) (k : Nat) : Nat → List Byte
  | 0 => []
  | n + 1 => memGet m k :: readBytes m (k + 1) n

/-- Bytes written from a key up. -/
def writeBytes (m : List Host.Cell) (k : Nat) : List Byte → List Host.Cell
  | [] => m
  | b :: t => writeBytes (memPut m k b) (k + 1) t

/-- Memory without the cells of a key range: a wipe (R456). -/
def wipeRange (m : List Host.Cell) (lo hi : Nat) : List Host.Cell :=
  m.filter (fun c => decide (c.1 < lo) || decide (hi < c.1))

/-- The natural of `n` bytes from a key up, little-endian (R4). -/
def readNat (m : List Host.Cell) (k n : Nat) : Nat := leNat (readBytes m k n)

/-- The 64-bit word at a key. -/
def readWord64 (m : List Host.Cell) (k : Nat) : W64 := BitVec.ofNat 64 (readNat m k 8)

/-! ### Agents -/

/-- A core of the package. -/
def State.core (s : State) (c : Nat) : Core := tblGet .reset c s.cores
/-- The state with a core replaced. -/
def State.setCore (s : State) (c : Nat) (x : Core) : State := { s with cores := tblSet c x s.cores }
/-- The state with a core changed. -/
def State.modCore (s : State) (c : Nat) (f : Core → Core) : State := s.setCore c (f (s.core c))
/-- A rope of the package. -/
def State.rope (s : State) (r : Nat) : Rope := tblGet .reset r s.ropes
def State.setRope (s : State) (r : Nat) (x : Rope) : State := { s with ropes := tblSet r x s.ropes }
def State.modRope (s : State) (r : Nat) (f : Rope → Rope) : State := s.setRope r (f (s.rope r))
/-- A die of the package. -/
def State.die (s : State) (d : Nat) : Die := tblGet .reset d s.dies
def State.setDie (s : State) (d : Nat) (x : Die) : State := { s with dies := tblSet d x s.dies }
def State.modDie (s : State) (d : Nat) (f : Die → Die) : State := s.setDie d (f (s.die d))
/-- A queue-table entry. -/
def State.queue (s : State) (q : Nat) : Queue := tblGet .reset q s.disp.queues
def State.modQueue (s : State) (q : Nat) (f : Queue → Queue) : State :=
  { s with disp := { s.disp with queues := tblSet q (f (s.queue q)) s.disp.queues } }

/-- The rope of a core, the die of a core or rope, the core's position in its rope (R169, R182). -/
def ropeOf (core : Nat) : Nat := core / 4
def dieOf (core : Nat) : Nat := core / 64
def dieOfRope (rope : Nat) : Nat := rope / 16
def posOf (core : Nat) : Nat := core % 4

/-- A handle of a rope. -/
def Rope.handle (r : Rope) (h : Nat) : Handle := tblGet .reset h r.handles
def Rope.setHandle (r : Rope) (h : Nat) (x : Handle) : Rope := { r with handles := tblSet h x r.handles }
/-- A copy engine of a rope. -/
def Rope.engine (r : Rope) (e : Nat) : Engine := tblGet .reset e r.engines
def Rope.setEngine (r : Rope) (e : Nat) (x : Engine) : Rope := { r with engines := tblSet e x r.engines }

/-- The global cycle counter as a 64-bit register (R2). -/
def State.counter (s : State) : Nat := s.cycle % 2 ^ 64
/-- The cycle that a 64-bit counter value names (R2). -/
def State.cycleOf (s : State) (x : Nat) : Nat := s.cycle / 2 ^ 64 * 2 ^ 64 + x

/-- Whether the next bundle is a delay bundle of a control form, taken or not (R200, R201). -/
def Sequencer.inDelay (q : Sequencer) : Bool := q.delay != 0 || q.transfer.isSome

/-- Take a fresh record id. -/
def State.fresh (s : State) : Nat × State := (s.nextId, { s with nextId := s.nextId + 1 })

/-- Agents that take free values: the package, a core, a rope, a die, a queue. What one takes does not depend on how many the others take (R458). -/
def packageAgent : Nat := 0
def coreAgent (c : Nat) : Nat := 1 + c % 2048
def ropeAgent (r : Nat) : Nat := 2049 + r % 512
def dieAgent (d : Nat) : Nat := 2561 + d % 32
def queueAgent (q : Nat) : Nat := 2593 + q % 1024
def tenantAgent (t : Nat) : Nat := 3617 + t % 64

/-- The index of the next free value of an agent, and the state after it is taken: indices of two agents never meet. -/
def State.freeIndex (s : State) (agent : Nat) : Nat := tblGet 0 agent s.free * 4096 + agent
def State.useFree (s : State) (agent : Nat) : State := { s with free := tblPut 0 agent (tblGet 0 agent s.free + 1) s.free }

/-- Take a fresh free delay of at least one cycle for an agent. DESIGN CHOICE, safe: log entry 8. -/
def State.freshDelay (s : State) (agent : Nat) : Nat × State := (Config.freeDelay (s.freeIndex agent) + 1, s.useFree agent)

/-! ### The agenda -/

/-- Whether `a` runs before or with `b`. -/
def Due.le (a b : Due) : Bool := decide (a.at_ < b.at_) || (a.at_ == b.at_ && decide (a.prio ≤ b.prio))

/-- Insert an event after those that run before or with it. -/
def insertDue (d : Due) : List Due → List Due
  | [] => [d]
  | x :: t => if x.le d then x :: insertDue d t else d :: x :: t

/-- Schedule an event. Within a cycle: 0 engine, handle and trap entries; 1 bundle issue; 2 CSR writes; 3 bank accesses
and row reads; 4 taps; 5 landings; 6 the rest (R40, R67, R350). -/
def State.schedule (s : State) (at_ prio : Nat) (ev : Instr) : State :=
  { s with agenda := insertDue { at_ := at_, prio := prio, ev := ev } s.agenda }

/-- The agent whose event it is: the core, rope, die or queue that it names first, else the package. -/
def eventAgent : Instr → Nat
  | .farRequestSend c _ => coreAgent c.val
  | .farAccessHomeService c _ => coreAgent c.val
  | .farResponseArrival c _ => coreAgent c.val
  | .globalAtomicHomeService c _ => coreAgent c.val
  | .triggerArm c _ => coreAgent c.val
  | .instructionFetchComplete c _ => coreAgent c.val
  | .contextSaveComplete c => coreAgent c.val
  | .ceOffcoreReadReturn r _ _ => ropeAgent r.val
  | .ceOffcoreWritePerform r _ _ => ropeAgent r.val
  | .translationWalkComplete d _ => dieAgent d.val
  | .tbinvPage c => dieAgent (dieOf c.val)
  | .tbinvAsid c => dieAgent (dieOf c.val)
  | .tbinvAll c => dieAgent (dieOf c.val)
  | .mapPublication d => dieAgent d.val
  | .packetComplete q _ => queueAgent q.val
  | .packetInvalid q _ => queueAgent q.val
  | .packetLaunch q _ => queueAgent q.val
  | .packetBulkCopy q _ => queueAgent q.val
  | .packetWaitOnValue q _ => queueAgent q.val
  | .packetSignal q _ => queueAgent q.val
  | .packetTimetableInstall q _ => queueAgent q.val
  | .packetTimetableRemove q _ => queueAgent q.val
  | .packetCheckpointSave q _ => queueAgent q.val
  | .packetCheckpointRestore q _ => queueAgent q.val
  | .packetMapQuery q _ => queueAgent q.val
  | .queueAging q => queueAgent q.val
  | _ => packageAgent

/-- Schedule an event after a free delay of an agent. -/
def State.scheduleFor (s : State) (agent prio : Nat) (ev : Instr) : State :=
  let d := s.freshDelay agent
  d.2.schedule (s.cycle + d.1) prio ev
/-- Schedule an event after a free delay of the agent that it names. -/
def State.scheduleFree (s : State) (prio : Nat) (ev : Instr) : State := s.scheduleFor (eventAgent ev) prio ev

/-- Identifiers for events, from naturals that tables hold. -/
def coreId (c : Nat) : CoreId := Fin.ofNat 2048 c
def ropeId (r : Nat) : RopeId := Fin.ofNat 512 r
def dieId (d : Nat) : DieId := Fin.ofNat 32 d
def queueId (q : Nat) : QueueId := Fin.ofNat 1024 q

/-! ### Control registers -/

/-- Reset values the spec gives: BELAYRETRY LIMIT 3 (R322) and WDLIMIT (R353); every other CSR resets to 0. DESIGN CHOICE, unsafe: log entry 1. -/
def csrReset (n : Nat) : W64 := if n = 0x007 then 3#64 else if n = 0x045 then 0x713FB300#64 else 0#64

/-- The stored value of a per-core CSR. -/
def Core.csrGet (c : Core) (n : Nat) : W64 := tblGet (csrReset n) n c.csr
/-- The core with a per-core CSR stored. -/
def Core.csrSet (c : Core) (n : Nat) (v : W64) : Core := { c with csr := tblSet n v c.csr }
/-- A hardware update of a control register in a cycle, remembered for a CSR write of that cycle, which comes before it (R350). -/
def Core.note (c : Core) (now n : Nat) (f : Nat → Nat) : Core :=
  let old := if c.hw.1 = now then c.hw.2 else []
  { c with hw := (now, tblPut 0 n (f (tblGet 0 n old)) old) }
/-- A 32-bit count in a CSR's low half grows by `k` (R210, R358). -/
def Core.count (c : Core) (now n k : Nat) : Core :=
  (c.csrSet n (BitVec.ofNat 64 (((c.csrGet n).toNat + k) % 2 ^ 32))).note now n (· + k)
/-- A sticky bit of ILOCKSTAT is set (R358). -/
def Core.stick (c : Core) (now bit : Nat) : Core :=
  (c.csrSet 0x00A (setBit (c.csrGet 0x00A) bit true)).note now 0x00A (fun x => Nat.lor x (2 ^ bit))
/-- A bit of `PREEMPTREQ` set by the command processor or the hardware: 0 REQ, 1 MAPEV, 2 WAKE (R359). -/
def Core.request (c : Core) (now bit : Nat) : Core :=
  (c.csrSet 0x103 (setBit (c.csrGet 0x103) bit true)).note now 0x103 (fun x => Nat.lor x (2 ^ bit))
/-- Hardware updates of this cycle applied after a CSR write to the same register (R350). -/
def Core.renote (c : Core) (now n : Nat) : Core :=
  let k := if c.hw.1 = now then tblGet 0 n c.hw.2 else 0
  let v := c.csrGet n
  if k = 0 then c
  else if n = 0x00A ∨ n = 0x103 then c.csrSet n (v ||| BitVec.ofNat 64 k)
  else if n = 0x006 then c.csrSet n (BitVec.ofNat 64 ((bitsNat v 63 32 + k) % 2 ^ 32 * 2 ^ 32 + bitsNat v 31 0))
  else if n = 0x004 ∨ n = 0x008 ∨ n = 0x009 then c.csrSet n (BitVec.ofNat 64 ((v.toNat + k) % 2 ^ 32))
  else c
/-- Several CSRs stored in order. -/
def Core.csrSetAll (c : Core) (l : List (Nat × W64)) : Core := l.foldl (fun acc e => acc.csrSet e.1 e.2) c

/-! ### Die maps (R367–R377) -/

/-- The map in force on a die at a cycle (R377). -/
def Die.mapAt (d : Die) (cycle : Nat) : DieMap :=
  match d.maps.find? (fun m => decide (m.pubCyc ≤ cycle)) with
  | some m => m
  | none => .reset

/-- The map of a given version, or the one in force. -/
def Die.mapVer (d : Die) (cycle v : Nat) : DieMap :=
  match d.maps.find? (fun m => m.version == v) with
  | some m => m
  | none => if v = 1 then .reset else d.mapAt cycle

/-- The binding map of a core: under which it was started or last restored (R379). -/
def State.bindMap (s : State) (core : Nat) : DieMap :=
  match (s.core core).launch with
  | some l => (s.die (dieOf core)).mapVer s.cycle l.mapVersion
  | none => (s.die (dieOf core)).mapAt s.cycle

def DieMap.core (m : DieMap) (core : Nat) : CoreMap := tblGet .reset (core % 64) m.cores
def DieMap.rope (m : DieMap) (rope : Nat) : RopeMap := tblGet .reset (rope % 16) m.ropes
/-- The rope record that a core's accesses go by: that of its binding map (R377, R379). -/
def State.coreRope (s : State) (core : Nat) : RopeMap := (s.bindMap core).rope (ropeOf core)

/-- Physical cluster bound to logical cluster c (R372). -/
def CoreMap.phys (m : CoreMap) (c : Nat) : Nat := bitsNat m.bind (4 * c + 3) (4 * c)
/-- The physical cluster that BIND does not name: the spare (R368, R372). -/
def CoreMap.spare (m : CoreMap) : Nat :=
  match (upTo 9).find? (fun p => !((upTo 8).map m.phys).contains p) with
  | some p => p
  | none => 8
/-- Recorded states (R367) and adders (R131). -/
def CoreMap.scalSt (m : CoreMap) (n : Nat) : Nat := bitsNat m.scal (2 * n + 1) (2 * n)
def CoreMap.arraySt (m : CoreMap) : Nat := bitsNat m.scal 7 6
def CoreMap.colSt (m : CoreMap) (p e : Nat) : Nat := bitsNat m.colst (12 * p + 2 * e + 1) (12 * p + 2 * e)
def CoreMap.xfSt (m : CoreMap) (p : Nat) : Nat := bitsNat m.xst (2 * p + 1) (2 * p)
def CoreMap.xtSt (m : CoreMap) (p : Nat) : Nat := bitsNat m.xst (2 * p + 19) (2 * p + 18)
def CoreMap.colAdd (m : CoreMap) (p e : Nat) : Nat := bitsNat m.coladd (12 * p + 2 * e + 1) (12 * p + 2 * e)
def CoreMap.xfAdd (m : CoreMap) (p : Nat) : Nat := bitsNat m.xadd (2 * p + 1) (2 * p)
def CoreMap.xtAdd (m : CoreMap) (p : Nat) : Nat := bitsNat m.xadd (2 * p + 19) (2 * p + 18)
def CoreMap.scalAdd (m : CoreMap) (n : Nat) : Nat := bitsNat m.xadd (37 + 2 * n) (36 + 2 * n)
def CoreMap.arrayAdd (m : CoreMap) : Nat := bitsNat m.xadd 43 42

/-- Effective state and adder of column e: the worst over the bound clusters (R369). -/
def CoreMap.effCol (m : CoreMap) (e : Nat) : Nat := maximumOf ((upTo 8).map (fun c => m.colSt (m.phys c) e))
def CoreMap.effAdd (m : CoreMap) (e : Nat) : Nat := maximumOf ((upTo 8).map (fun c => m.colAdd (m.phys c) e))

/-- Cross-cluster distance of two physical clusters (R372, R245). -/
def CoreMap.distance (m : CoreMap) (p q : Nat) : Nat :=
  if p = q then 0
  else
    let lo := min p q
    let hi := max p q
    let k := 8 * lo - lo * (lo - 1) / 2 + (hi - lo - 1)
    bitsNat m.dist (4 * k + 3) (4 * k)

/-- A landing delay on a unit: nominal, doubled at half speed, plus the adder (R131). -/
def unitDelay (nominal : Nat) (half : Bool) (add : Nat) : Nat := (if half then 2 * nominal else nominal) + add

/-! ### Registers -/

/-- Physical number of a vector register name (R163). -/
def physReg (rrb : BitVec 4) (j : Nat) : Nat := if j < 16 then j else 16 + ((j - 16) + 16 - rrb.toNat) % 16
/-- Key of a lane of a vector register of a physical cluster. -/
def vKey (p reg lane : Nat) : Nat := (p * 32 + reg) * 16 + lane
/-- Key of a lane predicate of a physical cluster. -/
def qKey (p n : Nat) : Nat := p * 8 + n

/-- A scalar register: s0 reads zero (R39). Keys 32–47 are k0–k15. -/
def RegFile.sGet (r : RegFile) (n : Nat) : W64 := if n = 0 then 0#64 else tblGet 0#64 n r.s
/-- A predicate: p0 reads 1 (R39). -/
def RegFile.pGet (r : RegFile) (n : Nat) : Bool := n = 0 || bitAt r.p n
/-- One lane of a vector register. -/
def RegFile.vGet (r : RegFile) (key : Nat) : W32 := tblGet 0#32 key r.v
/-- A lane predicate of a physical cluster: q0 reads all ones (R39). -/
def RegFile.qGet (r : RegFile) (p n : Nat) : BitVec 16 := if n = 0 then 0xFFFF#16 else tblGet 0#16 (qKey p n) r.q

/-- One register write; s0, p0 and q0 discard it (R39). -/
def RegFile.write (r : RegFile) : RegWrite → RegFile
  | .s n v => if n = 0 then r else { r with s := tblPut 0#64 n v r.s }
  | .p n b => if n = 0 then r else { r with p := setBit r.p n b }
  | .v k w => { r with v := tblPut 0#32 k w r.v }
  | .q k m v => if k % 8 = 0 then r else { r with q := tblPut 0#16 k ((tblGet 0#16 k r.q &&& ~~~m) ||| (v &&& m)) r.q }

/-- Register writes in order. -/
def RegFile.writeAll (r : RegFile) (ws : List RegWrite) : RegFile := ws.foldl RegFile.write r

/-- The register a write names, as a key for collisions, pending registers and scoreboards: s and k registers from 0, p from
64, v registers from 1000 (physical cluster × 32 + register), q from 10000. -/
def RegWrite.key : RegWrite → Nat
  | .s n _ => n
  | .p n _ => 64 + n
  | .v k _ => 1000 + k / 16
  | .q k _ _ => 10000 + k

/-- Whether a write is discarded (R39). -/
def RegWrite.discarded : RegWrite → Bool
  | .s n _ => n == 0
  | .p n _ => n == 0
  | .v _ _ => false
  | .q k _ _ => k % 8 == 0

/-! ### Results in flight -/

/-- Registers an effect writes. -/
def Effect.regKeys : Effect → List Nat
  | .regs ws => (ws.filter (fun w => !w.discarded)).map RegWrite.key
  | _ => []

/-- An exposed result: to an s, p, v or q register, or a scale-queue entry (R165). -/
def Effect.exposed : Effect → Bool
  | .regs ws => ws.any (fun w => !w.discarded)
  | .scale _ => true
  | _ => false

/-- Whether a result in flight is exposed (R165). -/
def Landing.exposed (l : Landing) : Bool := l.eff.exposed

/-- The event that lands a result. -/
def Landing.event (core : Nat) (l : Landing) : Instr :=
  match l.eff with
  | .mmacRow _ => .tileRowLanding (coreId core) l.id
  | _ => .resultLanding (coreId core) l.id

/-- Landing order within a cycle: CSR writes come before hardware updates (R350). -/
def Landing.prio (l : Landing) : Nat :=
  match l.eff with
  | .csr _ _ => 2
  | _ => 5

/-- Whether an event lands a result of the core that comes after `l` in issue order (R40). -/
def Core.landsLater (c : Core) (core : Nat) (l : Landing) : Instr → Bool
  | .resultLanding c' id => c'.val == core &&
    c.inflight.any (fun m => m.id == id && (decide (l.issue < m.issue) || (m.issue == l.issue && decide (l.slot < m.slot))))
  | _ => false

/-- Insert a landing before the landings of its cycle that come after it in issue order. -/
def insertLanding (d : Due) (later : Instr → Bool) : List Due → List Due
  | [] => [d]
  | x :: t => if x.le d && !(x.at_ == d.at_ && x.prio == d.prio && later x.ev) then x :: insertLanding d later t else d :: x :: t

/-- Schedule a result's landing, and the row read of an `mmac` row that has not been read yet. Results of one cycle land in
issue order (R40). -/
def State.scheduleLanding (s : State) (core : Nat) (l : Landing) : State :=
  let s1 := match l.eff with
    | .mmacRow r => if r.arow.isNone then s.schedule r.capAt 3 (l.event core) else s
    | _ => s
  { s1 with agenda := insertLanding { at_ := l.at_, prio := l.prio, ev := l.event core } ((s.core core).landsLater core l) s1.agenda }

/-- A result `k` cycles later (R346). -/
def Landing.shift (k : Nat) (l : Landing) : Landing :=
  match l.eff with
  | .mmacRow r => { l with at_ := l.at_ + k, eff := .mmacRow { r with capAt := if r.arow.isNone then r.capAt + k else r.capAt } }
  | _ => { l with at_ := l.at_ + k }

/-- Put a result of the issuing bundle in flight; a bundle whose core froze in this cycle adds to the trap frame (R339). -/
def State.land (s : State) (delay : Nat) (eff : Effect) (flags : BitVec 6) (cluster lane busyTile busyCount : Nat) : State :=
  let n := s.fresh
  let s1 := n.2
  let c := s.core s.bnd.core
  let l : Landing :=
    { id := n.1, at_ := s.cycle + delay, issue := s.bnd.queued.getD s.cycle, slot := s.bnd.slot.num, pc := s.bnd.lat.pc, word := s.bnd.word,
      eff := eff, flags := flags, cluster := cluster, lane := lane, handler := s.bnd.handler, busyTile := busyTile,
      busyCount := busyCount }
  match c.frame with
  | some f =>
    if s.bnd.handler then
      (s1.modCore s.bnd.core (fun x => { x with inflight := x.inflight ++ [l] })).scheduleLanding s.bnd.core l
    else s1.modCore s.bnd.core (fun x => { x with frame := some { f with landings := f.landings ++ [l] } })
  | none => (s1.modCore s.bnd.core (fun x => { x with inflight := x.inflight ++ [l] })).scheduleLanding s.bnd.core l

/-- Put register writes in flight with no flag. -/
def State.landRegs (s : State) (delay : Nat) (ws : List RegWrite) : State := s.land delay (.regs ws) 0#6 0 0 0 0

/-! ### Launch end -/

/-- The cores that hold a launch. -/
def State.coresOf (s : State) (launch : Nat) : List Nat :=
  (s.cores.filter (fun e => match e.2.launch with | some l => l.launch == launch | none => false)).map (·.1)

/-- The dies of a list of cores. -/
def diesOf (cores : List Nat) : List Nat := cores.foldl (fun acc c => if acc.contains (dieOf c) then acc else acc ++ [dieOf c]) []

/-- End a launch early with a status: every core of it stops before its next bundle, with no trap, and its dies report (R343, R185). -/
def State.endLaunch (s : State) (launch status : Nat) : State :=
  let cs := s.coresOf launch
  let s1 := cs.foldl (fun acc c => acc.modCore c (fun x => { x with seq := { x.seq with run := .halted }, save := none })) s
  let s2 := { s1 with disp := { s1.disp with
    launches := listMod (fun x => x.id == launch && x.status == 0) (fun x => { x with status := status }) s1.disp.launches } }
  (diesOf cs).foldl (fun acc d => acc.scheduleFree 6 (.retirementReport (dieId d) launch)) s2

/-- A double trap: the core halts and its launch ends; TCAUSE keeps the first cause (R343). -/
def State.doubleTrap (s : State) (core : Nat) : State :=
  let c := s.core core
  let first := (c.csrGet 0x040).toNat % 256
  let s1 := s.modCore core (fun x => { x with seq := { x.seq with run := .halted } })
  match c.launch with
  | some l => s1.endLaunch l.launch (if first = 17 then 0x01 else 0x02)
  | none => s1

/-! ### Taking a trap (R338–R345) -/

/-- What a trap reports. -/
structure TrapReq where
  cause : Nat
  sub : Nat
  slot : Nat
  word : W32
  pc : BitVec 48
  fslots : BitVec 12
  rpl : BitVec 12
  reported : Option HeldCause
  goOn : Bool
  whole : Bool
  waits : Bool
  refetch : Bool
  retiring : Bool
  latched : Latched
  /-- status registers written with the trap: SFINFO, BKCONF, DFCODE, DFADDR, DFPC, IFADDR -/
  records : List (Nat × W64)
  /-- cycle at which the next bundle would have issued -/
  nextIssue : Nat
  /-- the fault of the operation at the head of the matrix queue -/
  mxHead : Bool := false
  /-- control effects of a bundle that did not issue as a whole -/
  ctl : Ctl := .reset

/-- TCAUSE (R345). -/
def tcauseWord (cause : Nat) (slot : Nat) (fslots : BitVec 12) : W64 :=
  BitVec.ofNat 64 (cause % 256 + fslots.toNat * 2 ^ 12 + (slot % 16) * 2 ^ 24)

/-- TINFO: the slot word, and the subcause of a timing fault (R345). Causes 11 and 14 hold zero. -/
def tinfoWord (cause sub : Nat) (word : W32) : W64 :=
  BitVec.ofNat 64 ((if cause = 11 ∨ cause = 14 then 0 else word.toNat) + (if cause = 5 then sub else 0) * 2 ^ 32)

/-- TSTATUS (R345). -/
def tstatusWord (rpl : BitVec 12) (td inreg fpe late held : Bool) : W64 :=
  BitVec.ofNat 64 (rpl.toNat + (if td then 2 ^ 12 else 0) + (if inreg then 2 ^ 13 else 0) + (if fpe then 2 ^ 14 else 0) +
    (if late then 2 ^ 15 else 0) + (if held then 2 ^ 16 else 0))

/-- A bundle address as TPC, DFPC and IFADDR hold it: bits [47:6] (R345, R363). -/
def pcWord (pc : BitVec 48) : W64 := BitVec.ofNat 64 (pc.toNat / 64 * 64)

/-- Interlocked mode: a level with IL set of the context that issues (R168); a trap handler does not stand in the frozen
context's loops. -/
def Core.interlocked (c : Core) : Bool :=
  match c.frame with
  | none => c.seq.loops.any (·.il)
  | some f => (cut (c.seq.loops.length - f.loopDepth) c.seq.loops).1.any (·.il)

/-- Whether a context runs in timed-dispatch mode: `DISPMODE` (R164). -/
def Core.timedContext (c : Core) : Bool := bitAt (c.csrGet 0x102) 0
/-- Timed-dispatch mode of a core: that of its context, and never in trap mode (R164, R342). -/
def Core.timed (c : Core) : Bool := c.frame.isNone && c.timedContext

/-- Bit of a slot in FSLOTS and RPL. -/
def slotBit (k : Nat) : BitVec 12 := BitVec.ofNat 12 (2 ^ k)

/-- The PRESENT mask of slot words. -/
def presentOf (words : List (Nat × W32)) : BitVec 12 := words.foldl (fun acc w => acc ||| slotBit w.1) 0#12

/-- Slots of an earlier trap that are still to be issued again: RPL goes on naming them while causes held for E are raised (R341, R345, R346). -/
def Core.pendingRpl (c : Core) : BitVec 12 := match c.replay with
  | some r => presentOf r.lat.words
  | none => 0#12

/-- Queued operations `k` cycles later (R346). -/
def TimedDispatch.shift (t : TimedDispatch) (k : Nat) : TimedDispatch :=
  { t with
      base := t.base + k,
      lastRelease := t.lastRelease + k,
      entries := t.entries.map (fun x => { x with release := x.release + k, decoded := x.decoded + k }) }

/-- The first free cycle of the matrix array after a freeze of `k` cycles from `c`. -/
def Matrix.delay (m : Matrix) (c k : Nat) : Matrix := { m with arrayFree := if m.arrayFree ≤ c then m.arrayFree else m.arrayFree + k }

/-- The core in its freeze: results that land after this cycle and queued operations go to the frame, the trap CSRs are
written and the sequencer stops (R339, R345). -/
def Core.freeze (c : Core) (now : Nat) (t : TrapReq) : Core :=
  let late := match c.slip with
    | some w => now - w.1
    | none => 0
  let slipped := match c.slip with
    | some w => w.2.map (Landing.shift late)
    | none => []
  let f : TrapFrame :=
    { c := now, landings := slipped ++ c.inflight.filter (fun l => decide (now < l.at_)), td := c.td.shift late, transfer := c.seq.transfer,
      latched := t.latched, ctl := t.ctl, whole := t.whole, waits := t.waits,
      reported := t.reported, goOn := t.goOn, retiring := t.retiring, refetch := t.refetch, loopDepth := c.seq.loops.length,
      undo := (t.records.map Prod.fst ++ [0x040, 0x041, 0x042, 0x043]).map (fun n => (n, c.csrGet n)), held := c.owed, fpe := c.owedFpe,
      pc := if t.goOn || c.timed then c.seq.pc else t.pc, nextIssue := t.nextIssue, preBoundary := c.seq.preBoundary,
      ilDrain := c.seq.ilDrain, ilLeave := c.seq.ilLeave, delay := c.seq.delay, keepWindow := c.seq.keepWindow, mxHead := t.mxHead }
  let c1 := c.csrSetAll (t.records ++
    [(0x040, tcauseWord t.cause t.slot t.fslots), (0x042, pcWord t.pc), (0x043, tinfoWord t.cause t.sub t.word),
     (0x041, tstatusWord (if t.goOn then c.pendingRpl ||| t.rpl else t.rpl) c.timed (!c.belay.regions.isEmpty) c.owedFpe t.reported.isSome (!c.owed.isEmpty))])
  { c1 with
    frame := some f,
    slip := none,
    owed := [],
    owedFpe := false,
    inflight := c.inflight.filter (fun l => decide (l.at_ ≤ now)),
    td := { TimedDispatch.reset with base := c.td.base },
    mx := match c.slip with
      | some w => c.mx.delay w.1 late
      | none => c.mx,
    seq := { c.seq with run := .frozen, transfer := none, delay := 0, idle := 0, waitFrom := none, waitEntry := none, preBoundary := false,
                        ilDrain := false, ilLeave := false, keepWindow := false } }

/-- The loads of a context that a core has in flight land `k` cycles later (R77, R346). -/
def State.delayAccesses (s : State) (core k : Nat) (handler : Bool) : State :=
  s.modRope (ropeOf core) (fun r =>
    { r with accs := listMod (fun a => a.core == core && a.handler == handler) (fun a => { a with shift := a.shift + k }) r.accs })

/-- TAKE A TRAP: freeze the core at the end of this cycle and enter the handler at c + 8 (R339, R342); in trap mode a
second cause is a double trap (R343). A trap that ends a slip leaves what the core had in flight as late as the slip has made it (R77). -/
def State.enterTrap (s : State) (core : Nat) (t : TrapReq) : State :=
  match (s.core core).frame with
  | some _ => s.doubleTrap core
  | none =>
    let s1 := match (s.core core).slip with
      | some w => s.delayAccesses core (s.cycle - w.1) false
      | none => s
    (s1.modCore core (fun c => c.freeze s.cycle t)).schedule (s.cycle + 8) 0 (.trapHandlerEntry (coreId core))

/-- The trap request of a fault of the issuing bundle. -/
def State.bundleReq (s : State) (cause sub slot : Nat) (word : W32) (fslots rpl : BitVec 12) (waits : Bool)
    (records : List (Nat × W64)) : TrapReq :=
  { cause := cause, sub := sub, slot := slot, word := word, pc := s.bnd.lat.pc, fslots := fslots, rpl := rpl, reported := none,
    goOn := false, whole := false, waits := waits, refetch := false, retiring := false, latched := s.bnd.lat, records := records, nextIssue := s.cycle }

/-- A fault of the slot now issuing (R128, R129): the bundle's first fault takes the trap; later ones join FSLOTS and RPL, so that each raises its own
trap at the replay (R341). `replay` says whether `eret` issues the slot of the reported fault again (the column RPL of R338). A slot that is only asked
for its registers raises none. -/
def State.slotFault (s : State) (cause sub : Nat) (replay : Bool) (records : List (Nat × W64)) : State :=
  let k := s.bnd.slot.num
  let bit := slotBit k
  let add := if replay || s.bnd.faulted != 0#12 then bit else 0#12
  let b := { s.bnd with faulted := s.bnd.faulted ||| bit, rpl := s.bnd.rpl ||| add,
                        firstCause := s.bnd.firstCause.or (some (cause, sub, k)) }
  if s.bnd.probing then s
  else if s.bnd.faulted = 0#12 then
    ({ s with bnd := b }).enterTrap s.bnd.core (s.bundleReq cause sub k s.bnd.word bit add false records)
  else
    ({ s with bnd := b }).modCore s.bnd.core (fun c =>
      (c.csrSet 0x040 (c.csrGet 0x040 ||| BitVec.ofNat 64 (bit.toNat * 2 ^ 12))).csrSet 0x041
        (c.csrGet 0x041 ||| BitVec.ofNat 64 add.toNat))

/-- Illegal instruction and illegal operand of the issuing slot (R128). -/
def State.illegalInstruction (s : State) : State := s.slotFault 2 0 true []
def State.illegalOperand (s : State) : State := s.slotFault 3 0 true []
/-- A timing fault of the issuing slot with its subcause (R345). -/
def State.timingFault (s : State) (sub : Nat) : State := s.slotFault 5 sub true []

/-- Order held causes by the issue of their accesses, then slot (R341). DEDUCED, unsafe: log entry 16. -/
def insertHeld (h : HeldCause) : List HeldCause → List HeldCause
  | [] => [h]
  | x :: t => if x.issue < h.issue ∨ (x.issue = h.issue ∧ x.slot ≤ h.slot) then x :: insertHeld h t else h :: x :: t

/-- The trap request of a late cause: RPL is empty (R339). -/
def lateReq (h : HeldCause) (retiring : Bool) (nextIssue : Nat) : TrapReq :=
  { cause := h.cause, sub := h.sub, slot := h.slot, word := h.word, pc := h.pc, fslots := slotBit h.slot, rpl := 0#12,
    reported := some h, goOn := true, whole := false, waits := false, refetch := false, retiring := retiring, latched := .reset,
    records := h.records, nextIssue := nextIssue }

/-- The trap CSRs rewritten so that they report a late cause in place of the one reported before in the same cycle. -/
def Core.report (c : Core) (h : HeldCause) (fpe held : Bool) : Core :=
  c.csrSetAll (h.records ++ [(0x040, tcauseWord h.cause h.slot (slotBit h.slot)), (0x042, pcWord h.pc),
    (0x043, tinfoWord h.cause h.sub h.word),
    (0x041, tstatusWord c.pendingRpl (bitAt (c.csrGet 0x041) 12) (bitAt (c.csrGet 0x041) 13) fpe true held)])

/-- The core with a cause held for E (R341). -/
def Core.hold (c : Core) (f : TrapFrame) (h : HeldCause) : Core :=
  { (c.csrSet 0x041 (c.csrGet 0x041 ||| BitVec.ofNat 64 (2 ^ 16))) with frame := some { f with held := insertHeld h f.held } }

/-- The first cycle in which a core can issue its next bundle after an event found in cycle `now`: a bundle that waits then has not issued in
it (R346). -/
def Core.firstIssue (c : Core) (now : Nat) : Nat := if c.seq.waitFrom.isSome then max (now + 1) c.seq.nextIssue else c.seq.nextIssue

/-- A cause found late (R339, R341). With no trap in this cycle it is taken. Beside an FP event it is reported and the
event waits (FPE). Beside another late cause of this cycle the one earliest in issue order is reported. Otherwise it is
held. In trap mode a cause of the handler is a double trap. A core under self-test raises it as it resumes. -/
def State.lateCause (s : State) (core : Nat) (h : HeldCause) (ofHandler : Bool) : State :=
  let c := s.core core
  match c.frame with
  | none =>
    if c.seq.run = .testing then s.modCore core (fun x => { x with owed := insertHeld h x.owed })
    else if c.seq.run = .idle ∨ c.seq.run = .halted then s
    else s.enterTrap core (lateReq h (c.seq.run == .retiring) (c.firstIssue s.cycle))
  | some f =>
    if ofHandler then s.doubleTrap core
    else if f.c = s.cycle ∧ f.reported.isNone ∧ (c.csrGet 0x040).toNat % 256 = 14 then
      s.modCore core (fun x => { (x.report h true false) with frame := some { f with reported := some h, fpe := true } })
    else match f.reported with
      | some r =>
        if f.c = s.cycle ∧ (h.issue < r.issue ∨ (h.issue = r.issue ∧ h.slot < r.slot)) then
          s.modCore core (fun x =>
            { (x.report h f.fpe true) with frame := some { f with reported := some h, held := insertHeld r f.held } })
        else s.modCore core (fun x => x.hold f h)
      | none => s.modCore core (fun x => x.hold f h)

/-! ### Return from a trap (R346) -/

/-- The first cycle after `r` congruent with `c` modulo 64 (R61, R346). -/
def resumeCycle (c r : Nat) : Nat := r + 1 + (c + 63 * (r + 1)) % 64

/-- The slots `eret` issues again, from the frame's latched operands and the RPL that TSTATUS holds (R346). -/
def TrapFrame.replay (f : TrapFrame) (rpl : BitVec 12) (e : Nat) : Replay :=
  { at_ := e, lat := { f.latched with words := f.latched.words.filter (fun w => bitAt rpl w.1) }, ctl := f.ctl,
    whole := f.whole, waits := f.waits }

/-- The core after `eret` at cycle `now`: results, queued operations and the pending transfer come back `k` cycles later,
the RPL slots are to be issued at E from their latched operands, and trap mode ends (R346). -/
def Core.unfreeze (c : Core) (f : TrapFrame) (now : Nat) : Core :=
  let e := resumeCycle f.c now
  let k := e - f.c
  let td := f.td.shift k
  let rpl := if f.fpe then 0xFFF#12 else BitVec.ofNat 12 (c.csrGet 0x041).toNat
  { c with
    frame := none,
    owed := f.held,
    owedFpe := f.fpe,
    owedAt := e,
    inflight := c.inflight ++ f.landings.map (Landing.shift k),
    td := td,
    replay :=
      if f.goOn then
        c.replay.map (fun r => { r with at_ := r.at_ + k, lat := { r.lat with words := r.lat.words.filter (fun w => bitAt rpl w.1) } })
      else if f.refetch || f.retiring then none
      else some (f.replay rpl e),
    mx := let m := c.mx.delay f.c k
          if f.mxHead && !bitAt rpl 7 then { m with queue := m.queue.drop 1 } else m,
    seq := { c.seq with
      run := if f.retiring then .retiring else .running,
      transfer := f.transfer,
      pc := f.pc,
      idle := 0,
      waitFrom := if f.waits then some e else none,
      waitEntry := none,
      delay := f.delay,
      keepWindow := f.keepWindow,
      preBoundary := f.preBoundary && !f.waits,
      ilDrain := f.ilDrain,
      ilLeave := f.ilLeave,
      nextIssue := if f.goOn then max e (f.nextIssue + k) else e } }

/-- What follows a freeze of `k` cycles once a core's results are in flight again: their landings, the delay of the loads it had in
flight (R77), and its matrix queue, which starts at `at_`. Its queued operations find their release at its turns. -/
def State.thaw (s : State) (core k at_ : Nat) (handler : Bool) (landings : List Landing) : State :=
  let s1 := (landings.foldl (fun acc l => acc.scheduleLanding core l) s).delayAccesses core k handler
  if (s1.core core).mx.queue.isEmpty then s1 else s1.schedule at_ 1 (.matrixQueueStart (coreId core))

/-- RETURN FROM A TRAP at this cycle (R346). -/
def State.leaveTrap (s : State) (core : Nat) : State :=
  match (s.core core).frame with
  | none => s
  | some f =>
    let e := resumeCycle f.c s.cycle
    (s.modCore core (fun c => c.unfreeze f s.cycle)).thaw core (e - f.c) e false (f.landings.map (Landing.shift (e - f.c)))

/-! ### Fields of a byte string -/

/-- `n` bytes at an offset, and their little-endian value. -/
def octets (b : List Byte) (off n : Nat) : List Byte := (cut n (b.drop off)).1
def natAt (b : List Byte) (off n : Nat) : Nat := leNat (octets b off n)
/-- Whether `n` bytes at an offset are zero. -/
def zeroAt (b : List Byte) (off n : Nat) : Bool := (octets b off n).all (· == 0#8)
/-- Rounded up to a multiple. -/
def roundUp (n m : Nat) : Nat := (n + m - 1) / m * m
/-- Bytes with a range read as zero. -/
def blanked (b : List Byte) (off n : Nat) : List Byte := let r := cut off b; r.1 ++ copies (cut n r.2).1.length 0#8 ++ (cut n r.2).2

end Sys2Proof.Machine
end

