-- ==== Sys2Proof/Machine/Operands.lean ====
section
/-!
DEFINITION. Operand forms of the slots (R117–R123, R189, R190, R228): registers and literals as the issuing bundle latched
them, the checks every operation of a slot makes before it acts, and the results of elementwise vector operations.
-/

namespace Sys2Proof.Machine

/-! ### Physical units (R114, R376) -/

/-- Unit keys: scalar ALUs 0–2, columns 3 + 6 p + e, XF units 57 + p, XT units 66 + p, the matrix array 75. -/
def colKey (p e : Nat) : Nat := 3 + 6 * p + e
def xfKey (p : Nat) : Nat := 57 + p
def xtKey (p : Nat) : Nat := 66 + p
def arrayKey : Nat := 75

/-- The recorded state of a unit by its key (R367). -/
def CoreMap.keyState (m : CoreMap) (key : Nat) : Nat :=
  if key < 3 then m.scalSt key
  else if key < 57 then m.colSt ((key - 3) / 6) ((key - 3) % 6)
  else if key < 66 then m.xfSt (key - 57)
  else if key < 75 then m.xtSt (key - 66)
  else m.arraySt

/-- Whether a unit runs at half rate: listed as half, or retiring and half when it became so (R367). -/
def CoreMap.halfRate (m : CoreMap) (key : Nat) : Bool := m.keyState key == 1 || (m.keyState key == 2 && m.slow.contains key)

/-- Whether code sees a unit at half speed: a column where one of its bound clusters runs at half rate (R131, R369). DEDUCED, unsafe: log entry 73. -/
def CoreMap.keyHalf (m : CoreMap) (key : Nat) : Bool :=
  if 3 ≤ key ∧ key < 57 then (upTo 8).any (fun c => m.halfRate (colKey (m.phys c) ((key - 3) % 6))) else m.halfRate key

/-- The unit of a die that a key of a core names. -/
def unitRefOf (core key : Nat) : UnitRef :=
  if key < 3 then .scalar (Fin.ofNat 64 core) (Fin.ofNat 3 key)
  else if key < 57 then .column (Fin.ofNat 64 core) (Fin.ofNat 9 ((key - 3) / 6)) (Fin.ofNat 6 ((key - 3) % 6))
  else if key < 66 then .xf (Fin.ofNat 64 core) (Fin.ofNat 9 (key - 57))
  else if key < 75 then .xt (Fin.ofNat 64 core) (Fin.ofNat 9 (key - 66))
  else .matrix (Fin.ofNat 64 core)

/-- The issuing core's record in its binding map (R379). -/
def State.bm (s : State) : CoreMap := (s.bindMap s.bnd.core).core s.bnd.core
/-- The issuing core's record in the map in force (R377). -/
def State.mapNow (s : State) : CoreMap := ((s.die (dieOf s.bnd.core)).mapAt s.cycle).core s.bnd.core

/-! ### Detected errors (R317) -/

/-- A detected error of a core in this cycle: its rollback begins when the cycle's other events are done (R319, R320). -/
def State.detect (s : State) (core : Nat) : State := s.schedule s.cycle 6 (.detectedErrorRollback (coreId core))

/-- Consume stored words: a correctable error is corrected and counted, an uncorrectable one is a detected error (R41). -/
def State.consume (s : State) (core : Nat) (hit : StorageLoc → Bool) : State :=
  if s.flips.isEmpty then s
  else
    let hits := s.flips.filter (fun f => hit f.loc)
    let n := (hits.filter (fun f => !f.bad)).length
    let s1 := { s with flips := s.flips.filter (fun f => !(hit f.loc && !f.bad)) }
    let s2 := if n = 0 then s1
      else s1.modCore core (fun c => c.count s.cycle 0x008 n)
    if hits.any (·.bad) then s2.detect core else s2

/-- The register key a storage location of a core stands for. -/
def locRegKey (core : Nat) : StorageLoc → Option Nat
  | .scalarReg c n => if c.val = core then some n.val else none
  | .vectorLane c p r _ => if c.val = core then some (1000 + p.val * 32 + r.val) else none
  | .lanePred c p q => if c.val = core then some (10000 + qKey p.val q.val) else none
  | _ => none

/-- Whether a location belongs to one of the registers read: the predicates p1–p7 (keys 65 to 71) share one word (R39, R41). -/
def regHit (core : Nat) (keys : List Nat) (l : StorageLoc) : Bool :=
  match locRegKey core l, l with
  | some k, _ => keys.contains k
  | none, .scalarPreds c => c.val == core && keys.any (fun k => decide (64 < k) && decide (k < 72))
  | none, _ => false

/-! ### What every operation of a slot checks -/

/-- Registers whose far or matrix-queue result is pending (R132, R262), as register keys. -/
def Core.pendingKeys (c : Core) : List Nat :=
  (c.far.ops.filter (fun f => f.phase != .landed && f.dest != 0)).map (·.dest) ++ c.mx.pendingV.map (fun k => 1000 + k)

/-- Units, registers read and registers written by an operation. `reach` lists the units checked against the map in force;
`units` those it occupies. -/
structure SlotUse where
  reach : List Nat
  units : List Nat
  reads : List Nat
  writes : List Nat
  /-- the operation holds a half-speed unit for its next cycle; a division does not (R190) -/
  holds : Bool
  /-- the operation takes an sq (R210) -/
  rs : Bool
  /-- predicates read as guard or operand, as register keys: a guard that reads 0 has been read too -/
  preds : List Nat := []

/-- Take `RNDSEQ` for the slot as a latched operand; a replayed slot keeps its own (R210). -/
def State.takeSq (s : State) : State :=
  if s.bnd.lat.sq.any (fun e => e.1 == s.bnd.slot.num) then s
  else
    let c := s.core s.bnd.core
    let q := (c.csrGet 0x004).setWidth 32
    let s1 := s.modCore s.bnd.core (fun x => x.count s.cycle 0x004 1)
    { s1 with bnd := { s1.bnd with lat := { s1.bnd.lat with sq := s1.bnd.lat.sq ++ [(s.bnd.slot.num, q)] } } }

/-- The sq of the issuing slot. -/
def State.sq (s : State) : BitVec 32 := tblGet 0#32 s.bnd.slot.num s.bnd.lat.sq

/-- Whether a unit cannot accept an operation in this cycle (R114, R116). DEDUCED, unsafe: log entry 23. -/
def State.unitHeld (s : State) (m : CoreMap) (c : Core) (key : Nat) : Bool :=
  let last := tblGet 0 key c.units
  last / 2 == s.cycle + 1 || (last == 2 * s.cycle + 1 && m.keyHalf key)

/-- The units accept the operation (R114). -/
def Core.accepts (c : Core) (cycle : Nat) (u : SlotUse) : Core :=
  { c with units := u.units.foldl (fun acc k => tblSet k (2 * (cycle + 1) + (if u.holds then 1 else 0)) acc) c.units }

/-- The units accept the operation (R114) and count as used since their last passing test (R317). -/
def Core.occupy (c : Core) (cycle : Nat) (u : SlotUse) : Core :=
  { c.accepts cycle u with used := c.used ++ u.units.filter (fun k => !c.used.contains k) }

/-- Whether a slot of the issuing bundle reads registers: a replayed slot has them latched (R346). -/
def Bundle.readsRegs (b : Bundle) : Bool := !b.replaying

/-- The checks and bookkeeping common to the operations that run on a unit, in this order: a dead unit is a map mismatch
(R128, R376), a guard that reads 0 ends the operation (R119), a unit declared dead is a unit failure (R338), a unit that
cannot accept the operation and a pending register are timing faults (R116, R132). Then the operands are consumed (R41) and
the units occupied. An operation whose guard reads 0 is released like any other, so it occupies its unit (R111, R114); it raises no timing fault and
performs nothing else (R119). DEDUCED, unsafe: log entry 79. A slot that is only asked for its registers does nothing (R168). -/
def State.slotOp (s : State) (u : SlotUse) (guard : Bool) (body : State → State) : State :=
  let now := s.mapNow
  if s.bnd.probing then { s with bnd := { s.bnd with uses := s.bnd.uses ++ u.reads ++ u.writes } }
  else if u.reach.any (fun k => now.keyState k == 3) then s.slotFault 19 0 false []
  else
    let s0 := if s.bnd.readsRegs then s.consume s.bnd.core (regHit s.bnd.core u.preds) else s
    if !guard then s0.modCore s0.bnd.core (fun x => x.accepts s0.cycle u)
    else
    let s1 := if u.rs then s0.takeSq else s0
    let c := s1.core s1.bnd.core
    let m := s1.bm
    if u.units.any (fun k => (s1.die (dieOf s1.bnd.core)).failed.any (fun e => e.1 == unitRefOf s1.bnd.core k && decide (e.2 < s1.cycle))) then
      s1.slotFault 18 0 false []
    else if u.units.any (s1.unitHeld m c) then s1.timingFault 5
    else if c.pendingKeys.any (fun k => (s1.bnd.readsRegs && u.reads.contains k) || u.writes.contains k) then s1.timingFault 2
    else
      let s2 := if s1.bnd.readsRegs then s1.consume s1.bnd.core (regHit s1.bnd.core u.reads) else s1
      body (s2.modCore s2.bnd.core (fun x => x.occupy s2.cycle u))

/-- A predicate read as an operand: named for the scoreboard of an interlocked loop, and consumed where the operation reads it (R41, R168). -/
def State.readPred (s : State) (reads : Bool) (p : Nat) : State :=
  if s.bnd.probing then { s with bnd := { s.bnd with uses := s.bnd.uses ++ [64 + p] } }
  else if reads && s.bnd.readsRegs then s.consume s.bnd.core (regHit s.bnd.core [64 + p])
  else s

/-- The same for an operation that names registers and no unit of the map (LD, ST, CE, SY). -/
def State.portOp (s : State) (reads writes : List Nat) (body : State → State) : State :=
  s.slotOp { reach := [], units := [], reads := reads, writes := writes, holds := false, rs := false } true body

/-! ### Scalar operands (R118, R189, R190) -/

/-- Register key of a scalar register name: in trap mode names 16–31 are k0–k15, keys 32–47 (R189). -/
def State.sIdx (s : State) (n : BitVec 5) : Nat := if s.bnd.handler && decide (16 ≤ n.toNat) then n.toNat + 16 else n.toNat
/-- A scalar register as latched at issue, under the names of SA, SB and the CSR forms. -/
def State.rdS (s : State) (n : BitVec 5) : W64 := s.bnd.lat.regs.sGet (s.sIdx n)
/-- A scalar register as latched at issue, in a slot whose numbers always name s0–s31 (R342). -/
def State.rdPlain (s : State) (n : BitVec 5) : W64 := s.bnd.lat.regs.sGet n.toNat
/-- A pool word (R107). -/
def State.lit (s : State) (i : Nat) : W32 := nth 0#32 s.bnd.lat.pool i

/-- Operand b of a scalar form (R118). -/
def State.opB (s : State) (o : ScalarOp) : W64 :=
  if o.l = 0#1 then s.rdS o.b
  else
    let i := bitsNat o.b 3 0
    if bitAt o.b 4 then (s.lit (i + 1)) ++ (s.lit i) else (s.lit i).signExtend 64

/-- The landing delay of a scalar form on its ALU (R130, R131). -/
def State.aluDelay (s : State) (o : ScalarOp) (nominal : Nat) : Nat :=
  unitDelay nominal (s.bm.keyHalf o.unit.toNat) (s.bm.scalAdd o.unit.toNat)

/-- Register keys a scalar form reads. -/
def State.scalarReads (s : State) (o : ScalarOp) (a b d : Bool) : List Nat :=
  (if a then [s.sIdx o.a] else []) ++ (if b && o.l == 0#1 then [s.sIdx o.b] else []) ++ (if d then [s.sIdx o.d] else [])

/-- A scalar operation: unit, guard and registers checked, then its effect. -/
def State.scalarSlot (s : State) (o : ScalarOp) (a b d holds rs : Bool) (writes : List Nat) (body : State → State) : State :=
  s.slotOp { reach := [o.unit.toNat], units := [o.unit.toNat], reads := s.scalarReads o a b d, writes := writes, holds := holds,
             rs := rs, preds := [64 + o.guard.toNat] } (s.bnd.lat.regs.pGet o.guard.toNat) body

/-- An operation that writes sD. -/
def State.toS (s : State) (o : ScalarOp) (b d holds rs : Bool) (nominal : Nat) (f : State → W64 × FpFlags) : State :=
  s.scalarSlot o true b d holds rs [s.sIdx o.d] (fun t =>
    let r := f t
    t.land (s.aluDelay o nominal) (.regs [.s (s.sIdx o.d) r.1]) r.2 0 0 0 0)

/-- An operation that writes pD. -/
def State.toP (s : State) (o : ScalarOp) (nominal : Nat) (f : State → Bool × FpFlags) : State :=
  s.scalarSlot o true true false true false [] (fun t =>
    let r := f t
    t.land (s.aluDelay o nominal) (.regs [.p (bitsNat o.d 2 0) r.1]) r.2 0 0 0 0)

/-! ### Vector operands (R109, R121, R163, R206) -/

/-- Enabled logical clusters (R109). -/
def State.clusters (s : State) : List Nat := (upTo 8).filter (fun c => bitAt s.bnd.lat.cmask c)
/-- Physical number of a vector register name under the latched base (R163). -/
def State.vreg (s : State) (n : Nat) : Nat := physReg s.bnd.lat.rrb n
/-- One lane of a vector register of a physical cluster, as latched at issue. -/
def State.vAt (s : State) (p reg lane : Nat) : W32 := s.bnd.lat.regs.vGet (vKey p reg lane)
/-- A lane predicate of a physical cluster, as latched at issue. -/
def State.qAt (s : State) (p q : Nat) : BitVec 16 := s.bnd.lat.regs.qGet p q
/-- Register key of a vector register of a physical cluster. -/
def vRegKey (p reg : Nat) : Nat := 1000 + p * 32 + reg
/-- Register keys of the named vector registers and lane predicate in physical clusters. -/
def State.vecKeys (s : State) (ps regs qs : List Nat) : List Nat :=
  ps.flatMap (fun p => regs.map (fun r => vRegKey p (s.vreg r)) ++ (qs.filter (· != 0)).map (fun q => 10000 + qKey p q))

/-- Element width in bits of a TYPE code (R206). -/
def typeWidth (ty : Nat) : Nat := if ty = 1 ∨ ty = 2 ∨ ty = 4 then 16 else if ty = 5 ∨ ty = 6 then 8 else 32
/-- Elements per lane. -/
def typeElems (ty : Nat) : Nat := 32 / typeWidth ty
/-- Whether a TYPE is floating, and its format. -/
def typeFloat (ty : Nat) : Bool := decide (ty ≤ 2)
def typeFmt (ty : Nat) : FpFmt := if ty = 0 then fp32 else if ty = 1 then bf16 else fp16
/-- Whether an integer TYPE is signed. -/
def typeSigned (ty : Nat) : Bool := ty != 6
/-- Element j of a lane. -/
def elemAt (w j : Nat) (x : W32) : Nat := field x.toNat (w * j) w

/-- A lane built from its elements of `w` bits, element 0 lowest, with the flags they raise. -/
def packElems (w : Nat) : List FpRes → Nat × FpFlags
  | [] => (0, 0#6)
  | r :: t => let u := packElems w t; (r.bits % 2 ^ w + 2 ^ w * u.1, r.fl ||| u.2)

/-- A lane computed element by element. -/
def perElem (w : Nat) (f : Nat → FpRes) : W32 × FpFlags :=
  let r := packElems w ((upTo (32 / w)).map f)
  (BitVec.ofNat 32 r.1, r.2)

/-- One lane of a result: logical cluster, physical cluster, lane, physical register, word and flags. -/
structure LaneOut where
  cluster : Nat
  phys : Nat
  reg : Nat
  lane : Nat
  w : W32
  fl : FpFlags

/-- The flags of a result and the first cluster and lane that raised one (R219). -/
def laneFlags (outs : List LaneOut) : FpFlags := outs.foldl (fun acc o => acc ||| o.fl) 0#6
def firstRaised (outs : List LaneOut) : Nat × Nat :=
  match outs.find? (fun o => o.fl != 0#6) with
  | some o => (o.cluster, o.lane)
  | none => (0, 0)

/-- Land lanes of vector registers together. -/
def State.landLanes (s : State) (delay : Nat) (outs : List LaneOut) : State :=
  let f := firstRaised outs
  s.land delay (.regs (outs.map (fun o => .v (vKey o.phys o.reg o.lane) o.w))) (laneFlags outs) f.1 f.2 0 0

/-- The landing delay of a vector form on a column: one value for every cluster (R131, R369). -/
def State.colDelay (s : State) (e nominal : Nat) : Nat := unitDelay nominal (s.bm.keyHalf (colKey 0 e)) (s.bm.effAdd e)

/-- A vector operation: the column in every bound cluster is checked, that of every enabled cluster is occupied. `srcs` and
`dsts` name vector registers, `qd` the lane predicates written. -/
def State.vecSlot (s : State) (o : VecOp) (srcs dsts qd sRegs : List Nat) (rs : Bool) (body : State → State) : State :=
  let m := s.bm
  let ps := s.clusters.map m.phys
  s.slotOp
    { reach := if ps.isEmpty then [] else (upTo 8).map (fun c => colKey (m.phys c) o.unit.toNat),
      units := ps.map (fun p => colKey p o.unit.toNat),
      reads := s.vecKeys ps srcs [o.q.toNat] ++ sRegs,
      writes := s.vecKeys ps dsts qd, holds := true, rs := rs } true body

/-- Operand b of a lane: the register, or the pool word in every lane (R121). -/
def State.vecB (s : State) (o : VecOp) (p lane : Nat) : W32 :=
  if o.l = 0#1 then s.vAt p (s.vreg o.b.toNat) lane else s.lit (bitsNat o.b 3 0)

/-- The source list of a form with operand b. -/
def srcAB (o : VecOp) : List Nat := o.a.toNat :: (if o.l = 0#1 then [o.b.toNat] else [])

/-- The lanes of v[d] that an elementwise form writes: `f` gets the physical cluster and the lane (R228). -/
def State.laneMap (s : State) (m : CoreMap) (reg : Nat) (mask : Nat → BitVec 16) (f : Nat → Nat → W32 × FpFlags) : List LaneOut :=
  s.clusters.flatMap (fun c =>
    let p := m.phys c
    let q := mask p
    ((upTo 16).filter (fun i => bitAt q i)).map (fun i =>
      let r := f p i
      { cluster := c, phys := p, reg := reg, lane := i, w := r.1, fl := r.2 }))

/-- An elementwise form of v[a], b and, with `useD`, v[d] (R228). -/
def State.vecLanes (s : State) (o : VecOp) (useB useD : Bool) (nominal : Nat) (f : W32 → W32 → W32 → W32 × FpFlags) : State :=
  let srcs := (if useB then srcAB o else [o.a.toNat]) ++ (if useD then [o.d.toNat] else [])
  s.vecSlot o srcs [o.d.toNat] [] [] false (fun t =>
    t.landLanes (s.colDelay o.unit.toNat nominal)
      (s.laneMap s.bm (s.vreg o.d.toNat) (fun p => s.qAt p o.q.toNat) (fun p i =>
        f (s.vAt p (s.vreg o.a.toNat) i) (if useB then s.vecB o p i else 0#32) (if useD then s.vAt p (s.vreg o.d.toNat) i else 0#32))))

/-! ### The bundle word (R106–R108) -/

/-- Word i of a bundle. -/
def wordAt (b : List Byte) (i : Nat) : W32 := BitVec.ofNat 32 (leNat (octets b (4 * i) 4))

/-- Present slots take the words from i on, in slot order (R107). -/
def slotWords (b : List Byte) : List Nat → Nat → List (Nat × W32)
  | [], _ => []
  | k :: t, i => (k, wordAt b i) :: slotWords b t (i + 1)

/-- A bundle taken apart. -/
structure BundleWord where
  cmask : BitVec 8
  time : Nat
  words : List (Nat × W32)
  pool : List W32
  deriving DecidableEq, Repr

/-- A bundle from its 64 bytes (R106, R107). -/
def bundleWord (b : List Byte) : BundleWord :=
  let h := wordAt b 0
  let ks := (upTo 12).filter (fun i => bitAt h i)
  { cmask := h.extractLsb' 24 8, time := bitsNat h 23 12, words := slotWords b ks 1,
    pool := (upTo (15 - ks.length)).map (fun i => wordAt b (ks.length + 1 + i)) }

/-- The slot of a number. -/
def slotOf (n : Nat) : SlotKind := nth .sy SlotKind.all n

/-- Slots that hold a well-formed operation, with it. -/
def opsOf (words : List (Nat × W32)) : List (Nat × Instr) :=
  words.filterMap (fun w => match decodeSlot (slotOf w.1) w.2 with
    | .ok i => some (w.1, i)
    | .error _ => none)

/-- Unit keys that a bundle's operations reach under a binding (R114, R376). -/
def unitsReached (m : CoreMap) (w : BundleWord) : List Nat :=
  let ps := ((upTo 8).filter (fun c => bitAt w.cmask c)).map m.phys
  (opsOf w.words).flatMap (fun o =>
    match w.words.find? (fun x => x.1 == o.1) with
    | none => []
    | some x =>
      if o.1 ≤ 1 then [bitsNat x.2 23 22]
      else if o.1 ≤ 4 then (if ps.isEmpty then [] else (upTo 8).map (fun c => colKey (m.phys c) (bitsNat x.2 21 19)))
      else if o.1 = 5 then ps.map xfKey
      else if o.1 = 6 then ps.map xtKey
      else if o.1 = 7 then [arrayKey]
      else [])

end Sys2Proof.Machine
end

