-- ==== Sys2Proof/Machine/Flags.lean ====
section
/-!
DEFINITION. Floating-point flags: their groups in `FPFLAGS`, the first event in `FPFIRST`, and trap enables (R218–R220);
and the order in which results of one cycle land, with the collision of two of them (R40).
-/

namespace Sys2Proof.Machine

/-- CSR numbers of the flag registers (R363). -/
def csrFpflags : Nat := 0x001
def csrFpfirst : Nat := 0x002

/-- Position of a slot's group in `FPFLAGS`, for the slots that raise flags (R218). -/
def flagGroup (slot : Nat) : Option Nat :=
  if slot ≤ 5 then some (6 * slot) else if slot = 7 then some 36 else none

/-- `FPFLAGS` with the flags of a slot's result set: sticky (R218). -/
def setFlags (old : W64) (slot : Nat) (fl : FpFlags) : W64 :=
  match flagGroup slot with
  | some k => old ||| (fl.setWidth 64 <<< k)
  | none => old

/-- The trap enables TEN (R218). -/
def trapEnables (fpflags : W64) : FpFlags := (fpflags >>> 48).setWidth 6

/-- The record of a first event (R219). SA, SB and MX record cluster 0 and lane 0. -/
def fpfirstWord (fl : FpFlags) (slot cluster lane : Nat) (pc : BitVec 48) : W64 :=
  let vec := 2 ≤ slot ∧ slot ≤ 5
  BitVec.ofNat 64 (2 ^ 63 + fl.toNat * 2 ^ 57 + (slot % 16) * 2 ^ 53 + (if vec then cluster % 8 else 0) * 2 ^ 50 +
    pc.toNat / 64 * 64 + (if vec then lane % 16 else 0))

/-- Whether a result comes before another: by issue cycle, then slot (R40, R73). -/
def Landing.before (a b : Landing) : Bool := decide (a.issue < b.issue) || (a.issue == b.issue && decide (a.slot < b.slot))

/-- The first of a list in issue order. -/
def earliestLanding : List Landing → Option Landing
  | [] => none
  | l :: t => match earliestLanding t with
    | none => some l
    | some m => if m.before l then some m else some l

/-- Whether two results belong to one operation: an operation may land in parts, one for each cluster. -/
def Landing.sameOp (a b : Landing) : Bool := a.issue == b.issue && a.slot == b.slot && a.pc == b.pc

/-- The flags of an operation's parts, those that land later among them, and the part of its lowest cluster that raises one (R219). -/
def firstEvent (m : Landing) (all : List (Landing × FpFlags)) : FpFlags × Landing :=
  (all.filter (fun o => o.1.sameOp m)).foldl (fun acc o => (acc.1 ||| o.2, if o.1.cluster < acc.2.cluster then o.1 else acc.2)) (0#6, m)

/-- Every result of a core in flight, with those that a trap or a slip holds. -/
def Core.held (c : Core) : List Landing :=
  c.inflight ++ (match c.frame with
    | some f => f.landings
    | none => []) ++ (match c.slip with
    | some w => w.2
    | none => [])

/-- `FPFIRST` with the flags of a later row of the `mmac` it records: the record holds every flag that operation raises (R219). DEDUCED, unsafe: log
entry 106. -/
def addFirst (v : W64) (fl : FpFlags) : W64 := v ||| BitVec.ofNat 64 (fl.toNat * 2 ^ 57)

/-- The flags of a result set in its landing cycle, and the first event: the operation issued earliest among those that raise flags in this cycle, with
every flag it raises, `others` being the results still to land (R218, R219). -/
def Core.raise (c : Core) (l : Landing) (fl : FpFlags) (others : List (Landing × FpFlags)) : Core :=
  if fl = 0#6 then c
  else
    let c1 := c.csrSet csrFpflags (setFlags (c.csrGet csrFpflags) l.slot fl)
    if bitAt (c.csrGet csrFpfirst) 63 then
      (if l.slot = 7 ∧ c.fpRow = some l.issue then c1.csrSet csrFpfirst (addFirst (c.csrGet csrFpfirst) fl) else c1)
    else
      let all := (l, fl) :: others.filter (fun o => o.2 != 0#6)
      match earliestLanding (all.map (·.1)) with
      | none => c1
      | some m =>
        let e := firstEvent m (all ++ (c.held.filter (fun o => o.flags != 0#6)).map (fun o => (o, o.flags)))
        { c1.csrSet csrFpfirst (fpfirstWord e.1 e.2.slot e.2.cluster e.2.lane e.2.pc) with fpRow := if m.slot = 7 then some m.issue else none }

/-- The results of a core in flight in a cycle: those that a trap or a slip of this very cycle holds from its end on are still read in it (R339). -/
def Core.flying (c : Core) (now : Nat) : List Landing :=
  c.inflight ++ (match c.frame with
    | some f => if f.c = now then f.landings else []
    | none => []) ++ (match c.slip with
    | some w => if w.1 = now then w.2 else []
    | none => [])

/-- The result due in this cycle that lands in a register of `l` after it, if any (R40). DEDUCED, unsafe: log entry 19. -/
def Core.collision (c : Core) (now : Nat) (l : Landing) : Option Landing :=
  let keys := l.eff.regKeys
  if keys.isEmpty then none
  else earliestLanding (c.inflight.filter (fun m =>
    m.at_ == now && m.id != l.id && !m.before l && m.eff.regKeys.any (fun k => keys.contains k)))

/-- The late cause that a collision raises: a timing fault, subcause 1, that names the later operation (R40, R339). -/
def collisionCause (m : Landing) : HeldCause :=
  { cause := 5, sub := 1, pc := m.pc, word := m.word, issue := m.issue, slot := m.slot, records := [] }

end Sys2Proof.Machine
end

