-- ==== Sys2Proof/Machine/Transpose.lean ====
section
/-!
DEFINITION. The transposing units (R270–R272): block, mask, capture, and the four XT forms.
-/

namespace Sys2Proof.Machine

/-- The transposing unit of a physical cluster. -/
def Core.xtUnit (c : Core) (p : Nat) : Transposer := tblGet .reset p c.xt
def Core.setXt (c : Core) (p : Nat) (x : Transposer) : Core := { c with xt := tblSet p x c.xt }

/-- Bytes of an element of a size code (R270). -/
def xtBytes (esize : BitVec 2) : Nat := if esize = 0#2 then 4 else if esize = 1#2 then 2 else 1

/-- Byte b of a 64-byte row. -/
def rowByte (row : BitVec 512) (b : Nat) : Nat := field row.toNat (8 * b) 8

/-- Column IDX of a capture: element (row r, column g × IDX + k) at bytes (16 k + r) × e (R272). -/
def xtColumn (cap : Tbl (BitVec 512)) (esize : BitVec 2) (idx : Nat) : List Byte :=
  let e := xtBytes esize
  let g := 4 / e
  (upTo g).flatMap (fun k => (upTo 16).flatMap (fun r => (upTo e).map (fun b =>
    BitVec.ofNat 8 (rowByte (tblGet 0#512 r cap) ((g * idx + k) * e + b)))))

/-- A vector register as a 64-byte row, lane 0 lowest. -/
def State.vRow (s : State) (p reg : Nat) : BitVec 512 :=
  BitVec.ofNat 512 (leNat ((upTo 16).flatMap (fun i => leBytes 4 (s.vAt p reg i).toNat)))

/-- The landing delay of an XT result in a physical cluster (R131). -/
def State.xtDelay (s : State) (p nominal : Nat) : Nat := unitDelay nominal (s.bm.keyHalf (xtKey p)) (s.bm.xtAdd p)

/-- An XT operation in each enabled cluster. -/
def State.xtSlot (s : State) (reads writes : List Nat) (body : State → State) : State :=
  let ps := s.clusters.map s.bm.phys
  s.slotOp { reach := ps.map xtKey, units := ps.map xtKey, reads := s.vecKeys ps reads [], writes := s.vecKeys ps writes [],
             holds := true, rs := false } true body

/-- IDX above 15, or an ESIZE that differs from the unit's, in some enabled cluster (R270). -/
def State.xtIllegal (s : State) (o : XtOp) : Bool :=
  bitAt o.idx 4 || s.clusters.any (fun c => ((s.core s.bnd.core).xtUnit (s.bm.phys c)).esize != o.esize)

/-- TROW (R271): the row and its mask bit are set at +1 -/
def execTrow (o : XtOp) (s : State) : Host.Outcome State Fault Refusal :=
  if s.xtIllegal o then .next s.illegalOperand
  else .next (s.xtSlot [o.v.toNat] [] (fun t =>
    s.clusters.foldl (fun acc c =>
      let p := s.bm.phys c
      acc.land (s.xtDelay p 1) (.xtRow o.idx.toNat [(p, s.vRow p (s.vreg o.v.toNat))]) 0#6 0 0 0 0) t))

/-- Whether `tcol` takes a new capture in this unit, and whether it can read the old one (R271). -/
def Transposer.captures (x : Transposer) : Bool := x.mask == 0xFFFF#16
def Transposer.readable (x : Transposer) (now : Nat) : Bool := x.capV && decide (x.capCycle + 15 ≤ now)

/-- The unit after a `tcol`'s capture at issue (R271). -/
def Transposer.capture_ (x : Transposer) (now : Nat) : Transposer :=
  { x with capture := x.block, mask := 0#16, capV := true, capCycle := now }

/-- TCOL (R271): a unit that can neither capture nor read is a timing fault, subcause 12 -/
def execTcol (o : XtOp) (s : State) : Host.Outcome State Fault Refusal :=
  if s.xtIllegal o then .next s.illegalOperand
  else .next (s.xtSlot [] [o.v.toNat] (fun t =>
    let unit (p : Nat) : Transposer := (t.core t.bnd.core).xtUnit p
    if s.clusters.any (fun c => let x := unit (s.bm.phys c); !x.captures && !x.readable s.cycle) then t.timingFault 12
    else s.clusters.foldl (fun acc c =>
      let p := s.bm.phys c
      let x := unit p
      let x' := if x.captures then x.capture_ s.cycle else x
      let col := xtColumn x'.capture x'.esize o.idx.toNat
      (acc.modCore s.bnd.core (fun k => k.setXt p x')).landLanes (s.xtDelay p (if x.captures then 16 else 2))
        ((upTo 16).map (fun i =>
          { cluster := c, phys := p, reg := s.vreg o.v.toNat, lane := i,
            w := BitVec.ofNat 32 (leNat (cut 4 (cut (4 * i) col).2).1), fl := 0#6 }))) t))

/-- `tclr` and `tmode` in each enabled cluster (R271). -/
def State.xtReset (s : State) (esize : Option (BitVec 2)) : State :=
  s.xtSlot [] [] (fun t => s.clusters.foldl (fun acc c =>
    acc.land (s.xtDelay (s.bm.phys c) 1) (.xtClear [s.bm.phys c] esize) 0#6 0 0 0 0) t)

/-- TCLR (R271) -/
def execTclr (_o : XtOp) (s : State) : Host.Outcome State Fault Refusal := .next (s.xtReset none)
/-- TMODE (R271) -/
def execTmode (o : XtOp) (s : State) : Host.Outcome State Fault Refusal := .next (s.xtReset (some o.esize))

/-- The effect of `trow` as it lands. -/
def Core.landXtRow (c : Core) (idx : Nat) (rows : List (Nat × BitVec 512)) : Core :=
  rows.foldl (fun acc r =>
    let x := acc.xtUnit r.1
    acc.setXt r.1 { x with block := tblPut 0#512 idx r.2 x.block, mask := setBit x.mask idx true }) c

/-- The effect of `tclr` and `tmode` as they land. -/
def Core.landXtClear (c : Core) (ps : List Nat) (esize : Option (BitVec 2)) : Core :=
  ps.foldl (fun acc p =>
    let x := acc.xtUnit p
    acc.setXt p { x with block := [], mask := 0#16, capV := false, esize := esize.getD x.esize }) c

end Sys2Proof.Machine
end

