-- ==== Sys2Proof/Machine/Matrix.lean ====
section
/-!
DEFINITION. The matrix array (R249–R269): row buffer, format table, scale queue, block-scaled and run mode, promotion, tile
reads and writes, the tile scoreboard, and the matrix queue of timed dispatch.
-/

namespace Sys2Proof.Machine

/-! ### Formats (R249, R253, R254) -/

/-- Fields of a format-table entry (R253). -/
def fmtA (e : W64) : Nat := bitsNat e 1 0
def fmtB (e : W64) : Nat := bitsNat e 3 2
def fmtRun (e : W64) : Bool := bitAt e 5
def fmtP (e : W64) : Nat := bitsNat e 11 6 + 1
def fmtTrust (e : W64) : Bool := bitAt e 12
def fmtBias (e : W64) : Int := signedOf 8 (bitsNat e 20 13)
/-- Element widths (R249). -/
def fmtNA (e : W64) : Nat := mxWidth (fmtA e)
def fmtNB (e : W64) : Nat := mxWidth (fmtB e)
/-- Depth K, width N, blocks per chunk and tiles per group (R249). -/
def fmtK (e : W64) : Nat := 768 / fmtNA e
def fmtN (e : W64) : Nat := 768 / fmtNB e
def fmtBlocks (e : W64) : Nat := fmtK e / 32
def fmtTiles (e : W64) : Nat := fmtN e / 32

/-- The longest run whose partial sums stay inside the inner accumulator (R254). -/
def safeRun (a b : Nat) : Nat := if a = 0 ∧ b = 0 then 15 else if a + b = 1 then 63 else 64

/-- Whether `mfmt` refuses an entry (R254). -/
def fmtRefused (e : W64) : Bool :=
  bitsNat e 63 21 != 0 || bitAt e 4 || fmtA e == 3 || fmtB e == 3 ||
    (fmtRun e && (decide (fmtP e < fmtBlocks e) || (!fmtTrust e && decide (safeRun (fmtA e) (fmtB e) < fmtP e))))

/-- The exponent of a block partial (R224, R256). -/
def partialExp (e : W64) (sa sb : Nat) : Int :=
  (sa : Int) - 127 + fmtBias e + ((sb : Int) - 127) - ((fmtNA e : Int) - 2) - ((fmtNB e : Int) - 2)

/-- A block partial as FP32: either scale 0xFF makes it the canonical NaN and sets V (R224). -/
def partialVal (e : W64) (sa sb : Nat) (p : Int) : FpRes :=
  if sa = 0xFF ∨ sb = 0xFF then { bits := fp32.nanBits, fl := flV }
  else fpRound fp32 .rne false (decide (p < 0)) p.natAbs (partialExp e sa sb)

/-! ### Matrix state -/

/-- Key of a tile element. -/
def tileKey (tile row col : Nat) : Nat := (tile * 128 + row) * 32 + col
/-- A row of the row buffer: 96 bytes (R250). -/
def Matrix.row (m : Matrix) (r : Nat) : List Byte := tblGet (copies 96 0#8) r m.rowBuf
/-- A format-table entry (R253). -/
def Matrix.entry (m : Matrix) (i : Nat) : W64 := tblGet 0#64 i m.fmt
/-- A tile element. -/
def Matrix.elem (m : Matrix) (tile row col : Nat) : W32 := tblGet 0#32 (tileKey tile row col) m.tiles

/-- Whether a result in flight keeps tiles t to t + n − 1 busy (R44). -/
def Landing.busies (l : Landing) (t n : Nat) : Bool :=
  decide (0 < l.busyCount) && decide (l.busyTile < t + n) && decide (t < l.busyTile + l.busyCount)

/-- Whether a tile of the group is busy (R44, R261): a trap that holds a result keeps its tiles busy. -/
def Core.tilesBusy (c : Core) (t n : Nat) : Bool := c.held.any (fun l => l.busies t n)

/-- Whether a result is a row of an `mmac` on exactly this group (R261). -/
def Landing.chains (l : Landing) (t n : Nat) : Bool :=
  match l.eff with
  | .mmacRow _ => l.busyTile == t && l.busyCount == n
  | _ => false

/-- Whether an `mmac` on the group would touch a busy tile without chaining (R261). -/
def Core.groupBusy (c : Core) (t n : Nat) : Bool := c.held.any (fun l => l.busies t n && !l.chains t n)

/-- An `ldsc` access whose entry has still to land: a rollback empties the queue of what is in flight, too (R263). -/
def Access.isScale (a : Access) (core : Nat) : Bool := a.core == core && !a.dead && !a.discarded && decide (a.kind = .ldsc)
def Landing.isScale (l : Landing) : Bool :=
  match l.eff with
  | .scale _ => true
  | _ => false

/-- Scale entries in flight of a core: landing cycle, issue cycle and id, `ldsc` accesses before their tap and those that a trap holds included. -/
def State.scalesInFlight (s : State) (core : Nat) : List (Nat × Nat × Nat) :=
  let c := s.core core
  ((s.rope (ropeOf core)).accs.filter (fun a => a.isScale core)).map (fun a => (a.issue + a.tap + 1, a.issue, a.id)) ++
    (c.held.filter Landing.isScale).map (fun l => (l.at_, l.issue, l.id))

/-- Whether scale entries land in this order. -/
def scaleBefore (a b : Nat × Nat × Nat) : Bool := decide (a.1 < b.1) || (a.1 == b.1 && decide (a.2.1 ≤ b.2.1))

/-- Insert into a list sorted by landing. -/
def insertScale (x : Nat × Nat × Nat) : List (Nat × Nat × Nat) → List (Nat × Nat × Nat)
  | [] => [x]
  | y :: t => if scaleBefore y x then y :: insertScale x t else x :: y :: t

def sortScales (l : List (Nat × Nat × Nat)) : List (Nat × Nat × Nat) := l.foldl (fun acc x => insertScale x acc) []

/-- MXSTAT (R259). -/
def Core.mxstat (c : Core) : W64 :=
  let r := c.mx.run
  let q := c.mx.scaleQ.length % 64
  let o := if r.ovf then 2 ^ 11 else 0
  BitVec.ofNat 64 (if r.isOpen then
      q + o + 2 ^ 10 + r.count % 128 * 2 ^ 12 + (r.rm - 1) % 128 * 2 ^ 19 + r.rt % 256 * 2 ^ 26 + r.re % 64 * 2 ^ 34
    else q + o)

/-! ### The slot and the matrix queue (R260–R262) -/

/-- What a matrix operation does when it would start: waits (in lockstep a timing fault of this subcause), faults, or goes. -/
inductive MxStep where
  | wait (sub : Nat)
  | fault (cause sub : Nat)
  | go (s : State)

/-- Key in the unit table of the operation the matrix engine started last in timed dispatch. -/
def mxStartKey : Nat := 76

/-- The engine has started an operation in this cycle. -/
def State.mxStarted (s : State) (core : Nat) : Bool := tblGet 0 mxStartKey (s.core core).units == 2 * (s.cycle + 1)
def State.markMx (s : State) (core : Nat) : State :=
  s.modCore core (fun c => { c with units := tblSet mxStartKey (2 * (s.cycle + 1)) c.units })

/-- Mark vector registers pending until an `mrd` lands (R262). -/
def Core.pend (c : Core) (keys : List Nat) : Core := { c with mx := { c.mx with pendingV := c.mx.pendingV ++ keys } }

/-- Queue the operation of the issuing slot (R262). -/
def State.mxEnqueue (s : State) : State :=
  let q : MatrixQueued :=
    { issue := s.cycle, slot := s.bnd.slot.num, pc := s.bnd.lat.pc, word := s.bnd.word, regs := s.bnd.lat.regs, rrb := s.bnd.lat.rrb,
      loops := s.bnd.lat.loops }
  let s1 := s.modCore s.bnd.core (fun c => { c with mx := { c.mx with queue := c.mx.queue ++ [q] } })
  if (s.core s.bnd.core).mx.queue.isEmpty then s1.schedule (s.cycle + 1) 1 (.matrixQueueStart (coreId s.bnd.core)) else s1

/-- An MX operation: its static checks, the array's unit and the registers, then its start, now or from the queue (R262). The mode is that of the
context: a slot before it may have taken the trap of its bundle. -/
def State.mxSlot (s : State) (illegal : Bool) (reads writes pend : List Nat) (body : State → MxStep) : State :=
  if illegal then s.illegalOperand
  else
    s.slotOp { reach := [arrayKey], units := [arrayKey], reads := reads, writes := writes, holds := true, rs := false } true (fun t =>
      let c := t.core t.bnd.core
      if c.timedContext && (!c.mx.queue.isEmpty || t.mxStarted t.bnd.core) then
        (t.mxEnqueue).modCore t.bnd.core (fun x => x.pend pend)
      else match body t with
        | .go t' => (if c.timedContext then t'.markMx t.bnd.core else t').modCore t.bnd.core (fun x => x.pend pend)
        | .wait sub => if c.timedContext then (t.mxEnqueue).modCore t.bnd.core (fun x => x.pend pend) else t.timingFault sub
        | .fault cause sub => t.slotFault cause sub true [])

/-- The landing delay of an array result (R131, R260). -/
def State.arrayDelay (s : State) (nominal : Nat) : Nat := unitDelay nominal (s.bm.keyHalf arrayKey) s.bm.arrayAdd

/-! ### Row buffer (R266) -/

/-- Bytes of the lanes of a vector register of a logical cluster. -/
def State.vBytes (s : State) (c reg : Nat) : List Byte :=
  (upTo 16).flatMap (fun i => leBytes 4 (s.vAt (s.bm.phys c) (s.vreg reg) i).toNat)

/-- Register keys of vector registers of a logical cluster. -/
def State.clusterKeys (s : State) (c : Nat) (regs : List Nat) : List Nat := s.vecKeys [s.bm.phys c] regs []

/-- `mpush`, plain. -/
def mpushStep (o : MpushOp) (s : State) : MxStep :=
  let a := o.a.toNat
  let c := o.c.toNat
  .go (s.land 2 (.rowBuffer o.row.toNat (s.vBytes c a ++ (cut 32 (s.vBytes c (a + 1))).1)) 0#6 0 0 0 0)

/-- MPUSH (R266): an odd A is an illegal operand -/
def execMpush (o : MpushOp) (s : State) : Host.Outcome State Fault Refusal :=
  .next (s.mxSlot (bitAt o.a 0) (s.clusterKeys o.c.toNat [o.a.toNat, o.a.toNat + 1]) [] [] (mpushStep o))

/-- `mpush.t`: 64 bytes of the captured column of cluster C and 32 of cluster C + 1. -/
def mpushTStep (o : MpushTOp) (s : State) : MxStep :=
  let c := s.core s.bnd.core
  let x := c.xtUnit (s.bm.phys o.c.toNat)
  let y := c.xtUnit (s.bm.phys (o.c.toNat + 1))
  if !x.readable s.cycle || !y.readable s.cycle then .fault 5 12
  else
    .go (s.land 2 (.rowBuffer o.row.toNat (xtColumn x.capture x.esize o.col.toNat ++ (cut 32 (xtColumn y.capture y.esize o.col.toNat)).1))
      0#6 0 0 0 0)

/-- MPUSH_T (R266): an odd C is an illegal operand -/
def execMpushT (o : MpushTOp) (s : State) : Host.Outcome State Fault Refusal :=
  .next (s.mxSlot (bitAt o.c 0) [] [] [] (mpushTStep o))

/-! ### mmac (R252, R255–R257, R267) -/

/-- The entry an `.f` operation names: BASE + INDEX of the bound level (R255). -/
def State.boundEntry (s : State) : Option Nat :=
  match (s.core s.bnd.core).mx.bind with
  | none => none
  | some (level, base) =>
    match (cut level s.bnd.lat.loops).2 with
    | [] => none
    | l :: _ => if base + l.index.toNat ≤ 63 then some (base + l.index.toNat) else none

/-- The scale entries an `mmac` pops (R252). -/
def scaleNeed (e : W64) (m : Nat) (opens : Bool) : Nat :=
  if fmtRun e then (if opens then (m + 63) / 64 else 0) else (m * fmtBlocks e + 63) / 64

/-- The rows of an `mmac`, one result each (R256, R257). -/
def State.landRows (s : State) (t cs m0 n : Nat) (e : W64) (op : Nat) (run : Bool) (scales : List Byte) : State :=
  (upTo n).foldl (fun acc m =>
    let nb := fmtBlocks e
    acc.land (s.arrayDelay (13 + m))
      (.mmacRow { op := op, tile := t, m := m, lastRow := decide (m + 1 = n), rowIdx := (m0 + m) % 128, chunk := cs, entry := e,
                  scales := if run then [] else (cut nb (cut (m * nb) scales).2).1, run := run, ovf := false,
                  capAt := s.cycle + 1 + m, arow := none })
      0#6 0 0 t (fmtTiles e)) s

/-- An `mmac` on a given entry index, its checks in the order of R267. -/
def mmacStep (o : MmacOp) (idx : Option Nat) (s : State) : MxStep :=
  let c := s.core s.bnd.core
  let v := s.bnd.lat.regs.sGet o.cs.toNat
  let t := o.tile.toNat
  let n := o.mm1.toNat + 1
  match idx with
  | none => .fault 3 0
  | some i =>
    let held := c.mx.entry i
    let run := c.mx.run
    let cont := fmtRun held && run.isOpen
    let e := if cont then run.entry else held
    let nb := fmtBlocks e
    let nt := fmtTiles e
    let need := scaleNeed e n (!cont)
    let q := c.mx.scaleQ.length
    if v &&& ~~~0x7F03FF#64 ≠ 0#64 ∨ (cont ∧ (run.rt ≠ t ∨ run.rm ≠ n ∨ run.re ≠ i)) ∨ fmtA e = 3 ∨ fmtB e = 3 ∨ 192 < t + nt then .fault 3 0
    else if s.cycle < c.mx.arrayFree then .wait 7
    else if c.groupBusy t nt then .wait 6
    else if fmtRun e ∧ fmtP e < (if cont then run.count else 0) + nb then .fault 16 0
    else if q < need then (if q + (s.scalesInFlight s.bnd.core).length < need then .fault 8 0 else .wait 8)
    else
      let pop := cut need c.mx.scaleQ
      let scales := pop.1.flatten
      let id := s.fresh
      let run' : MatrixRun :=
        if !fmtRun e then run
        else if cont then { run with count := run.count + nb }
        else { isOpen := true, rt := t, rm := n, re := i, entry := e, count := nb, ovf := false, rsa := (cut n scales).1, rsb := [], inner := [] }
      let s1 := id.2.modCore s.bnd.core (fun x =>
        { x with mx := { x.mx with scaleQ := pop.2, scaleIssue := (cut need x.mx.scaleIssue).2, arrayFree := s.cycle + n, run := run' } })
      .go (s1.landRows t (bitsNat v 9 0) (bitsNat v 22 16) n e id.1 (fmtRun e) scales)

/-- MMAC (R267) -/
def execMmac (o : MmacOp) (s : State) : Host.Outcome State Fault Refusal :=
  .next (s.mxSlot false [o.cs.toNat] [] [] (mmacStep o (some o.fmt.toNat)))

/-- MMAC_F (R255, R267): the entry through the `mfsel` binding -/
def execMmacF (o : MmacOp) (s : State) : Host.Outcome State Fault Refusal :=
  .next (s.mxSlot false [o.cs.toNat] [] [] (fun t => mmacStep o t.boundEntry t))

/-- Byte b of a chunk as the cell-columns hold it (R45, R47). -/
def chunkByte (held : List Host.Cell) (slice b : Nat) : Byte := tblGet 0#8 (768 * slice + b) held

/-- The codes of block j of a column of a chunk (R46). -/
def chunkCodes (e : W64) (held : List Host.Cell) (n j : Nat) : List Int :=
  let nc := fmtTiles e
  let nB := fmtNB e
  let first := n % nc * (fmtK e * nB / 8) + 4 * j * nB
  let packed := leNat ((upTo (4 * nB)).map (fun b => chunkByte held (n / nc) (first + b)))
  (upTo 32).map (fun k => mxCode nB k packed)

/-- The scale of block j of a column (R46, R251). -/
def chunkScale (e : W64) (held : List Host.Cell) (n j : Nat) : Nat :=
  let nc := fmtTiles e
  (chunkByte held (n / nc) (576 + n % nc * fmtBlocks e + j)).toNat

/-- The codes of block j of an A row (R250). -/
def rowCodes (e : W64) (row : List Byte) (j : Nat) : List Int :=
  let packed := leNat row
  (upTo 32).map (fun k => mxCode (fmtNA e) (32 * j + k) packed)

/-- An exact block partial (R256). -/
def dotCodes : List Int → List Int → Int
  | a :: t, b :: u => a * b + dotCodes t u
  | _, _ => 0

/-- One element of a block-scaled row: its blocks added in ascending K (R224, R256). -/
def mmacElem (e : W64) (arows : List (List Int)) (held : List Host.Cell) (scales : List Byte) (n : Nat) (acc : W32) : FpRes :=
  (upTo (fmtBlocks e)).foldl (fun r j =>
    let p := dotCodes (nth [] arows j) (chunkCodes e held n j)
    let part := partialVal e (nth 0#8 scales j).toNat (chunkScale e held n j) p
    let sum := fpAdd fp32 .rne false r.bits part.bits
    { bits := sum.bits, fl := r.fl ||| part.fl ||| sum.fl }) { bits := acc.toNat, fl := 0#6 }

/-- The elements and flags of one block-scaled row (R256). -/
def Core.blockRow (c : Core) (r : MmacRow) : List (Nat × W32) × FpFlags :=
  let held := tblGet [] r.op c.mx.held
  let row := r.arow.getD []
  let arows := (upTo (fmtBlocks r.entry)).map (rowCodes r.entry row)
  let out := (upTo (fmtN r.entry)).map (fun n =>
    let tile := r.tile + n / 32
    (tileKey tile r.m (n % 32), mmacElem r.entry arows held r.scales n (c.mx.elem tile r.m (n % 32))))
  (out.map (fun x => (x.1, BitVec.ofNat 32 x.2.bits)), out.foldl (fun acc x => acc ||| x.2.fl) 0#6)

/-- Bound of the inner accumulators (R257). -/
def innerMax : Int := 2 ^ 23 - 1

/-- An inner accumulator after a row's blocks, and whether it saturated (R257). -/
def innerElem (e : W64) (arows : List (List Int)) (held : List Host.Cell) (n : Nat) (acc : Int) : Int × Bool :=
  (upTo (fmtBlocks e)).foldl (fun r j =>
    let v := r.1 + dotCodes (nth [] arows j) (chunkCodes e held n j)
    let w := clampInt (-innerMax) innerMax v
    (w, r.2 || decide (v ≠ w))) (acc, false)

/-- The inner accumulators of one row of a run-mode `mmac` (R257). -/
def Core.runRow (c : Core) (r : MmacRow) : List (Nat × Int) × Bool :=
  let held := tblGet [] r.op c.mx.held
  let row := r.arow.getD []
  let arows := (upTo (fmtBlocks r.entry)).map (rowCodes r.entry row)
  let out := (upTo (fmtN r.entry)).map (fun n =>
    let k := r.m * 192 + n
    (k, innerElem r.entry arows held n (tblGet 0 k c.mx.run.inner)))
  (out.map (fun x => (x.1, x.2.1)), out.any (fun x => x.2.2))

/-- The flags a result raises as it lands. -/
def Core.landFlags (c : Core) (l : Landing) : FpFlags :=
  match l.eff with
  | .mmacRow r => if r.run then 0#6 else (c.blockRow r).2
  | _ => l.flags

/-- Whether a location is a B-store word of a chunk that the cell-columns read (R46, R47). -/
def chunkHit (core : Nat) (e : W64) (chunk : Nat) : StorageLoc → Bool
  | .bstore c n =>
    let b := 8 * n % 768
    c.val == core && 8 * n / 24576 == chunk &&
      (decide (b < fmtTiles e * fmtK e * fmtNB e / 8) || (decide (569 ≤ b) && decide (b < 576 + fmtTiles e * fmtBlocks e)))
  | _ => false

/-- Whether a location is an element of a row of a tile group. -/
def tileHit (core t n row : Nat) : StorageLoc → Bool
  | .tile c tl r _ => c.val == core && decide (t ≤ tl.val) && decide (tl.val < t + n) && r.val == row
  | _ => false

/-- Stored words overwritten: their flipped bits are gone. -/
def State.overwrite (s : State) (hit : StorageLoc → Bool) : State := { s with flips := s.flips.filter (fun f => !hit f.loc) }

/-- Results in flight changed, wherever a trap or a slip holds them. -/
def Core.mapLandings (c : Core) (f : Landing → Landing) : Core :=
  { c with
    inflight := c.inflight.map f,
    frame := c.frame.map (fun t => { t with landings := t.landings.map f }),
    slip := c.slip.map (fun w => (w.1, w.2.map f)) }

/-- The read cycle of a row: its A row, and with the first row the whole B chunk (R47, R250). -/
def State.readRow (s : State) (core : Nat) (l : Landing) (r : MmacRow) : State :=
  let c := s.core core
  let row := c.mx.row r.rowIdx
  let set (x : Core) : Core := x.mapLandings (fun m => if m.id == l.id then { m with eff := .mmacRow { r with arow := some row } } else m)
  if r.m = 0 then
    let base := keyB core (24576 * r.chunk)
    let held : List Host.Cell := (s.mem.filter (fun x => decide (base ≤ x.1) && decide (x.1 < base + 24576))).map (fun x => (x.1 - base, x.2))
    let rsb := (upTo (fmtN r.entry)).map (fun n => BitVec.ofNat 8 (chunkScale r.entry held n 0))
    (s.modCore core (fun x =>
      let y := set x
      { y with mx := { y.mx with
          held := tblSet r.op held y.mx.held,
          run := if r.run && y.mx.run.rsb.isEmpty then { y.mx.run with rsb := rsb } else y.mx.run } })).consume core (chunkHit core r.entry r.chunk)
  else s.modCore core set

/-- The core after a run-mode row has landed (R257). -/
def Core.landRunRow (c : Core) (r : MmacRow) : Core :=
  let out := c.runRow r
  let ovf := r.ovf || out.2
  let mark (m : Landing) : Landing :=
    match m.eff with
    | .mmacRow r' => if out.2 && r'.op == r.op then { m with eff := .mmacRow { r' with ovf := true } } else m
    | _ => m
  let run := if c.mx.run.isOpen then
      { c.mx.run with inner := tblPutAll 0 out.1 c.mx.run.inner, ovf := c.mx.run.ovf || out.2 }
    else c.mx.run
  let bits := if r.lastRow && ovf then (upTo (fmtTiles r.entry)).foldl (fun acc i => setBit acc (r.tile + i) true) c.mx.ovf else c.mx.ovf
  let c1 := c.mapLandings mark
  { c1 with mx := { c1.mx with run := run, ovf := bits } }

/-- A row lands: a block-scaled row in its tiles, a run-mode row in the inner accumulators; the chunk is dropped with the last
row (R256, R257). -/
def Core.landRow (c : Core) (r : MmacRow) : Core :=
  let c1 := if r.run then c.landRunRow r else { c with mx := { c.mx with tiles := tblPutAll 0#32 (c.blockRow r).1 c.mx.tiles } }
  if r.lastRow then { c1 with mx := { c1.mx with held := tblErase r.op c1.mx.held } } else c1

/-! ### mprom (R258) -/

/-- The promoted elements of the open run, with their flags. -/
def Core.promoted (c : Core) : List (Nat × FpRes) :=
  let r := c.mx.run
  (upTo r.rm).flatMap (fun m => (upTo (fmtN r.entry)).map (fun n =>
    let tile := r.rt + n / 32
    let part := partialVal r.entry (nth 0#8 r.rsa m).toNat (nth 0#8 r.rsb n).toNat (tblGet 0 (m * 192 + n) r.inner)
    let sum := fpAdd fp32 .rne false (c.mx.elem tile m (n % 32)).toNat part.bits
    (tileKey tile m (n % 32), { bits := sum.bits, fl := sum.fl ||| part.fl })))

/-- `mprom`. -/
def mpromStep (chk : Bool) (s : State) : MxStep :=
  let c := s.core s.bnd.core
  let r := c.mx.run
  let n := fmtTiles r.entry
  if !r.isOpen then .go s
  else if s.cycle < c.mx.arrayFree then .wait 7
  else if c.tilesBusy r.rt n then .wait 6
  else if chk && r.ovf then .fault 15 0
  else
    let out := c.promoted
    let fl := out.foldl (fun acc x => acc ||| x.2.fl) (if r.ovf then flO else 0#6)
    let s1 := s.modCore s.bnd.core (fun x => { x with mx := { x.mx with run := .reset } })
    let s2 := (upTo r.rm).foldl (fun acc m => acc.consume s.bnd.core (tileHit s.bnd.core r.rt n m)) s1
    .go (s2.land (s.arrayDelay 8) (.promote r.rt n (out.map (fun x => (x.1, BitVec.ofNat 32 x.2.bits))) r.ovf) fl 0 0 r.rt n)

/-- MPROM (R258): `.chk` with OVF set is an accumulator overflow -/
def execMprom (chk : BitVec 1) (s : State) : Host.Outcome State Fault Refusal :=
  .next (s.mxSlot false [] [] [] (mpromStep (chk == 1#1)))

/-! ### Tiles (R268) -/

/-- `mclr`. -/
def mclrStep (o : MclrOp) (s : State) : MxStep :=
  let t := o.tile.toNat
  let n := o.nm1.toNat + 1
  if (s.core s.bnd.core).tilesBusy t n then .wait 6 else .go (s.land 2 (.clearTiles t n) 0#6 0 0 t n)

/-- MCLR (R268) -/
def execMclr (o : MclrOp) (s : State) : Host.Outcome State Fault Refusal :=
  .next (s.mxSlot (decide (192 < o.tile.toNat + o.nm1.toNat + 1)) [] [] [] (mclrStep o))

/-- The row of `mrd` and `mwr`: with `.i`, plus INDEX of i0 (R268). -/
def State.mxRow (s : State) (o : MrowOp) : Nat :=
  if o.i = 0#1 then o.row.toNat
  else match s.bnd.lat.loops with
    | [] => o.row.toNat
    | l :: _ => (o.row.toNat + l.index.toNat) % 128

/-- The static checks of `mrd` and `mwr`: an odd register, a tile above 191, `.i` outside any loop (R265, R268). -/
def State.mxRowIllegal (s : State) (o : MrowOp) : Bool :=
  bitAt o.v 0 || decide (191 < o.tile.toNat) || (o.i == 1#1 && s.bnd.lat.loops.isEmpty)

/-- `mrd`: the tile is read as it starts. -/
def mrdStep (o : MrowOp) (s : State) : MxStep :=
  let c := s.core s.bnd.core
  let t := o.tile.toNat
  let r := s.mxRow o
  let p := s.bm.phys o.c.toNat
  if c.tilesBusy t 1 then .wait 6
  else
    .go ((s.consume s.bnd.core (tileHit s.bnd.core t 1 r)).land (s.arrayDelay 6)
      (.regs ((upTo 32).map (fun k => .v (vKey p (s.vreg (o.v.toNat + k / 16)) (k % 16)) (c.mx.elem t r k)))) 0#6 0 0 0 0)

/-- MRD (R268): v[d], v[d + 1] are pending until they land (R262) -/
def execMrd (o : MrowOp) (s : State) : Host.Outcome State Fault Refusal :=
  let keys := s.clusterKeys o.c.toNat [o.v.toNat, o.v.toNat + 1]
  .next (s.mxSlot (s.mxRowIllegal o) [] keys (keys.map (fun k => k - 1000)) (mrdStep o))

/-- `mwr`. -/
def mwrStep (o : MrowOp) (s : State) : MxStep :=
  let t := o.tile.toNat
  let p := s.bm.phys o.c.toNat
  if (s.core s.bnd.core).tilesBusy t 1 then .wait 6
  else
    .go (s.land (s.arrayDelay 4)
      (.writeRow t (s.mxRow o) ((upTo 32).map (fun k => s.vAt p (s.vreg (o.v.toNat + k / 16)) (k % 16)))) 0#6 0 0 t 1)

/-- MWR (R268) -/
def execMwr (o : MrowOp) (s : State) : Host.Outcome State Fault Refusal :=
  .next (s.mxSlot (s.mxRowIllegal o) (s.clusterKeys o.c.toNat [o.v.toNat, o.v.toNat + 1]) [] [] (mwrStep o))

/-! ### Format table, binding, scale queue (R269) -/

/-- `mfmt`. -/
def mfmtStep (entry : BitVec 6) (r : BitVec 5) (s : State) : MxStep :=
  let v := s.bnd.lat.regs.sGet r.toNat
  if fmtRefused v then .fault 3 0 else .go (s.land 1 (.format entry.toNat v) 0#6 0 0 0 0)

/-- MFMT (R254, R269) -/
def execMfmt (entry : BitVec 6) (r : BitVec 5) (s : State) : Host.Outcome State Fault Refusal :=
  .next (s.mxSlot false [r.toNat] [] [] (mfmtStep entry r))

/-- `mfsel`. -/
def mfselStep (level : BitVec 3) (base : BitVec 6) (s : State) : MxStep := .go (s.land 1 (.binding level.toNat base.toNat) 0#6 0 0 0 0)

/-- MFSEL (R255, R269) -/
def execMfsel (level : BitVec 3) (base : BitVec 6) (s : State) : Host.Outcome State Fault Refusal :=
  .next (s.mxSlot false [] [] [] (mfselStep level base))

/-- `mscq`: more than the entries, landed or in flight, of the `ldsc`s issued before it is a queue imbalance (R269). -/
def mscqStep (cnt : BitVec 6) (s : State) : MxStep :=
  let c := s.core s.bnd.core
  let at_ := s.bnd.queued.getD s.cycle
  let have_ := (c.mx.scaleIssue.filter (fun i => decide (i < at_))).length +
    ((s.scalesInFlight s.bnd.core).filter (fun x => decide (x.2.1 < at_))).length
  if have_ < cnt.toNat then .fault 8 0
  else .go (s.land 1 (.discardScales (if cnt = 0#6 then have_ else cnt.toNat)) 0#6 0 0 0 0)

/-- MSCQ (R265, R269): a CNT of 33–63 is an illegal operand. DEDUCED, unsafe: log entry 51. -/
def execMscq (cnt : BitVec 6) (s : State) : Host.Outcome State Fault Refusal :=
  .next (s.mxSlot (decide (32 < cnt.toNat)) [] [] [] (mscqStep cnt))

/-- The first `n` queued entries of `ldsc`s issued before a cycle taken out: how many are still to go, and the queue with its issue cycles. -/
def dropScales (issue : Nat) : Nat → List (List Byte) → List Nat → Nat × List (List Byte) × List Nat
  | 0, q, i => (0, q, i)
  | n + 1, x :: q, i :: t =>
    if i < issue then dropScales issue n q t
    else
      let r := dropScales issue (n + 1) q t
      (r.1, x :: r.2.1, i :: r.2.2)
  | n + 1, q, i => (n + 1, q, i)

/-- The discard of `mscq` in its effect cycle: entries from the head, landed ones first, then those in flight, of `ldsc`s issued before it; an
`mmac` issued in that cycle has popped the old queue (R269). -/
def State.landDiscard (s : State) (core issue n : Nat) : State :=
  let c := s.core core
  let q := dropScales issue n c.mx.scaleQ c.mx.scaleIssue
  let fly := (sortScales (s.scalesInFlight core)).filter (fun x => decide (x.2.1 < issue) && !c.mx.discard.contains x.2.2)
  let ids := (cut q.1 fly).1.map (fun x => x.2.2)
  s.modCore core (fun x =>
    { x with mx := { x.mx with scaleQ := q.2.1, scaleIssue := q.2.2, discard := x.mx.discard ++ ids } })

/-! ### The matrix queue (R262) -/

/-- The start of a matrix operation by its instruction. -/
def mxStepOf (i : Instr) (s : State) : MxStep :=
  match i with
  | .mpush o => mpushStep o s
  | .mpushT o => mpushTStep o s
  | .mmac o => mmacStep o (some o.fmt.toNat) s
  | .mmacF o => mmacStep o s.boundEntry s
  | .mprom chk => mpromStep (chk == 1#1) s
  | .mclr o => mclrStep o s
  | .mrd o => mrdStep o s
  | .mwr o => mwrStep o s
  | .mfmt e r => mfmtStep e r s
  | .mfsel l b => mfselStep l b s
  | .mscq n => mscqStep n s
  | _ => .go s

/-- The bundle a queued operation stands for: its latched operands. -/
def MatrixQueued.bundle (q : MatrixQueued) (core : Nat) : Bundle :=
  { Bundle.reset with
    core := core, slot := .mx, word := q.word, queued := some q.issue,
    lat := { Latched.reset with pc := q.pc, regs := q.regs, rrb := q.rrb, loops := q.loops } }

/-- The trap of a queued operation that faults as it would start: it names the operation's bundle and slot, and the operation stays at the head of the
queue, to start again after `eret` while RPL names the slot (R258, R262, R338). DEDUCED, unsafe: log entry 51. -/
def MatrixQueued.trap (q : MatrixQueued) (cause sub : Nat) (c : Core) : TrapReq :=
  { cause := cause, sub := sub, slot := q.slot, word := q.word, pc := q.pc, fslots := slotBit q.slot, rpl := slotBit q.slot, reported := none,
    goOn := true, whole := false, waits := false, refetch := false, retiring := c.seq.run == .retiring, latched := .reset, records := [],
    nextIssue := c.seq.nextIssue, mxHead := true }

/-- MATRIX_QUEUE_START (R262): the head of the queue starts if its array, tiles and scale entries are available, or takes the trap of its fault. The
queue tries again in the next cycle while it holds an operation, and rests while the core is frozen, slipped or under test. -/
def execMatrixQueueStart (core : CoreId) (s : State) : Host.Outcome State Fault Refusal :=
  let c := s.core core
  match c.frame, c.slip, c.mx.queue with
  | none, none, q :: rest =>
    let again (t : State) : State :=
      if (t.core core).mx.queue.isEmpty || (t.core core).frame.isSome then t else t.schedule (s.cycle + 1) 1 (.matrixQueueStart core)
    let pop (t : State) : State := t.modCore core (fun x => { x with mx := { x.mx with queue := rest } })
    let i := match decodeSlot .mx q.word with
      | .ok i => i
      | .error _ => .mfsel 0#3 0#6
    match mxStepOf i { s with bnd := q.bundle core } with
    | .go t => .next (again ((pop { t with bnd := s.bnd }).markMx core))
    | .wait _ => .next (again s)
    | .fault cause sub => .next (s.enterTrap core (q.trap cause sub c))
  | _, _, _ => .next s

end Sys2Proof.Machine
end

