-- ==== Sys2Proof/Machine/Ring.lean ====
section
/-!
DEFINITION. The scratchpad ring of a rope (R48–R62, R69–R71): stations, lanes, paths, bookings, the slot table's grants,
address checks (R14–R20, R37), and the reads and writes that an access performs at a bank.
-/

namespace Sys2Proof.Machine

/-! ### Addresses (R14–R19, R37) -/

/-- The space identifier of an address. -/
def addrSpace (a : W64) : Nat := bitsNat a 63 60

/-- The lowest must-be-zero bit of a space (R14). -/
def spaceTop (space : Nat) : Nat :=
  if space = 0 then 57 else if space = 1 then 23 else if space = 2 then 25 else if space = 3 then 27 else if space = 4 then 48 else 56

/-- The offset of an address in its space. -/
def addrOffset (a : W64) : Nat := a.toNat % 2 ^ spaceTop (addrSpace a)

/-- Codes 1 to 4 of an address for an access that may use the given spaces, in the order of R37; 0 where none applies. `members`
are the packages of the domain (R16). -/
def addrCode (members : BitVec 16) (allowed : List Nat) (a : W64) : Nat :=
  let sp := addrSpace a
  if 6 ≤ sp then 2
  else if !allowed.contains sp then 3
  else if bitsNat a 59 0 / 2 ^ spaceTop sp ≠ 0 then 1
  else if sp = 2 ∧ 0x1800000 ≤ addrOffset a then 4
  else if sp = 5 ∧ !bitAt members (bitsNat a 55 51) then 4
  else 0

/-- Row 2 of R143: an address that is not a multiple of `n` is an alignment fault. -/
def State.aligned (s : State) (a : W64) (n : Nat) (body : State → State) : State :=
  if a.toNat % n ≠ 0 then s.slotFault 12 0 true [] else body s

/-- A data-translation fault of the issuing slot (R38). DEDUCED, unsafe: log entry 26. -/
def State.addrFault (s : State) (code : Nat) (a : W64) : State :=
  s.slotFault 10 0 true [(0x012, BitVec.ofNat 64 code), (0x013, a)]

/-- Rows 2 and 3 of R143 for an access to the scratchpad. -/
def State.padAddr (s : State) (a : W64) (n : Nat) (body : State → State) : State :=
  s.aligned a n (fun t =>
    let code := addrCode t.sec.members [1] a
    if code ≠ 0 then t.addrFault code a else body t)

/-! ### Ring geometry (R49, R50) -/

/-- Bank and line of a scratchpad offset (R48). -/
def bankOf (off : Nat) : Nat := field off 6 4
/-- The scratchpad offset of the line that holds an offset. -/
def lineBase (off : Nat) : Nat := off / 64 * 64
/-- Positions of banks and stations (R49). -/
def bankPos (b : Nat) : Nat := 2 * b
def stationPos (st : Nat) : Nat := 2 * st + 1
/-- Load and store stations of a core (R49). -/
def loadStation (core : Nat) : Nat := posOf core
def storeStation (core : Nat) : Nat := 4 + posOf core

/-- Hop time of a segment (R50). -/
def RopeMap.hopTime (m : RopeMap) (seg : Nat) : Nat := if bitAt m.hop seg then 2 else 1

/-- Segments of a path on a lane, in order of travel (R50). -/
def pathSegs (lane a b : Nat) : List Nat :=
  if lane < 8 then (upTo ((b + 32 - a) % 32)).map (fun i => (a + i) % 32)
  else (upTo ((a + 32 - b) % 32)).map (fun i => (a + 31 - i) % 32)

/-- Travel time over segments (R50). -/
def segsTime (m : RopeMap) : List Nat → Nat
  | [] => 0
  | g :: t => m.hopTime g + segsTime m t

/-- The map record of a rope in force (R377). -/
def State.ropeMap (s : State) (rope : Nat) : RopeMap := ((s.die (dieOfRope rope)).mapAt s.cycle).rope rope

/-- Segment bookings of a transfer that leaves at a cycle: it occupies each segment for its hop time (R50, R52). -/
def pathBookings (m : RopeMap) (lane : Nat) (tag : BitVec 6) (station : Nat) : Nat → List Nat → List LaneBooking
  | _, [] => []
  | depart, g :: t =>
    { lane := lane, seg := g, lo := depart + 1, hi := depart + m.hopTime g, tag := tag, station := station } ::
      pathBookings m lane tag station (depart + m.hopTime g) t

/-- Whether two bookings hold one segment in one cycle. -/
def LaneBooking.meets (a b : LaneBooking) : Bool := a.lane == b.lane && a.seg == b.seg && decide (a.lo ≤ b.hi) && decide (b.lo ≤ a.hi)

/-- Whether a path is free of earlier bookings (R53). -/
def Rope.pathFree (r : Rope) (bs : List LaneBooking) : Bool := bs.all (fun b => !r.lanes.any (fun x => x.meets b))

/-- The transfer tag of an access (R52). -/
def transferTag (cycle : Nat) : BitVec 6 := BitVec.ofNat 6 cycle

/-- Book lanes, dropping bookings of past cycles. -/
def Rope.bookLanes (r : Rope) (now : Nat) (bs : List LaneBooking) : Rope :=
  { r with lanes := r.lanes.filter (fun x => decide (now ≤ x.hi)) ++ bs }

/-- The transfer that reaches a station's segment in this cycle (R51, R387). -/
def Rope.tapAt (r : Rope) (lane station now : Nat) : Option (BitVec 6) :=
  let seg := if lane < 8 then (stationPos station + 31) % 32 else stationPos station % 32
  (r.lanes.find? (fun x => x.lane == lane && x.seg == seg && x.hi == now)).map (·.tag)

/-! ### The slot table (R56–R58) -/

/-- The station granted a bank in a cycle, 31 for none (R56). -/
def Rope.grantee (r : Rope) (bank cycle : Nat) : Nat := tblGet 31 (16 * (cycle % 64) + bank) r.grants
/-- The owner of a lane: 31 is a core lane (R58). -/
def Rope.owner (r : Rope) (lane : Nat) : Nat := tblGet 31 lane r.owners
/-- The lane a station owns (R58). -/
def Rope.laneOf (r : Rope) (station : Nat) : Option Nat := (upTo 16).find? (fun l => r.owner l == station)

/-- Whether a station has booked a bank in a cycle. -/
def Rope.banked (r : Rope) (bank cycle : Nat) : Bool := r.banks.any (fun b => b.bank == bank && b.cycle == cycle)
def Rope.bankedBy (r : Rope) (bank cycle station : Nat) : Bool :=
  r.banks.any (fun b => b.bank == bank && b.cycle == cycle && b.station == station)

/-- Book bank cycles, dropping those past. -/
def Rope.bookBanks (r : Rope) (now station : Nat) (uses : List (Nat × Nat)) : Rope :=
  { r with banks := r.banks.filter (fun b => decide (now ≤ b.cycle)) ++
      uses.map (fun u => { bank := u.1, cycle := u.2, station := station }) }

/-- The station that a core access finds granted at a bank cycle: by the table that is in force then, where one waits for its swap cycle (R60).
DEDUCED, unsafe: log entry 25. -/
def Rope.granteeThen (r : Rope) (bank cycle : Nat) : Nat :=
  match r.pendingTable with
  | some t => if t.2.2 ≤ cycle then tblGet 31 (16 * (cycle % 64) + bank) t.1 else r.grantee bank cycle
  | none => r.grantee bank cycle

/-- The first of the bank cycles that is not allowed, with its kind in BKCONF: granted to another station (0), or a second use
by the same station (1) (R57, R62). Where several bank cycles of one `vgat` or `vsct` fail, R62 does not say which is reported: the first of the list,
from bank 0 up, is. DESIGN CHOICE, unsafe: log entry 83. -/
def Rope.bankFault (r : Rope) (station : Nat) (uses : List (Nat × Nat)) : Option (Nat × Nat × Nat) :=
  (uses.find? (fun u => r.bankedBy u.1 u.2 station || r.granteeThen u.1 u.2 != station)).map (fun u =>
    (if r.bankedBy u.1 u.2 station then 1 else 0, u.1, u.2))

/-- BKCONF (R62). -/
def bkconfWord (kind bank cycle station other : Nat) : W64 :=
  BitVec.ofNat 64 ((cycle % 2 ^ 32) * 2 ^ 32 + kind * 2 ^ 20 + (cycle % 64) * 2 ^ 14 + other * 2 ^ 9 + station * 2 ^ 4 + bank)

/-- SFINFO (R54). -/
def sfinfoWord (cause lane : Nat) (etag ftag : BitVec 6) (eseq fseq handle : Nat) : W64 :=
  BitVec.ofNat 64 (handle * 2 ^ 52 + fseq * 2 ^ 36 + eseq * 2 ^ 20 + ftag.toNat * 2 ^ 14 + etag.toNat * 2 ^ 8 + cause * 16 + lane)

/-- The lane checks of an access (R53): the cause in SFINFO of the first that fails. `want` is the arrival a store must name. -/
def State.laneFault (s : State) (rope lane : Nat) (bs : List LaneBooking) (want : Option Nat) (tap : Nat) : Option Nat :=
  let r := s.rope rope
  if bitAt (s.coreRope s.bnd.core).deadln lane then some 3
  else if r.owner lane ≠ 31 then some 4
  else if !r.pathFree bs then some 2
  else match want with
    | some w => if w = tap then none else some 7
    | none => none

/-- A schedule fault of the issuing slot with its SFINFO (R53). -/
def State.scheduleFault (s : State) (info : W64) : State := s.slotFault 6 0 true [(0x010, info)]

/-- A bank conflict of the issuing slot (R57, R62). -/
def State.bankConflict (s : State) (rope station : Nat) (f : Nat × Nat × Nat) : State :=
  let other := if f.1 = 1 then station else (s.rope rope).granteeThen f.2.1 f.2.2
  s.slotFault 7 0 true [(0x011, bkconfWord f.1 f.2.1 f.2.2 station other)]

/-- Rows 5 and 6 of R143, then the bookings: what an access does that names a lane, a path and bank cycles. -/
def State.bookAccess (s : State) (rope station lane : Nat) (segs : List Nat) (want : Option Nat) (tap : Nat)
    (uses : List (Nat × Nat)) (body : State → State) : State :=
  let bs := pathBookings (s.coreRope s.bnd.core) lane (transferTag s.cycle) station (s.cycle + 2) segs
  match s.laneFault rope lane bs want tap with
  | some c => s.scheduleFault (sfinfoWord c lane 0#6 0#6 0 0 0)
  | none =>
    match (s.rope rope).bankFault station uses with
    | some f => s.bankConflict rope station f
    | none => body (s.modRope rope (fun r => (r.bookLanes s.cycle bs).bookBanks s.cycle station uses))

/-! ### Accesses in flight -/

/-- An access of a core by its id. -/
def State.access (s : State) (core id : Nat) : Option Access :=
  (s.rope (ropeOf core)).accs.find? (fun a => a.id == id && a.core == core && !a.dead)
/-- The accesses of a core's rope changed or dropped. -/
def State.modAccess (s : State) (core id : Nat) (f : Access → Access) : State :=
  s.modRope (ropeOf core) (fun r => { r with accs := listMod (fun a => a.id == id) f r.accs })
def State.dropAccess (s : State) (core id : Nat) : State :=
  s.modRope (ropeOf core) (fun r => { r with accs := r.accs.filter (fun a => a.id != id) })

/-- A new access of the issuing slot with nothing in it yet. -/
def State.newAccess (s : State) (kind : AccKind) (off lane tap station : Nat) : Access :=
  { id := s.nextId, core := s.bnd.core, issue := s.cycle, slot := s.bnd.slot.num, pc := s.bnd.lat.pc, word := s.bnd.word, kind := kind,
    off := off, lane := lane, tap := tap, station := station, travel := 0, dest := 0, phys := 0, lanes := 0xFFFF#16, idx := [],
    wr := [], opnd := 0#64, cmp := 0#64, banks := [], data := none, interlocked := false, tagged := none, dead := false,
    handler := s.bnd.handler, shift := 0, discarded := false, orphan := false }

/-- Put an access in flight. -/
def State.addAccess (s : State) (a : Access) : State :=
  (s.fresh).2.modRope (ropeOf a.core) (fun r => { r with accs := r.accs ++ [a] })

/-- The late cause of an access (R339). During a rollback a cause of an access issued at or after the target's H is discarded,
and that of an earlier one is held for H′ (R320). A core that has retired takes no trap any more: R185 does not wait for stores, and of a cause
found later the spec says nothing. DESIGN CHOICE, unsafe: log entry 93. -/
def State.accessCause (s : State) (a : Access) (cause sub : Nat) (records : List (Nat × W64)) : State :=
  let h : HeldCause := { cause := cause, sub := sub, pc := a.pc, word := a.word, issue := a.issue, slot := a.slot, records := records }
  let c := s.core a.core
  if a.orphan then s
  else match c.belay.roll with
  | none => s.lateCause a.core h a.handler
  | some r =>
    let target := (c.belay.regions.reverse.drop (r.target - 1)).head?
    let start := match target with
      | some g => g.h
      | none => 0
    if start ≤ a.issue then s else s.modCore a.core (fun x => { x with owed := insertHeld h x.owed })

/-- A result that lands after the freeze of a slip or self-test waits with the others (R77, R354, R356). -/
def Core.slipLanding (c : Core) (l : Landing) : Option Core :=
  match c.slip with
  | some w => if l.at_ ≤ w.1 then none else some { c with slip := some (w.1, w.2 ++ [l]) }
  | none => none

/-- Land a value of an access, unless a rollback discards it: in the trap frame where the core froze before this landing cycle (R339, R346), and with
the frozen results of a slip or self-test (R77). -/
def State.landAccess (s : State) (a : Access) (at_ : Nat) (eff : Effect) : State :=
  let l : Landing :=
    { id := a.id, at_ := at_ + a.shift, issue := a.issue, slot := a.slot, pc := a.pc, word := a.word, eff := eff, flags := 0#6,
      cluster := 0, lane := 0, handler := a.handler, busyTile := 0, busyCount := 0 }
  let put := match (s.core a.core).slipLanding l with
    | some c => s.setCore a.core c
    | none => (s.modCore a.core (fun x => { x with inflight := x.inflight ++ [l] })).scheduleLanding a.core l
  if a.discarded then s
  else match (s.core a.core).frame with
  | none => put
  | some f =>
    if a.handler || decide (l.at_ ≤ f.c) then put
    else s.modCore a.core (fun x => { x with frame := some { f with landings := f.landings ++ [l] } })

/-! ### Bank reads and writes -/

/-- 8-byte words that bytes of the scratchpad lie in. -/
def wordsOf (offs : List Nat) : List Nat := (offs.map (fun o => o / 8)).foldl (fun acc w => if acc.contains w then acc else acc ++ [w]) []

/-- Whether a location is one of the named scratchpad words. -/
def padHit (rope : Nat) (words : List Nat) : StorageLoc → Bool
  | .scratch r n => r.val == rope && words.contains n
  | _ => false

/-- A core access consumes scratchpad words: a correctable error is corrected in flight and counted, an uncorrectable one is a
detected error of this cycle (R55, R317). -/
def State.consumePad (s : State) (core : Nat) (hit : StorageLoc → Bool) : State :=
  let hits := s.flips.filter (fun f => hit f.loc)
  let n := (hits.filter (fun f => !f.bad)).length
  let s1 := if n = 0 then s
    else s.modCore core (fun c => c.count s.cycle 0x008 n)
  if hits.any (·.bad) then s1.detect core else s1

/-- The region a write is journalled for: the innermost open region that is not a pitch, among those open when the access
issued, the one that its own bundle opened among them: that bundle issues again at H′ (R315, R321). Its depth counts from 1, the outermost. -/
def Belay.journalDepth (b : Belay) (id : Nat) : Option Nat :=
  let n := b.regions.length
  ((upTo n).find? (fun i => match b.regions[i]? with
    | some g => !g.pitch && decide (g.first ≤ id)
    | none => false)).map (fun i => n - i)

/-- Lines of the journal in use (R314, R315). -/
def Belay.used (b : Belay) : Nat := b.journal.length + (b.regions.map (·.movedLines)).foldl (· + ·) 0

/-- The regions at or outside a depth that are not pitches become unprotected (R323). -/
def Belay.unprotect (b : Belay) (depth : Nat) : Belay :=
  let n := b.regions.length
  { b with regions := (upTo n).flatMap (fun i => match b.regions[i]? with
      | some g => [if decide (n - i ≤ depth) && !g.pitch then { g with unprotected := true } else g]
      | none => []) }

/-- Capture the old bytes of a line before a core's write to it (R315, R323). DEDUCED, unsafe: log entry 31. -/
def State.journal (s : State) (core line id : Nat) : State :=
  let b := (s.core core).belay
  match b.journalDepth id with
  | none => s
  | some d =>
    if b.journal.any (fun e => e.depth == d && e.line == line) then s
    else if 1024 ≤ b.used then s.modCore core (fun c => { c with belay := b.unprotect d })
    else
      let old := readBytes s.mem (keyPad (ropeOf core) line) 64
      let live := (s.rope (ropeOf core)).typeBits.filter (fun n => n / 8 == line / 64)
      s.modCore core (fun c => { c with belay := { b with journal := b.journal ++ [{ depth := d, line := line, bytes := old, live := live }] } })

/-- Bytes written to a scratchpad, one by one. -/
def writePad (rope : Nat) (m : List Host.Cell) (ws : List (Nat × Byte)) : List Host.Cell :=
  ws.foldl (fun acc w => memPut acc (keyPad rope w.1) w.2) m

/-- Whether bytes of a write lie in a live barrier word (R69, R71). -/
def Rope.barrierAt (r : Rope) (offs : List Nat) : Bool := !r.typeBits.isEmpty && offs.any (fun o => r.typeBits.contains (o / 8))

/-- A core's write of bytes to its rope's scratchpad at a bank cycle: the lines are journalled, whole words get new codewords,
and a partial write of an uncorrectable word is a detected error and leaves that word (R55, R315). -/
def State.padWrite (s : State) (core : Nat) (ws : List (Nat × Byte)) (id : Nat) (journalled : Bool) : State :=
  let rope := ropeOf core
  let words := wordsOf (ws.map (·.1))
  let whole := words.filter (fun w => decide (8 ≤ (ws.filter (fun x => x.1 / 8 == w)).length))
  let part := words.filter (fun w => !whole.contains w)
  let bad := if s.flips.isEmpty then [] else part.filter (fun w => s.flips.any (fun f => f.bad && padHit rope [w] f.loc))
  let lines := (ws.map (fun w => lineBase w.1)).foldl (fun acc l => if acc.contains l then acc else acc ++ [l]) []
  let s1 := if journalled then lines.foldl (fun acc l => acc.journal core l id) s else s
  let s2 := { s1 with mem := writePad rope s1.mem (ws.filter (fun w => !bad.contains (w.1 / 8))) }
  if s.flips.isEmpty then s2
  else ((s2.consumePad core (padHit rope part)).overwrite (padHit rope whole)).overwrite (padHit rope (part.filter (fun w => !bad.contains w)))

/-- The bytes of a core's store at its bank cycle: a live barrier word refuses the whole access with a late trap (R71). -/
def State.storeWrite (s : State) (a : Access) (ws : List (Nat × Byte)) : State :=
  if (s.rope (ropeOf a.core)).barrierAt (ws.map (·.1)) then (s.dropAccess a.core a.id).accessCause a 13 0 []
  else s.padWrite a.core ws a.id true

end Sys2Proof.Machine
end

