-- ==== Sys2Proof/Machine/Far.lean ====
section
/-!
DEFINITION. Far operations (R88–R92, R144, R155, R156), the rope's data translation buffer and the die's walker (R22–R33),
host windows (R20), the memory ports (R27, R63, R64) and the far-fault record (R38).
-/

namespace Sys2Proof.Machine

/-! ### Page walks (R21–R28) -/

/-- What a walk finds: a fault code, or a page with its permissions. -/
inductive WalkResult where
  | fault (code : Nat)
  | page (vbase size pbase : Nat) (r w x : Bool)
  deriving DecidableEq, Repr

/-- Whether an HBM word of this package is uncorrectable. -/
def State.hbmBad (s : State) (phys : Nat) : Bool :=
  s.flips.any (fun f => f.bad && (match f.loc with
    | .hbm n => n == phys / 8
    | _ => false))

/-- Bytes a leaf at a level maps (R22). -/
def leafSize (level : Nat) : Nat := 2 ^ (12 + 9 * level)

/-- Whether a leaf entry is malformed at its level (R24, R28). -/
def leafMalformed (instr : Bool) (level ppn va : Nat) (c : Bool) : Bool :=
  decide (3 ≤ level) || (instr && level != 1) || (c && (instr || level != 0)) ||
  (level == 2 && ppn % 2 ^ 18 != 0) || (level == 1 && ppn % 2 ^ 9 != 0) || (c && ppn % 16 != field va 12 4)

/-- The page a leaf entry gives (R25). -/
def leafPage (level ppn va pte : Nat) : WalkResult :=
  let c := field pte 7 1 = 1
  let size := if c then 65536 else leafSize level
  .page (va / size * size) size ((if c then ppn / 16 * 16 else ppn) * 4096) (field pte 4 1 = 1) (field pte 5 1 = 1) (field pte 6 1 = 1)

/-- Home die of a physical address (R21). -/
def homeDie (phys : Nat) : Nat := field phys 36 5

/-- Whether a physical byte of this package lies in a fenced channel (R464). -/
def State.fencedAt (s : State) (phys : Nat) : Bool := bitAt (s.die (homeDie phys)).fenced (Config.hbmChannel (phys / 64 * 64) % 32)

/-- One entry of a walk at a level (R24, R26, R28): the next table, or an end of the walk: a fenced channel (R464), bad data, not mapped, malformed, or a
leaf. -/
def State.walkEntry (s : State) (pkg : Nat) (instr : Bool) (va level base : Nat) : Sum Nat WalkResult :=
  let a := base + 8 * field va (12 + 9 * level) 9
  let pte := readNat s.mem (keyHbm pkg a) 8
  let ppn := field pte 12 36
  if pkg = Config.ownPackage ∧ s.fencedAt a then .inr (.fault 9)
  else if pkg = Config.ownPackage ∧ s.hbmBad a then .inr (.fault 8)
  else if field pte 0 1 = 0 then .inr (.fault 6)
  else if field pte 48 16 ≠ 0 ∨ field pte 8 4 ≠ 0 ∨ field pte 2 2 ≠ 0 ∨ 2 ^ 29 ≤ ppn then .inr (.fault 7)
  else if field pte 1 1 = 0 then (if field pte 7 1 = 1 then .inr (.fault 7) else .inl (ppn * 4096))
  else if leafMalformed instr level ppn va (field pte 7 1 = 1) then .inr (.fault 7)
  else if instr ∧ field pte 6 1 = 0 then .inr (.fault 5)
  else .inr (leafPage level ppn va pte)

/-- The last level of a walk, whose entries are leaves (R22, R28). -/
def lastLevel (instr : Bool) (level : Nat) : Bool := level == 0 || (instr && level == 1)

/-- A walk from a table at a level and downward, in a package's HBM (R22–R28): an entry that is no leaf at the last level is
malformed. -/
def State.walkFrom (s : State) (pkg : Nat) (instr : Bool) (va : Nat) : Nat → Nat → WalkResult
  | 0, base => match s.walkEntry pkg instr va 0 base with
    | .inl _ => .fault 7
    | .inr r => r
  | level + 1, base => match s.walkEntry pkg instr va (level + 1) base with
    | .inl b => if lastLevel instr (level + 1) then .fault 7 else s.walkFrom pkg instr va level b
    | .inr r => r

/-- Identifier and table of a translation root (R30). -/
def rootAsid (root : W64) : Nat := bitsNat root 59 48
def rootBase (root : W64) : Nat := bitsNat root 47 12 * 4096

/-- The whole walk of a root (R22, R28). -/
def State.walk (s : State) (pkg : Nat) (instr : Bool) (root : W64) (va : Nat) : WalkResult :=
  s.walkFrom pkg instr va (if instr then 3 else 4) (rootBase root)

/-- The next read of a die's walker for a walk (R22, R28): the level and table of the entry that follows, or the walk's end. -/
def State.walkNext (s : State) (w : Walk) : Sum (Nat × Nat) WalkResult :=
  let p := w.at_.getD (if w.instr then 3 else 4, rootBase w.root)
  match s.walkEntry Config.ownPackage w.instr w.va p.1 p.2 with
  | .inl b => if lastLevel w.instr p.1 then .inr (.fault 7) else .inl (p.1 - 1, b)
  | .inr r => .inr r

/-! ### Translation buffers (R31–R33) -/

/-- What an off-core access does to its location. -/
inductive OffKind where
  | read | write
  deriving DecidableEq, Repr

/-- Whether an entry allows an access (R23). -/
def DtbEntry.allows (e : DtbEntry) : OffKind → Bool
  | .read => e.r
  | .write => e.w

/-- The entry that covers an address (R31). -/
def Rope.dtbFind (r : Rope) (asid : Nat) (window : Bool) (va : Nat) : Option DtbEntry :=
  r.dtb.find? (fun e => e.asid == asid && e.window == window && decide (e.vbase ≤ va) && decide (va < e.vbase + e.size))

/-- The set of a buffer entry (R31). -/
def DtbEntry.set (e : DtbEntry) : Nat := Config.dtbSet e.asid e.vbase % 256

/-- Install an entry in its set of 8 ways; a full set drops one that the spec does not name (R31). -/
def State.dtbInstall (s : State) (rope : Nat) (e : DtbEntry) : State :=
  let r := s.rope rope
  let keep := r.dtb.filter (fun x => !(x.asid == e.asid && x.window == e.window && x.vbase == e.vbase && x.size == e.size))
  let ways := keep.filter (fun x => x.set == e.set)
  if ways.length < 8 then s.setRope rope { r with dtb := e :: keep }
  else
    let v := Config.dtbVictim (s.freeIndex (ropeAgent rope)) % 8
    (s.useFree (ropeAgent rope)).setRope rope
      { r with dtb := e :: (keep.filter (fun x => x.set != e.set) ++ ways.take v ++ ways.drop (v + 1)) }

/-- The descriptor of a host window (R20): key ASID × 64 + window. -/
def State.window (s : State) (asid win : Nat) : HostWindow := tblGet .reset (asid * 64 + win) s.host.windows

/-- Translate a host-window offset: the buffer's copy of the descriptor, or the descriptor itself, which is then cached
(R20, R31). -/
def State.windowEntry (s : State) (rope asid off : Nat) : Nat × Option DtbEntry :=
  match (s.rope rope).dtbFind asid true off with
  | some e => (0, some e)
  | none =>
    let w := s.window asid (off / 2 ^ 42)
    let o := off % 2 ^ 42
    if !w.valid || decide (w.len ≤ o) then (4, none)
    else (0, some { asid := asid, window := true, vbase := off / 4096 * 4096, size := 4096, pbase := w.base.toNat + o / 4096 * 4096,
                    r := w.r, w := w.w })

/-- How an address of space 0 or 4 is translated at once: a fault code, a physical or host address, or a miss. -/
inductive Lookup where
  | fault (code : Nat)
  | found (phys : Nat)
  | miss
  deriving DecidableEq, Repr

/-- Look an address up in the rope's buffer (R31) and check its permissions (R20, R23). -/
def State.lookup (s : State) (rope : Nat) (root a : W64) (kind : OffKind) : Lookup :=
  let off := addrOffset a
  let asid := rootAsid root
  if addrSpace a = 4 then
    match s.windowEntry rope asid off with
    | (_, some e) => if e.allows kind then .found (e.pbase + (off - e.vbase)) else .fault 5
    | (c, none) => .fault c
  else
    match (s.rope rope).dtbFind asid false off with
    | some e => if e.allows kind then .found (e.pbase + (off - e.vbase)) else .fault 5
    | none => .miss

/-- The state after a lookup: a window descriptor used for the first time is cached (R31). -/
def State.cacheWindow (s : State) (rope : Nat) (root a : W64) : State :=
  if addrSpace a ≠ 4 then s
  else match (s.rope rope).dtbFind (rootAsid root) true (addrOffset a), s.windowEntry rope (rootAsid root) (addrOffset a) with
    | none, (_, some e) => s.dtbInstall rope e
    | _, _ => s

/-- The agent whose latencies a walk has: the core that fetches, or the rope. -/
def Walk.agent (w : Walk) : Nat :=
  match w.who with
  | .code core _ :: _ => coreAgent core
  | _ => ropeAgent w.rope

/-- Start walks that wait while fewer than 64 run on the die (R33). -/
def State.startWalks (s : State) (die : Nat) : State :=
  let d := s.die die
  if 64 ≤ (d.walks.filter (·.started)).length then s
  else match d.walks.find? (fun w => !w.started) with
    | none => s
    | some w =>
      (s.setDie die { d with walks := listMod (fun x => x.id == w.id) (fun x => { x with started := true }) d.walks }).scheduleFor w.agent 0
        (.translationWalkComplete (dieId die) w.id)

/-- A miss: join a walk of the same ASID and 4 KiB range of the rope, or begin one; none where the rope has 16 outstanding
(R33). DESIGN CHOICE, safe: log entry 33. -/
def State.beginWalk (s : State) (who : Walker) (rope : Nat) (instr : Bool) (root : W64) (va : Nat) : Option State :=
  let die := dieOfRope rope
  let d := s.die die
  let asid := rootAsid root
  let same (w : Walk) : Bool := w.instr == instr && w.rope == rope && w.asid == asid && w.va / 4096 == va / 4096
  match if instr then none else d.walks.find? same with
  | some w => some (s.setDie die { d with walks := listMod (fun x => x.id == w.id) (fun x => { x with who := x.who ++ [who] }) d.walks })
  | none =>
    if !instr && decide (16 ≤ (d.walks.filter (fun w => w.rope == rope && !w.instr)).length) then none
    else
      let n := s.fresh
      let w : Walk := { id := n.1, who := [who], rope := rope, instr := instr, asid := asid, root := root, va := va, started := false, at_ := none }
      some ((n.2.setDie die { d with walks := d.walks ++ [w] }).startWalks die)

/-! ### The memory ports (R27, R63, R64) -/

/-- Requester code at a home die for a request of another die or rope (R63): dies of one row of sixteen are reached over the
row links, those of the other row through the collective chiplet. -/
def requesterCode (rope home : Nat) : Nat :=
  let d := dieOfRope rope
  if d = home then rope % 16 else if d / 16 ≠ home / 16 then 16 else if d < home then 17 else 18

/-- Grantee of a memory port in a cycle; none by default (R63). -/
def Die.portGrantee (d : Die) (port cycle : Nat) : Nat := tblGet 31 (32 * (cycle % 64) + port) d.portGrants

/-- Queue a request at the memory port of its home; the port looks for its granted cycle from the next cycle on. -/
def State.portWait (s : State) (home : Nat) (w : PortWait) : State :=
  let d := s.die home
  let s1 := s.setDie home { d with portWaits := d.portWaits ++ [w] }
  if d.portWaits.any (fun x => !x.started && x.channel == w.channel) then s1
  else s1.schedule (s.cycle + 1) 6 (.memoryPortAccess (dieId home) (BitVec.ofNat 5 w.channel))

/-- The tenant of the launch a core holds. -/
def State.tenantOf (s : State) (core : Nat) : Nat :=
  match (s.core core).launch with
  | some l => l.tenant
  | none => 0

/-- A request for the home of a physical address, from a requester with the given code. -/
def State.requestAs (s : State) (code core rope id line what phys : Nat) : State :=
  let n := s.fresh
  n.2.portWait (homeDie phys)
    { id := n.1, channel := Config.hbmChannel (phys / 64 * 64) % 32, requester := code, farCore := core,
      farId := id, xferRope := rope, line := line, what := what, tenant := s.tenantOf core, phys := phys, started := false, owner := .outside,
      data := [], key := 0, ev := none }
/-- A request of a rope for the home of a physical address. -/
def State.request (s : State) (core rope id line what phys : Nat) : State :=
  s.requestAs (requesterCode rope (homeDie phys)) core rope id line what phys

/-- The physical address that a memory key stands for in the HBM of this package. -/
def ownPhys (key : Nat) : Option Nat :=
  if keyHbm Config.ownPackage 0 ≤ key ∧ key < keyHbm (Config.ownPackage + 1) 0 then some (key - keyHbm Config.ownPackage 0) else none

/-- A line of a collective chiplet at a memory key: at the port of its home die over the chiplet's link, or at another home, which has no port event
here, after a free delay (R63, R87, R102). -/
def State.chipLine (s : State) (tenant key : Nat) (data : Option (List Byte)) (owner : PortOwner) : State :=
  let n := s.fresh
  let w : PortWait :=
    { id := n.1, channel := 0, requester := 16, farCore := 0, farId := 0, xferRope := 0, line := 0, what := if data.isSome then 5 else 4,
      tenant := tenant, phys := 0, started := true, owner := owner, data := data.getD [], key := key, ev := none }
  match ownPhys key with
  | some p => n.2.portWait (homeDie p) { w with channel := Config.hbmChannel (p / 64 * 64) % 32, phys := p, started := false }
  | none => (n.2.modDie 0 (fun d => { d with portWaits := d.portWaits ++ [w] })).scheduleFor (tenantAgent tenant) 0 (.farAccessHomeService (coreId 0) n.1)

/-- The host address that a memory key stands for. -/
def hostByte (key : Nat) : Option Nat := if keyHost 0 ≤ key ∧ key < keyHost 0 + 2 ^ 64 then some (key - keyHost 0) else none

/-! ### Host transactions (R20, R451) -/

/-- A transaction header (R451). -/
def hostHeader (kind tag len status queue : Nat) : W64 :=
  BitVec.ofNat 64 (queue * 2 ^ 32 + status * 2 ^ 24 + len * 2 ^ 16 + (tag % 2 ^ 12) * 16 + kind)

/-- Send a transaction towards the host. -/
def State.hostSend (s : State) (w0 w1 : W64) (data : List Byte) : State :=
  { s with host := { s.host with outbox := s.host.outbox ++ [{ w0 := w0, w1 := w1, data := data }] } }

/-- A posted write towards the host (R20, R451): transactions carry units of 64 bytes, so one of fewer bytes sends its units with the rest as the
model's image of host memory has it. DESIGN CHOICE, unsafe: log entry 100. -/
def State.hostWrite (s : State) (host : Nat) (data : List Byte) : State :=
  let base := host / 64 * 64
  let n := (host % 64 + data.length + 63) / 64
  s.hostSend (hostHeader 1 0 n 0 0) (BitVec.ofNat 64 base) (readBytes (writeBytes s.mem (keyHost host) data) (keyHost base) (64 * n))

/-- A read request towards the host, for one unit (R20, R451): it reaches the host after a free delay of its agent. -/
def State.hostAsk (s : State) (agent host : Nat) (who : HostReader) : State :=
  let n := s.fresh
  let w0 := hostHeader 2 n.1 1 0 0
  let w1 := BitVec.ofNat 64 (host / 64 * 64)
  let t := n.2.hostSend w0 w1 []
  ({ t with host := { t.host with openReads := t.host.openReads ++ [(n.1 % 2 ^ 12, who)] } }).scheduleFor agent 0 (.readRequest false w0 w1)

/-- Whether a stored word of this package's HBM lies in a range of physical bytes. -/
def hbmHit (phys n : Nat) : StorageLoc → Bool
  | .hbm k => decide (phys ≤ 8 * k) && decide (8 * k + 8 ≤ phys + n)
  | _ => false

/-- Whether the aligned word of HBM at a memory key is uncorrectable, and the words of HBM that a write at a key covers: they hold no error any more (R41). -/
def State.keyBad (s : State) (k : Nat) : Bool :=
  match ownPhys k with
  | some p => s.hbmBad (p / 8 * 8)
  | none => false
def State.overwriteKey (s : State) (k n : Nat) : State :=
  match ownPhys k with
  | some p => s.overwrite (hbmHit p n)
  | none => s

/-- Bytes written at a memory key by the command processor, the loader or a chiplet: a word of HBM that they cover holds no error any more, and host
memory gets them by a posted write (R20, R41). -/
def State.putKey (s : State) (k : Nat) (b : List Byte) : State :=
  let t := { s with mem := writeBytes s.mem k b }
  match ownPhys k, hostByte k with
  | some p, _ => t.overwrite (hbmHit p b.length)
  | none, some a => { t with host := (s.hostWrite a b).host }
  | none, none => t

/-- Whether a write to space 4 waits for the posted writes sent before it (R451). -/
def State.postsWait (s : State) (a : W64) : Bool := addrSpace a == 4 && !s.host.posted.isEmpty

/-- The one transaction of a far operation or engine beat in space 4 (R20): a posted write, which takes its place in their order (R451), or a read. -/
def State.hostAccess (s : State) (agent : Nat) (key : Nat × Nat) (who : HostReader) (host : Nat) (data : Option (List Byte)) : State :=
  match data with
  | some d => let t := s.hostWrite host d
              { t with host := { t.host with posted := t.host.posted ++ [key] } }
  | none => s.hostAsk agent host who

/-- Whether a posted write is not the next to perform (R451), and the state once it has. -/
def State.postedWaits (s : State) (key : Nat × Nat) : Bool := s.host.posted.contains key && s.host.posted.head? != some key
def State.dropPosted (s : State) (key : Nat × Nat) : State := { s with host := { s.host with posted := s.host.posted.erase key } }

/-! ### Accesses of the command processor and the loader (R63, R64) -/

/-- Accesses of a group that have still to start. -/
def State.groupWaits (s : State) (group : Nat) : Bool :=
  s.dies.any (fun d => d.2.portWaits.any (fun w => w.what == 3 && w.farId == group && !w.started))

/-- Groups whose accesses have all started leave the ports. -/
def State.dropGroups (s : State) : State :=
  { s with dies := s.dies.map (fun d => (d.1, { d.2 with portWaits := d.2.portWaits.filter (fun w => w.what != 3 || s.groupWaits w.farId) })) }

/-- An access of a group has started: after the last of them its event follows. -/
def State.groupStarted (s : State) (w : PortWait) : State :=
  match w.ev with
  | none => s
  | some ev => if s.groupWaits w.farId then s else s.scheduleFree 6 ev

/-- The host has answered the access of a group that waits for it: it stands with those of die 0, under a channel that no port has. -/
def State.hostStarted (s : State) (id : Nat) : State :=
  let d := s.die 0
  match d.portWaits.find? (fun w => w.id == id && w.what == 3) with
  | none => s
  | some w => (s.setDie 0 { d with portWaits := listMod (fun x => x.id == id) (fun x => { x with started := true }) d.portWaits }).groupStarted w

/-- One access of a group: at the port of its home die, a read of host memory, or, where neither has an event here, nothing to wait for. -/
def State.askOne (s : State) (code group : Nat) (ev : Instr) (key : Nat) : State :=
  let n := s.fresh
  let w : PortWait :=
    { id := n.1, channel := 32, requester := code, farCore := 0, farId := group, xferRope := 0, line := 0, what := 3, tenant := 0, phys := 0,
      started := false, owner := .outside, data := [], key := key, ev := some ev }
  match ownPhys key, hostByte key with
  | some p, _ => n.2.portWait (homeDie p) { w with channel := Config.hbmChannel (p / 64 * 64) % 32, phys := p }
  | none, some a => (n.2.modDie 0 (fun d => { d with portWaits := d.portWaits ++ [w] })).hostAsk packageAgent a (.access n.1)
  | none, none => s

/-- Accesses at memory keys are asked for, and an event follows them: it falls due a free delay after the last of them has started in its granted cycle
or the host has answered (R20, R63, R64). The requester is that of the given code. The number names the accesses. -/
def State.askPorts (s : State) (code : Nat) (keys : List Nat) (ev : Instr) : Nat × State :=
  let n := s.fresh
  let here := keys.filter (fun k => (ownPhys k).isSome || (hostByte k).isSome)
  (n.1, if here.isEmpty then n.2.scheduleFree 6 ev else here.foldl (fun acc k => acc.askOne code n.1 ev k) n.2.dropGroups)
def State.afterPorts (s : State) (code : Nat) (keys : List Nat) (ev : Instr) : State := (s.askPorts code keys ev).2

/-- An event whose accesses wait for their grants: the first time it asks for them, and it comes again once they have started; then `body` is what it
does. -/
def State.afterGrants (s : State) (code : Nat) (keys : List Nat) (ev : Instr) (body : State → State) : State :=
  if s.disp.asked.contains ev then body { s with disp := { s.disp with asked := s.disp.asked.erase ev } }
  else ({ s with disp := { s.disp with asked := ev :: s.disp.asked } } : State).afterPorts code keys ev

/-- The partition check of the port (R27), and its fenced channels (R464). -/
def State.partitionCode (s : State) (tenant phys : Nat) : Nat :=
  let p := tblGet Machine.Partition.reset tenant s.sec.partitions
  if s.fencedAt phys then 9
  else if p.hbm.any (fun r => decide (r.1 ≤ phys) && decide (phys ≤ r.2)) then 0 else 9

/-- The request a port starts in this cycle, if any (R63). -/
def Die.portPick (d : Die) (channel cycle : Nat) : Option PortWait :=
  let g := d.portGrantee channel cycle
  let here := d.portWaits.filter (fun w => !w.started && w.channel == channel)
  if g = 30 then
    match minimumOf (here.map (·.requester)) with
    | some q => here.find? (fun w => w.requester == q)
    | none => none
  else if g < 20 then here.find? (fun w => w.requester == g)
  else none

/-- MEMORY_PORT_ACCESS (R63, R64): the grantee of this cycle starts one access; a requester with no grant waits. -/
def execMemoryPortAccess (die : DieId) (channel : BitVec 5) (s : State) : Host.Outcome State Fault Refusal :=
  let d := s.die die.val
  let pick := d.portPick channel.toNat s.cycle
  let waits := match pick with
    | some w => listMod (fun x => x.id == w.id) (fun x => { x with started := true }) d.portWaits
    | none => d.portWaits
  let s1 := s.setDie die.val { d with portWaits := waits }
  let s2 := match pick with
    | none => s1
    | some w =>
      let far := (s.core w.farCore).far.ops.find? (fun f => f.id == w.farId)
      match w.what, far with
      | 3, _ => s1.groupStarted w
      | 4, _ => s1.scheduleFor (tenantAgent w.tenant) 0 (.farAccessHomeService (coreId 0) w.id)
      | 5, _ => s1.scheduleFor (tenantAgent w.tenant) 0 (.farAccessHomeService (coreId 0) w.id)
      | 0, some f => s1.scheduleFree 6 (match f.kind with
          | .atomic _ _ => .globalAtomicHomeService (coreId w.farCore) w.farId
          | _ => .farAccessHomeService (coreId w.farCore) w.farId)
      | 2, _ => s1.scheduleFree 0 (.ceOffcoreWritePerform (ropeId w.xferRope) w.farId w.line)
      | _, _ => s1.scheduleFree 6 (.farAccessHomeService (coreId w.farCore) w.id)
  .next (if waits.any (fun w => !w.started && w.channel == channel.toNat) then
      s2.schedule (s.cycle + 1) 6 (.memoryPortAccess die channel)
    else s2)

/-- A started request that has been served leaves its port. -/
def State.dropPortWait (s : State) (p : PortWait → Bool) : State :=
  { s with dies := s.dies.map (fun e => (e.1, { e.2 with portWaits := e.2.portWaits.filter (fun w => !(w.started && p w)) })) }

/-! ### The far queue (R88–R91, R155, R156) -/

/-- A far operation of a core. -/
def Core.farOp (c : Core) (id : Nat) : Option FarOp := c.far.ops.find? (fun f => f.id == id)
/-- A core's far operations changed. -/
def State.modFar (s : State) (core id : Nat) (f : FarOp → FarOp) : State :=
  s.modCore core (fun c => { c with far := { c.far with ops := listMod (fun x => x.id == id) f c.far.ops } })
def State.dropFar (s : State) (core id : Nat) : State :=
  s.modCore core (fun c => { c with far := { c.far with ops := c.far.ops.filter (fun x => x.id != id) } })

/-- Whether an operation answers its core with a value or a status. -/
def FarKind.returns : FarKind → Bool
  | .store _ => false
  | _ => true

/-- Whether an operation is outstanding: until it has performed at its home and its value, if any, has landed (R156); one that has faulted is not.
DEDUCED, unsafe: log entry 13. -/
def FarOp.open (f : FarOp) : Bool := f.fault == 0 && (f.kind.returns || f.phase != .performed) && f.phase != .landed

/-- Outstanding far operations (R156), with the fetches of `ilock` and `ipref` (R357). -/
def Core.outstanding (c : Core) : Nat :=
  (c.far.ops.filter FarOp.open).length + (c.code.fetches.filter (fun f => !f.forIssue)).length

/-- Whether an operation has yet to perform at its home. -/
def FarOp.unperformed (f : FarOp) : Bool := f.fault == 0 && f.phase != .performed && f.phase != .landed

/-- Whether an access writes its scratchpad. -/
def AccKind.writes : AccKind → Bool
  | .ld _ _ => false
  | .vld => false
  | .vlds => false
  | .vgat => false
  | .ldsc => false
  | .st => true
  | .vst => true
  | .vsts => true
  | .vsct => true
  | .atomic _ _ => true
  | .barInit => true
  | .barArrive _ => true
  | .barFini => true

/-- Whether a fence holds back an off-core access with this sequence number (R90). -/
def State.fenced (s : State) (core seq : Nat) : Bool :=
  let c := s.core core
  c.far.fences.any (fun f => decide (f.1 < seq) &&
    (c.far.ops.any (fun o => decide (o.seq < f.1) && o.unperformed) ||
     (s.rope (ropeOf core)).accs.any (fun a => a.core == core && decide (a.issue < f.2) && a.kind.writes && !a.dead)))

/-- Whether an earlier request of the core to the same line has still to perform (R88). The spec does not say by which address lines are compared: the
rope compares space and virtual address, so requests to one line under two virtual addresses are not kept in order. DESIGN CHOICE, unsafe: log
entry 81. -/
def Core.lineBusy (c : Core) (f : FarOp) : Bool :=
  c.far.ops.any (fun o => decide (o.seq < f.seq) && o.unperformed && addrSpace o.addr == addrSpace f.addr &&
    o.addr.toNat / 64 == f.addr.toNat / 64)

/-- A far operation of the issuing slot: the last check made at issue is the count of outstanding operations (R144, R156). -/
def State.farIssue (s : State) (kind : FarKind) (addr data cmp : W64) (dest : Nat) : State :=
  let c := s.core s.bnd.core
  if 32 ≤ c.outstanding then s.timingFault 9
  else
    let n := s.fresh
    let f : FarOp :=
      { id := n.1, seq := c.far.nextSeq, kind := kind, addr := addr, phys := 0, data := data, cmp := cmp, dest := dest, pc := s.bnd.lat.pc,
        root := c.csrGet 0x100, phase := .queued, value := 0#64, fault := 0, heldBack := false, issued := s.cycle, handler := s.bnd.handler, desc := [],
        slot := s.bnd.slot.num, word := s.bnd.word }
    (n.2.setCore s.bnd.core { c with far := { c.far with ops := c.far.ops ++ [f], nextSeq := c.far.nextSeq + 1 } }).scheduleFree 6
      (.farRequestSend (coreId s.bnd.core) n.1)

/-- The records a trap writes for the far-fault record (R38). -/
def FarFault.records (f : FarFault) : List (Nat × W64) :=
  [(0x012, BitVec.ofNat 64 (f.code + if f.more then 2 ^ 63 else 0)), (0x013, f.addr), (0x014, pcWord f.pc)]

/-- The core after its far-fault record has been reported: the record is empty; the destination register of a faulted operation stays pending
(R38). -/
def Core.farReported (c : Core) : Core :=
  { c with far := { c.far with fault := none, ops := c.far.ops.filter (fun f => f.fault == 0 || (f.kind.returns && f.dest != 0)) } }

/-- A data-translation trap of a core that waits to retire (R38): TPC names the `end` bundle and RPL is empty. -/
def State.retireTrap (s : State) (core : Nat) (records : List (Nat × W64)) : State :=
  s.enterTrap core
    { cause := 10, sub := 0, slot := 11, word := Sys2Proof.encode .endOp, pc := (s.core core).seq.pc, fslots := 0#12, rpl := 0#12,
      reported := none, goOn := false, whole := false, waits := false, refetch := false, retiring := true, latched := .reset,
      records := records, nextIssue := s.cycle }

/-- A far fault is recorded: the first since the last trap is kept, and a later one sets MORE. A core that waits to retire
takes the trap at once (R38). -/
def State.farFault (s : State) (core id code : Nat) : State :=
  match (s.core core).farOp id with
  | none => s
  | some f =>
    let s1 := (s.modFar core id (fun x => { x with fault := code, phase := .performed })).modCore core (fun c =>
      { c with far := { c.far with fault := some (match c.far.fault with
          | none => { code := code, addr := f.addr, pc := f.pc, more := false }
          | some r => { r with more := true }) } })
    let c := s1.core core
    match c.far.fault with
    | some r =>
      if c.seq.run = .retiring ∧ c.frame.isNone then (s1.modCore core Core.farReported).retireTrap core r.records else s1
    | none => s1

/-- Whether an operation reads or writes its location (R23). -/
def FarKind.off : FarKind → OffKind
  | .load _ _ => .read
  | .store _ => .write
  | .atomic _ _ => .write
  | .ccall => .read
  | .ctrig => .read
  | .ckpt => .read

/-- Spaces a far operation may address (R17, R299). -/
def FarKind.spaces : FarKind → List Nat
  | .load _ _ => [0, 4, 5]
  | .store _ => [0, 4, 5]
  | .atomic _ _ => [0, 5]
  | .ccall => [0]
  | .ctrig => [1]
  | .ckpt => [0, 1]

/-- The bytes a store writes. -/
def FarOp.bytes (f : FarOp) : Option (List Byte) :=
  match f.kind with
  | .store size => some (leBytes (2 ^ size) f.data.toNat)
  | _ => none

/-- What the registered page table of a space 5 target gives for an offset: the target's own buffer answers where it holds the page, else its walker
(R32). The buffer keeps an entry until `TBINV` drops it. DESIGN CHOICE, unsafe: log entry 38. -/
def State.targetPage (s : State) (pkg key : Nat) (root : W64) (off : Nat) : WalkResult :=
  match s.sec.targetTb.find? (fun e => e.asid == key && decide (e.vbase ≤ off) && decide (off < e.vbase + e.size)) with
  | some e => .page e.vbase e.size e.pbase e.r e.w false
  | none => s.walk pkg false root off

/-- The key of a tenant's domain on the package that a space 5 address names, as `Security.domainRoots` has it. -/
def State.targetKey (s : State) (tenant : Nat) (a : W64) : Nat :=
  bitsNat a 55 51 * 2 ^ 16 + (tblGet Machine.Partition.reset tenant s.sec.partitions).domain

/-- Where a space 5 request lands at its target (R16, R32): a fault code, or the package and physical address. A domain identifier for which the
target has no page table registered answers as an entry that is not mapped, code 6: R32 does not say. DESIGN CHOICE, unsafe: log entry 38. -/
def State.tenantTarget (s : State) (tenant : Nat) (a : W64) (kind : OffKind) : Sum Nat (Nat × Nat) :=
  let pkg := bitsNat a 55 51
  let off := bitsNat a 50 0
  match s.sec.domainRoots.find? (fun e => e.1 == s.targetKey tenant a) with
  | none => .inl 6
  | some e =>
    match s.targetPage pkg e.1 e.2 off with
    | .fault c => .inl c
    | .page vb _ pb r w _ =>
      if !(if kind = .read then r else w) then .inl 5
      else
        let phys := pb + (off - vb)
        let c := if pkg = Config.ownPackage then s.partitionCode tenant phys else 0
        if c ≠ 0 then .inl c else .inr (pkg, phys)

/-- The target's buffer after a request has been translated there (R32). -/
def State.targetInstall (s : State) (tenant : Nat) (a : W64) : State :=
  let off := bitsNat a 50 0
  let key := s.targetKey tenant a
  match s.sec.domainRoots.find? (fun e => e.1 == key) with
  | none => s
  | some e =>
    match s.targetPage (bitsNat a 55 51) key e.2 off with
    | .fault _ => s
    | .page vb n pb r w _ =>
      if s.sec.targetTb.any (fun x => x.asid == key && x.vbase == vb && x.size == n) then s
      else { s with sec := { s.sec with targetTb :=
        { asid := key, window := false, vbase := vb, size := n, pbase := pb, r := r, w := w } :: s.sec.targetTb } }

/-- The same for the launch a core holds. -/
def State.domainTarget (s : State) (core : Nat) (a : W64) (kind : OffKind) : Sum Nat (Nat × Nat) := s.tenantTarget (s.tenantOf core) a kind

/-- A request on its way to a home that needs no translation here: the host, a peer package, or the collective chiplet. -/
def State.farDirect (s : State) (core : Nat) (f : FarOp) : State :=
  let s1 := s.modFar core f.id (fun x => { x with phase := .sent })
  match f.kind with
  | .atomic _ _ => s1.scheduleFree 6 (.globalAtomicHomeService (coreId core) f.id)
  | .ctrig => s1.scheduleFree 6 (.triggerArm (coreId core) f.id)
  | .ccall =>
    let n := s1.fresh
    let call : CcallReq :=
      { id := n.1, caller := some (core, f.id), tenant := s.tenantOf core, number := f.cmp.toNat, s := f.data.toNat, tt := 0, asked := [],
        accepted := [], closed := false, order := 0, sent := [], epoch := 0, lost := false }
    ({ n.2 with coll := { n.2.coll with calls := n.2.coll.calls ++ [call] } } : State).scheduleFor (coreAgent core) 6 (.ccallRequest n.1)
  | _ => s1.scheduleFree 6 (.farAccessHomeService (coreId core) f.id)

/-- A request leaves for its home (R20, R31, R32). -/
def State.farSend (s : State) (core : Nat) (f : FarOp) : State :=
  let rope := ropeOf core
  let sp := addrSpace f.addr
  if f.kind = .ccall then s.farDirect core f
  else
    let code := addrCode s.sec.members f.kind.spaces f.addr
    if code ≠ 0 then s.farFault core f.id code
    else if sp = 1 then s.farDirect core f
    else if sp = 5 then
      (match s.domainTarget core f.addr f.kind.off with
      | .inl _ => s.farDirect core f
      | .inr t =>
        let s0 := s.targetInstall (s.tenantOf core) f.addr
        if t.1 = Config.ownPackage then
          (s0.modFar core f.id (fun x => { x with phase := .waitingPort, phys := t.2 })).requestAs 16 core rope f.id 0 0 t.2
        else s0.farDirect core f)
    else
      let s0 := s.cacheWindow rope f.root f.addr
      match s.lookup rope f.root f.addr f.kind.off with
      | .fault c => s0.farFault core f.id c
      | .found phys =>
        if sp = 4 then
          let s1 := (s0.modFar core f.id (fun x => { x with phys := phys })).hostAccess (coreAgent core) (f.id, 0) (.far core f.id) phys f.bytes
          if f.kind.off = .read then s1.modFar core f.id (fun x => { x with phase := .sent }) else s1.farDirect core { f with phys := phys }
        else (s0.modFar core f.id (fun x => { x with phase := .waitingPort, phys := phys })).request core rope f.id 0 0 phys
      | .miss =>
        match s0.beginWalk (.farOp core f.id) rope false f.root (addrOffset f.addr) with
        | some s1 => s1.modFar core f.id (fun x => { x with phase := .walking })
        | none => s0.scheduleFree 6 (.farRequestSend (coreId core) f.id)

/-- FAR_REQUEST_SEND (R88, R90): a request leaves the rope once earlier requests to its line have performed and no fence holds
it; until then it is tried again. -/
def execFarRequestSend (core : CoreId) (id : Nat) (s : State) : Host.Outcome State Fault Refusal :=
  match (s.core core.val).farOp id with
  | none => .next s
  | some f =>
    if f.phase ≠ .queued then .next s
    else if s.fenced core.val f.seq || (s.core core.val).lineBusy f then .next (s.scheduleFree 6 (.farRequestSend core id))
    else .next (s.farSend core.val f)

/-- The home has performed an operation: its value, status or acknowledgement is on its way back (R155, R156). -/
def State.farAnswer (s : State) (core id : Nat) (v : W64) : State :=
  (s.modFar core id (fun x => { x with phase := .performed, value := v })).scheduleFree 4 (.farResponseArrival (coreId core) id)

/-- The result that a far value is in the cycle in which it arrives: it lands with the other results of that cycle, in issue order (R40, R156). -/
def FarOp.landing (f : FarOp) (now : Nat) : Landing :=
  { id := f.id, at_ := now, issue := f.issued, slot := f.slot, pc := f.pc, word := f.word, eff := .regs [.s f.dest f.value], flags := 0#6, cluster := 0,
    lane := 0, handler := f.handler, busyTile := 0, busyCount := 0 }

/-- The value of an operation lands (R156): in this cycle, as any result that lands in it (R40). -/
def State.landFar (s : State) (core : Nat) (f : FarOp) : State :=
  let s1 := s.dropFar core f.id
  if f.kind.returns && f.dest != 0 then
    (s1.modCore core (fun c => { c with inflight := c.inflight ++ [f.landing s.cycle] })).scheduleLanding core (f.landing s.cycle)
  else s1

/-- Whether a returning value waits: for `eret` (R156), or for the end of a self-test (R340, R354); a value that lands in the cycle of the freeze
lands (R339). -/
def Core.holdsBack (c : Core) (now : Nat) (f : FarOp) : Bool :=
  (!f.handler && (match c.frame with
    | some t => decide (t.c < now)
    | none => false)) || (c.seq.run == .testing && (match c.test with
    | some t => decide (t.2 < now)
    | none => false))

/-- FAR_RESPONSE_ARRIVAL (R156): the value lands; in trap mode the value of a frozen context's operation is held until the
first bundle after `eret` issues. -/
def execFarResponseArrival (core : CoreId) (id : Nat) (s : State) : Host.Outcome State Fault Refusal :=
  match (s.core core.val).farOp id with
  | none => .next s
  | some f =>
    if f.fault ≠ 0 then .next s
    else if f.kind.returns && (s.core core.val).holdsBack s.cycle f then
      .next (s.modFar core.val id (fun x => { x with heldBack := true }))
    else .next (s.landFar core.val f)

/-- Values held while the core was in trap mode land in the cycle in which its first bundle after `eret` would issue: its operands, latched in that
cycle, are the earlier values (R40, R156). DEDUCED, unsafe: log entry 82. -/
def State.releaseHeld (s : State) (core : Nat) : State :=
  ((s.core core).far.ops.filter (fun f => f.heldBack && !(s.core core).holdsBack s.cycle f)).foldl (fun acc f =>
    (acc.modFar core f.id (fun x => { x with heldBack := false })).schedule s.cycle 4 (.farResponseArrival (coreId core) f.id)) s

/-! ### Atomic operations (R152) -/

/-- The new value of the word, or none where a compare fails (R152). Codes are those of R140. -/
def atomicNew (op : Nat) (natural : Bool) (old opnd cmp : W64) : Option W64 :=
  let less : Bool := if natural then decide (old.toNat < opnd.toNat) else decide (old.toInt < opnd.toInt)
  if op = 6 then some (old + opnd)
  else if op = 7 then some (if less then old else opnd)
  else if op = 8 then some (if less then opnd else old)
  else if op = 9 then some opnd
  else if op = 10 then (if old = cmp then some opnd else none)
  else if op = 11 then some (old &&& opnd)
  else if op = 12 then some (old ||| opnd)
  else some (old ^^^ opnd)

/-- Write a 64-bit word. -/
def writeWord64 (m : List Host.Cell) (k : Nat) (v : W64) : List Host.Cell := writeBytes m k (leBytes 8 v.toNat)

/-- The memory key that the home of an operation serves, or a fault code. -/
def State.farHome (s : State) (core : Nat) (f : FarOp) : Sum Nat Nat :=
  let sp := addrSpace f.addr
  if sp = 4 then .inr (keyHost f.phys)
  else if sp = 5 then
    match s.domainTarget core f.addr f.kind.off with
    | .inl c => .inl c
    | .inr t => .inr (keyHbm t.1 t.2)
  else
    let c := s.partitionCode (s.tenantOf core) f.phys
    if c ≠ 0 then .inl c else .inr (keyHbm Config.ownPackage f.phys)

/-- GLOBAL_ATOMIC_HOME_SERVICE (R154): the atomic unit at the home reads, modifies and writes the word as one service. The old value of an uncorrectable
word is a free value. DESIGN CHOICE, safe: log entry 11. -/
def execGlobalAtomicHomeService (core : CoreId) (id : Nat) (s : State) : Host.Outcome State Fault Refusal :=
  match (s.core core.val).farOp id with
  | none => .next s
  | some f =>
    let s1 := s.dropPortWait (fun w => w.what == 0 && w.farId == id)
    match f.kind, s.farHome core.val f with
    | .atomic _ _, .inl c => .next (s1.farFault core.val id c)
    | .atomic op n, .inr k =>
      let agent := coreAgent core.val
      let bad := s.keyBad k
      let old := if bad then Config.freeWord (s.freeIndex agent) else readWord64 s.mem k
      let s1 := if bad then s1.useFree agent else s1
      let s2 := match atomicNew op n old f.data f.cmp with
        | some v => { s1 with mem := writeWord64 s1.mem k v }.overwriteKey k 8
        | none => s1
      .next (s2.farAnswer core.val id old)
    | _, _ => .next s1

end Sys2Proof.Machine
end

