-- ==== Sys2Proof/Machine/Load.lean ====
section
/-!
DEFINITION. The LD slot (R138, R142–R147, R155, R157): statically timed loads, their bank read and tap, tagged loads, the
interlocked forms, and far loads.
-/

namespace Sys2Proof.Machine

/-! ### Handles as loads see them (R65, R68, R145, R184) -/

/-- Whether a handle of a core's rope lies in its tenant's range (R184). -/
def State.handleOwned (s : State) (core h : Nat) : Bool :=
  (tblGet Machine.Partition.reset (s.tenantOf core) s.sec.partitions).handles.any (fun r =>
    r.1 == ropeOf core && decide (r.2.1 ≤ h) && decide (h ≤ r.2.2))

/-- A handle fault of the issuing slot (R38, R66): its code and address stay in the handle and go into no CSR. DESIGN CHOICE, unsafe: log entry 94. -/
def State.handleFault (s : State) : State := s.slotFault 9 0 true []

/-- What the tag check of a tagged load finds. -/
inductive TagCheck where
  | pass
  | handle
  | notFull
  | mismatch (want found : BitVec 16)
  deriving DecidableEq, Repr

/-- The tag check (R145): faulted or out of range, not full, first tag mismatch. -/
def State.tagCheck (s : State) (core h : Nat) (want : BitVec 16) (off : Nat) : TagCheck :=
  let x := (s.rope (ropeOf core)).handle h
  let line := off / 64
  if !s.handleOwned core h || x.st = .faulted || decide (line < x.base) || decide (x.base + x.len < line) then .handle
  else if x.st ≠ .full then .notFull
  else if !bitAt x.chk (posOf core) && x.tag != want then .mismatch want x.tag
  else .pass

/-- CHK bit of a core set (R145). -/
def State.setChk (s : State) (core h : Nat) : State :=
  s.modRope (ropeOf core) (fun r =>
    let x := r.handle h
    r.setHandle h { x with chk := setBit x.chk (posOf core) true })

/-- SFINFO of a failed tag check (R54). -/
def tagInfo (h : Nat) : TagCheck → W64
  | .mismatch want found => sfinfoWord 5 0 0#6 0#6 want.toNat found.toNat h
  | _ => sfinfoWord 6 0 0#6 0#6 0 0 h

/-! ### Words and bytes a load returns -/

/-- Whether an access has the IL bit (R138, R139, R157). -/
def ilWord (slot : Nat) (w : W32) : Bool :=
  (slot == 8 || slot == 9) && (bitsNat w 31 26 == 1 || bitsNat w 31 26 == 3) && bitAt w 2

/-- Lanes a load writes. -/
def Access.laneList (a : Access) : List Nat := (upTo 16).filter (fun i => bitAt a.lanes i)

/-- Scratchpad offset of the word of lane i: of the line, or of the gather window (R145, R146). -/
def Access.laneOff (a : Access) (i : Nat) : Nat :=
  match a.kind with
  | .vgat => a.off + 4 * nth 0 a.idx i
  | _ => a.off + 4 * i

/-- Scratchpad words whose bytes a load returns (R55). -/
def Access.loadWords (a : Access) : List Nat :=
  match a.kind with
  | .ld _ _ => [a.off / 8]
  | .vlds => wordsOf (a.laneList.map a.laneOff)
  | .vgat => wordsOf (a.laneList.map a.laneOff)
  | _ => (upTo 8).map (fun k => a.off / 8 + k)

/-- Words of the lane transfer that a load returns (R55). -/
def Access.laneWords (a : Access) : List Nat :=
  match a.kind with
  | .ld _ _ => [a.off / 8 % 8]
  | .vlds => a.laneList.map (· / 2)
  | _ => upTo 8

/-- The 64 bytes that cross the lane (R145, R146). -/
def State.laneData (s : State) (a : Access) : List Byte :=
  let rope := ropeOf a.core
  match a.kind with
  | .vgat => (upTo 16).flatMap (fun i => readBytes s.mem (keyPad rope (a.laneOff i)) 4)
  | _ => readBytes s.mem (keyPad rope (lineBase a.off)) 64

/-- The scalar that an `ld` returns (R145). -/
def loadScalar (off size : Nat) (sx : Bool) (line : List Byte) : W64 :=
  let w := 8 * 2 ^ size
  let x := leNat ((cut (2 ^ size) (cut (off % 64) line).2).1)
  if sx then BitVec.ofInt 64 (signedOf w x) else BitVec.ofNat 64 x

/-- What a load writes when it lands. -/
def Access.loaded (a : Access) (line : List Byte) : Effect :=
  match a.kind with
  | .ld size sx => .regs [.s a.dest (loadScalar a.off size sx line)]
  | .ldsc => .scale line
  | _ => .regs (a.laneList.map (fun i =>
      .v (vKey a.phys a.dest i) (BitVec.ofNat 32 (leNat (cut 4 (cut (4 * i) line).2).1))))

/-- Whether a location is one of the consumed words of a lane transfer. -/
def laneHit (rope id : Nat) (words : List Nat) : StorageLoc → Bool
  | .laneWord r x w => r.val == rope && x == id && words.contains w.val
  | _ => false

/-- The bank read of a load: its data goes onto the lane. Of the words it returns, a correctable one is corrected in flight and counted, and an
uncorrectable one is a detected error of this cycle (R55, R317, R330). DEDUCED, unsafe: log entry 32. -/
def State.bankRead (s : State) (a : Access) : State :=
  (s.modAccess a.core a.id (fun x => { x with data := some (s.laneData a), banks := [] })).consumePad a.core (padHit (ropeOf a.core) a.loadWords)

/-- The tap of a load (R53): the transfer at the station's segment must carry the load's own tag; a word that went bad on the lane is found here
(R55, R317); the value lands in the next cycle. -/
def State.tapLoad (s : State) (a : Access) : State :=
  let rope := ropeOf a.core
  let want := transferTag a.issue
  let s1 := s.dropAccess a.core a.id
  match (s.rope rope).tapAt a.lane a.station s.cycle with
  | none => s1.accessCause a 6 0 [(0x010, sfinfoWord 0 a.lane want 0#6 0 0 0)]
  | some tag =>
    if tag ≠ want then s1.accessCause a 6 0 [(0x010, sfinfoWord 1 a.lane want tag 0 0 0)]
    else
      match a.data with
      | none => s1.accessCause a 6 0 [(0x010, sfinfoWord 0 a.lane want 0#6 0 0 0)]
      | some line =>
        ((s1.consume a.core (laneHit rope a.id a.laneWords)).overwrite (laneHit rope a.id (upTo 8))).landAccess a (s.cycle + 1)
          (a.loaded line)

/-- LOAD_TAP (R51, R53): a load's bank read at issue + 2, then its tap at issue + t. -/
def execLoadTap (core : CoreId) (id : Nat) (s : State) : Host.Outcome State Fault Refusal :=
  match s.access core.val id with
  | none => .next s
  | some a => .next (if !a.banks.isEmpty && s.cycle == a.issue + 2 then s.bankRead a else s.tapLoad a)

/-! ### Starting a load (R143, R145–R147) -/

/-- The path of a load: from its bank, or for a gather from the bank farthest from the station (R146). -/
def loadPath (kind : AccKind) (lane off core : Nat) : List Nat :=
  let p := stationPos (loadStation core)
  match kind with
  | .vgat => pathSegs lane (if lane < 8 then (p + 1) % 32 else (p + 31) % 32) p
  | _ => pathSegs lane (bankPos (bankOf off)) p

/-- The banks of a load at a cycle: all sixteen for a gather (R146). -/
def loadBanks (kind : AccKind) (off cycle : Nat) : List (Nat × Nat) :=
  match kind with
  | .vgat => (upTo 16).map (fun b => (b, cycle))
  | _ => [(bankOf off, cycle)]

/-- Rows 5 to 7 of R143 for a load, and its bookings. `full` says that the scale queue has no room (R147); `tagged` names the
handle whose CHK bit it sets. -/
def State.startLoad (s : State) (kind : AccKind) (off lane tap dest phys : Nat) (lanes : BitVec 16) (idx : List Nat) (full : Bool)
    (tagged : Option Nat) : State :=
  let core := s.bnd.core
  let st := loadStation core
  let segs := loadPath kind lane off core
  let banks := loadBanks kind off (s.cycle + 2)
  s.bookAccess (ropeOf core) st lane segs none tap banks (fun t =>
    if full then s.slotFault 8 0 true []
    else
      let a : Access :=
        { t.newAccess kind off lane tap st with
            travel := segsTime (t.coreRope core) segs, dest := dest, phys := phys, lanes := lanes, idx := idx, banks := banks }
      let t1 := ((t.addAccess a).schedule (t.cycle + 2) 3 (.loadTap (coreId core) a.id)).schedule (t.cycle + tap) 4
        (.loadTap (coreId core) a.id)
      match tagged with
      | some h => t1.setChk core h
      | none => t1)

/-- An `.il` access waits for its bank cycle from issue + 2 on (R157). -/
def State.startInterlocked (s : State) (a : Access) : State :=
  (s.addAccess { a with interlocked := true }).schedule (s.cycle + 2) 3 (.interlockedAccessPerform (coreId s.bnd.core) a.id)

/-- LD (R145): `.il` outside the body of an `.il` loop is illegal (R142) -/
def execLd (o : LdOp) (s : State) : Host.Outcome State Fault Refusal :=
  .next (
    if o.il == 1#1 && !s.bnd.lat.il then s.illegalInstruction
    else s.portOp [o.a.toNat] [o.d.toNat] (fun t =>
      let a := t.rdPlain o.a
      let kind : AccKind := .ld o.size.toNat (o.sx == 1#1)
      if o.il = 1#1 then
        t.startInterlocked { t.newAccess kind (bitsNat a 22 0) o.lane.toNat 0 (loadStation t.bnd.core) with dest := o.d.toNat, cmp := a }
      else t.padAddr a (2 ^ o.size.toNat) (fun u =>
        u.startLoad kind (bitsNat a 22 0) o.lane.toNat o.tap.toNat o.d.toNat 0 0#16 [] false none)))

/-- LDG (R144, R155): only registers, alignment and the count of far operations are checked at issue -/
def execLdg (o : LdgOp) (s : State) : Host.Outcome State Fault Refusal :=
  .next (s.portOp [o.a.toNat] [o.d.toNat] (fun t =>
    t.aligned (t.rdPlain o.a) (2 ^ o.size.toNat) (fun u =>
      u.farIssue (.load o.size.toNat (o.sx == 1#1)) (u.rdPlain o.a) 0#64 0#64 o.d.toNat)))

/-- The check register of a tagged load: the handle and the expected tag, or none where other bits are set (R142, R145). -/
def checkReg (v : W64) : Option (Nat × BitVec 16) :=
  if v.toNat < 2 ^ 22 then some (bitsNat v 21 16, BitVec.ofNat 16 v.toNat) else none

/-- Rows 2 to 7 for a tagged load. -/
def State.startTagged (s : State) (a : W64) (h : Nat × BitVec 16) (lane tap dest phys : Nat) : State :=
  s.padAddr a 64 (fun t =>
    let r := t.tagCheck t.bnd.core h.1 h.2 (bitsNat a 22 0)
    match r with
    | .handle => t.handleFault
    | .pass => t.startLoad .vld (bitsNat a 22 0) lane tap dest phys 0xFFFF#16 [] false (some h.1)
    | _ => t.scheduleFault (tagInfo h.1 r))

/-- VLD (R142, R145): within row 1 of R143 a pending register is found before a check register's bits. DESIGN CHOICE, unsafe: log entry 99. -/
def execVld (o : VldOp) (s : State) : Host.Outcome State Fault Refusal :=
  let p := s.bm.phys o.c.toNat
  let reg := s.vreg o.d.toNat
  .next (
    if o.il == 1#1 && !s.bnd.lat.il then s.illegalInstruction
    else if o.h == 1#1 && bitAt o.a 0 then s.illegalOperand
    else s.portOp (o.a.toNat :: (if o.h = 1#1 then [o.a.toNat + 1] else [])) [vRegKey p reg] (fun t =>
      let a := t.rdPlain o.a
      let tag := if o.h = 1#1 then checkReg (t.rdPlain (o.a + 1#5)) else none
      if o.h == 1#1 && tag.isNone then t.illegalOperand
      else if o.il = 1#1 then
        t.startInterlocked
          { t.newAccess .vld (bitsNat a 22 0) o.lane.toNat 0 (loadStation t.bnd.core) with dest := reg, phys := p, cmp := a, tagged := tag }
      else match tag with
        | some h => t.startTagged a h o.lane.toNat o.tap.toNat reg p
        | none => t.padAddr a 64 (fun u =>
            u.startLoad .vld (bitsNat a 22 0) o.lane.toNat o.tap.toNat reg p 0xFFFF#16 [] false none)))

/-- VLDS (R145): only the lanes whose predicate bit reads 1 at issue -/
def execVlds (o : VmaskOp) (s : State) : Host.Outcome State Fault Refusal :=
  let p := s.bm.phys o.c.toNat
  let reg := s.vreg o.v.toNat
  .next (s.portOp (o.a.toNat :: (if o.q = 0#3 then [] else [10000 + qKey p o.q.toNat])) [vRegKey p reg] (fun t =>
    let a := t.rdPlain o.a
    t.padAddr a 64 (fun u =>
      u.startLoad .vlds (bitsNat a 22 0) o.lane.toNat o.tap.toNat reg p (u.qAt p o.q.toNat) [] false none)))

/-- VGAT (R146) -/
def execVgat (o : VwinOp) (s : State) : Host.Outcome State Fault Refusal :=
  let p := s.bm.phys o.c.toNat
  let reg := s.vreg o.v.toNat
  .next (s.portOp [o.a.toNat, vRegKey p reg] [vRegKey p reg] (fun t =>
    let a := t.rdPlain o.a
    t.padAddr a 1024 (fun u =>
      u.startLoad .vgat (bitsNat a 22 0) o.lane.toNat o.tap.toNat reg p 0xFFFF#16
        ((upTo 16).map (fun i => bitsNat (u.vAt p reg i) 7 0)) false none)))

/-- LDSC (R147): no room in the scale queue is a queue imbalance, the last check -/
def execLdsc (o : LdscOp) (s : State) : Host.Outcome State Fault Refusal :=
  .next (s.portOp [o.a.toNat] [] (fun t =>
    let a := t.rdPlain o.a
    let c := t.core t.bnd.core
    t.padAddr a 64 (fun u =>
      u.startLoad .ldsc (bitsNat a 22 0) o.lane.toNat o.tap.toNat 0 0 0#16 []
        (decide (32 ≤ c.mx.scaleQ.length + (t.scalesInFlight t.bnd.core).length)) none)))

/-! ### Interlocked accesses (R157) -/

/-- Whether the `.il` accesses of the core before this one allow it a bank cycle: they perform in issue order. DEDUCED, unsafe: log entry 24. -/
def State.ilOrder (s : State) (a : Access) (cycle : Nat) : Bool :=
  !(s.rope (ropeOf a.core)).accs.any (fun e => e.core == a.core && decide (e.id < a.id) && ilWord e.slot e.word &&
    (e.interlocked || e.banks.any (fun b => decide (cycle < b.2))))

/-- What the checks at the cycle it performs find: a late cause, or nothing (R157). -/
def State.ilFault (s : State) (a : Access) (align : Nat) : Option (Nat × List (Nat × W64)) :=
  let rope := ropeOf a.core
  let code := addrCode s.sec.members [1] a.cmp
  if a.cmp.toNat % align ≠ 0 then some (12, [])
  else if code ≠ 0 then some (10, [(0x012, BitVec.ofNat 64 code), (0x013, a.cmp)])
  else
    let tag := match a.tagged with
      | some h => s.tagCheck a.core h.1 h.2 a.off
      | none => .pass
    let h := match a.tagged with
      | some h => h.1
      | none => 0
    match tag with
    | .handle => some (9, [])
    | .mismatch w f => some (6, [(0x010, tagInfo h (.mismatch w f))])
    | _ =>
      if bitAt (s.coreRope a.core).deadln a.lane then some (6, [(0x010, sfinfoWord 3 a.lane 0#6 0#6 0 0 0)])
      else if (s.rope rope).owner a.lane ≠ 31 then some (6, [(0x010, sfinfoWord 4 a.lane 0#6 0#6 0 0 0)])
      else none

/-- Whether a tagged `.il` load still waits for its handle to be full. -/
def State.ilWaits (s : State) (a : Access) : Bool :=
  match a.tagged with
  | some h => s.tagCheck a.core h.1 h.2 a.off == .notFull
  | none => false

/-- Alignment of an access by its kind (R143). -/
def AccKind.align : AccKind → Nat
  | .ld size _ => 2 ^ size
  | _ => 64

/-- Whether an `.il` access finds its bank cycle, its turn and its path in this cycle (R157). -/
def State.ilReady (s : State) (a : Access) (at_ : Nat) (bs : List LaneBooking) : Bool :=
  let r := s.rope (ropeOf a.core)
  s.ilOrder a at_ && (r.bankFault a.station [(bankOf a.off, at_)]).isNone && r.pathFree bs

/-- The alignment an `.il` access needs: a store keeps its width as `tap`. -/
def Access.ilAlign (a : Access) : Nat := if a.tap = 0 then a.kind.align else a.tap

/-- INTERLOCKED_ACCESS_PERFORM (R157): from issue + 2 on, the first cycle in which the bank cycle is granted and the path free. A
load reads its bank in this cycle, where its checks are made; a store leaves its station in this cycle and is checked as it writes, after its travel. A
wait for the grant, the path or a full handle is no fault. -/
def execInterlockedAccessPerform (core : CoreId) (id : Nat) (s : State) : Host.Outcome State Fault Refusal :=
  match s.access core.val id with
  | none => .next s
  | some a =>
    let rope := ropeOf core.val
    let load := !a.kind.writes
    let bank := bankOf a.off
    let segs := if load then pathSegs a.lane (bankPos bank) (stationPos a.station) else pathSegs a.lane (stationPos a.station) (bankPos bank)
    let travel := segsTime (s.coreRope core.val) segs
    let at_ := if load then s.cycle else s.cycle + travel
    let bs := pathBookings (s.coreRope core.val) a.lane (transferTag a.issue) a.station s.cycle segs
    let again := s.schedule (s.cycle + 1) 3 (.interlockedAccessPerform core id)
    if !s.ilReady a at_ bs || s.ilWaits a then .next again
    else match if load then s.ilFault a a.ilAlign else none with
      | some c => .next ((s.dropAccess core.val id).accessCause a c.1 0 c.2)
      | none =>
          let s1 := (s.modRope rope (fun x => (x.bookLanes s.cycle bs).bookBanks s.cycle a.station [(bank, at_)])).modAccess core.val id
            (fun x => { x with interlocked := false, banks := [(bank, at_)], travel := travel })
          let s2 := match a.tagged with
            | some h => s1.setChk core.val h.1
            | none => s1
          .next (if load then (s2.bankRead a).schedule (s.cycle + travel) 4 (.loadTap core id)
            else s2.schedule at_ 3 (.storeBankWrite core id (BitVec.ofNat 4 bank)))

end Sys2Proof.Machine
end

