-- ==== Sys2Proof/Machine/Store.lean ====
section
/-!
DEFINITION. The ST slot (R139–R144, R148–R155, R157, R158): stores, scatters, scratchpad and global atomics, far stores and
fences, with their bank writes.
-/

namespace Sys2Proof.Machine

/-! ### Starting a store (R143, R148–R151) -/

/-- A store with the `.g` completer in a bundle whose `cmpt` fails is suppressed (R150). -/
def State.suppressed (s : State) (g : BitVec 1) : Bool := g == 1#1 && s.bnd.lat.cmptFail

/-- Bytes with the scratchpad offsets they go to. -/
def bytesAt (off : Nat) (bs : List Byte) : List (Nat × Byte) := (upTo bs.length).map (fun i => (off + i, nth 0#8 bs i))

/-- The path of a store: to its bank, or for a scatter to the last bank the transfer reaches (R149). -/
def storePath (kind : AccKind) (lane off core : Nat) : List Nat :=
  let p := stationPos (storeStation core)
  match kind with
  | .vsct => pathSegs lane p (if lane < 8 then (p + 31) % 32 else (p + 1) % 32)
  | _ => pathSegs lane p (bankPos (bankOf off))

/-- The bank cycles of a store: of all sixteen banks as the transfer passes them for a scatter (R149). -/
def storeBanks (m : RopeMap) (kind : AccKind) (lane off core cycle tap : Nat) : List (Nat × Nat) :=
  match kind with
  | .vsct => (upTo 16).map (fun b => (b, cycle + 2 + segsTime m (pathSegs lane (stationPos (storeStation core)) (bankPos b))))
  | _ => [(bankOf off, cycle + tap)]

/-- Rows 5 and 6 of R143 for a store, and its bookings. -/
def State.startStore (s : State) (kind : AccKind) (off lane tap : Nat) (wr : List (Nat × Byte)) : State :=
  let core := s.bnd.core
  let st := storeStation core
  let m := s.coreRope core
  let segs := storePath kind lane off core
  let banks := storeBanks m kind lane off core s.cycle tap
  s.bookAccess (ropeOf core) st lane segs (some (2 + segsTime m segs)) tap banks (fun t =>
    let a : Access := { t.newAccess kind off lane tap st with travel := segsTime m segs, wr := wr, banks := banks }
    banks.foldl (fun acc b => acc.schedule b.2 3 (.storeBankWrite (coreId core) a.id (BitVec.ofNat 4 b.1))) (t.addAccess a))

/-- STORE_BANK_WRITE (R51, R71, R149): the bytes of one bank are written at its cycle; a live barrier word refuses them and all
later ones. An `.il` store is checked in this cycle (R157). -/
def execStoreBankWrite (core : CoreId) (id : Nat) (bank : BitVec 4) (s : State) : Host.Outcome State Fault Refusal :=
  match s.access core.val id with
  | none => .next s
  | some a =>
    match if ilWord a.slot a.word then s.ilFault a a.ilAlign else none with
    | some c => .next ((s.dropAccess core.val id).accessCause a c.1 0 c.2)
    | none =>
    let left := a.banks.filter (fun b => b.1 != bank.toNat)
    let ws := a.wr.filter (fun w => bankOf w.1 == bank.toNat)
    let s1 := if left.isEmpty then s.dropAccess core.val id else s.modAccess core.val id (fun x => { x with banks := left })
    .next (s1.storeWrite a ws)

/-- ST (R148): the low bytes of sS as taken at issue -/
def execSt (o : StOp) (s : State) : Host.Outcome State Fault Refusal :=
  .next (
    if o.il == 1#1 && !s.bnd.lat.il then s.illegalInstruction
    else if s.suppressed o.g then s
    else s.portOp [o.s.toNat, o.a.toNat] [] (fun t =>
      let a := t.rdPlain o.a
      let off := bitsNat a 22 0
      let wr := bytesAt off (leBytes (2 ^ o.size.toNat) (t.rdPlain o.s).toNat)
      if o.il = 1#1 then
        t.startInterlocked
          { t.newAccess .st off o.lane.toNat (2 ^ o.size.toNat) (storeStation t.bnd.core) with wr := wr, cmp := a }
      else t.padAddr a (2 ^ o.size.toNat) (fun u => u.startStore .st off o.lane.toNat o.tap.toNat wr)))

/-- STG (R144, R155) -/
def execStg (o : StgOp) (s : State) : Host.Outcome State Fault Refusal :=
  .next (
    if s.suppressed o.g then s
    else s.portOp [o.s.toNat, o.a.toNat] [] (fun t =>
      t.aligned (t.rdPlain o.a) (2 ^ o.size.toNat) (fun u =>
        u.farIssue (.store o.size.toNat) (u.rdPlain o.a) (u.rdPlain o.s) 0#64 0)))

/-- The bytes of the lanes of a vector register, with the offsets they go to. -/
def State.laneBytes (s : State) (p reg off : Nat) (lanes : List Nat) : List (Nat × Byte) :=
  lanes.flatMap (fun i => bytesAt (off + 4 * i) (leBytes 4 (s.vAt p reg i).toNat))

/-- VST (R148) -/
def execVst (o : VstOp) (s : State) : Host.Outcome State Fault Refusal :=
  let p := s.bm.phys o.c.toNat
  let reg := s.vreg o.s.toNat
  .next (
    if o.il == 1#1 && !s.bnd.lat.il then s.illegalInstruction
    else if s.suppressed o.g then s
    else s.portOp [o.a.toNat, vRegKey p reg] [] (fun t =>
      let a := t.rdPlain o.a
      let off := bitsNat a 22 0
      let wr := t.laneBytes p reg off (upTo 16)
      if o.il = 1#1 then
        t.startInterlocked { t.newAccess .vst off o.lane.toNat 64 (storeStation t.bnd.core) with wr := wr, cmp := a }
      else t.padAddr a 64 (fun u => u.startStore .vst off o.lane.toNat o.tap.toNat wr)))

/-- VSTS (R148): only the lanes whose predicate bit reads 1 at issue -/
def execVsts (o : VmaskOp) (s : State) : Host.Outcome State Fault Refusal :=
  let p := s.bm.phys o.c.toNat
  let reg := s.vreg o.v.toNat
  .next (s.portOp ([o.a.toNat, vRegKey p reg] ++ (if o.q = 0#3 then [] else [10000 + qKey p o.q.toNat])) [] (fun t =>
    let a := t.rdPlain o.a
    let off := bitsNat a 22 0
    t.padAddr a 64 (fun u =>
      u.startStore .vsts off o.lane.toNat o.tap.toNat
        (u.laneBytes p reg off ((upTo 16).filter (fun i => bitAt (u.qAt p o.q.toNat) i))))))

/-- The bytes of a scatter: of several lanes that name one word the highest is written (R149). -/
def State.scatterBytes (s : State) (p reg idx off : Nat) : List (Nat × Byte) :=
  let target (i : Nat) : Nat := bitsNat (s.vAt p idx i) 7 0
  let lanes := (upTo 16).filter (fun i => !(upTo 16).any (fun j => decide (i < j) && target j == target i))
  lanes.flatMap (fun i => bytesAt (off + 4 * target i) (leBytes 4 (s.vAt p reg i).toNat))

/-- VSCT (R142, R149): an odd register is an illegal operand -/
def execVsct (o : VwinOp) (s : State) : Host.Outcome State Fault Refusal :=
  let p := s.bm.phys o.c.toNat
  let reg := s.vreg o.v.toNat
  let idx := s.vreg (o.v.toNat + 1)
  .next (
    if bitAt o.v 0 then s.illegalOperand
    else s.portOp [o.a.toNat, vRegKey p reg, vRegKey p idx] [] (fun t =>
      let a := t.rdPlain o.a
      let off := bitsNat a 22 0
      t.padAddr a 1024 (fun u => u.startStore .vsct off o.lane.toNat o.tap.toNat (u.scatterBytes p reg idx off))))

/-! ### Atomics (R18, R144, R152–R154) -/

/-- Bank cycles of an access that reads and writes its word: issue + 2 + travel and issue + 4 + 2 × travel (R51). -/
def rmwBanks (off cycle travel : Nat) : List (Nat × Nat) := [(bankOf off, cycle + 2 + travel), (bankOf off, cycle + 4 + 2 * travel)]

/-- Rows 5 and 6 of R143 for an access that reads and writes its word over the request leg of its lane (R51). `late`, given the
write cycle, is the last check; `kind` names the access, `rd` and `wr` its events, and `done` what else its acceptance does. -/
def State.startRmw (s : State) (kind : AccKind) (off lane tap dest : Nat) (opnd cmp : W64) (late : Nat → Bool)
    (rd wr : CoreId → Nat → Instr) (done : State → State) : State :=
  let core := s.bnd.core
  let st := storeStation core
  let m := s.coreRope core
  let segs := pathSegs lane (stationPos st) (bankPos (bankOf off))
  let travel := segsTime m segs
  let banks := rmwBanks off s.cycle travel
  s.bookAccess (ropeOf core) st lane segs (some (2 + travel)) tap banks (fun t =>
    if late (t.cycle + 4 + 2 * travel) then s.timingFault 10
    else
      let a : Access :=
        { t.newAccess kind off lane tap st with travel := travel, dest := dest, opnd := opnd, cmp := cmp, banks := banks }
      done (((t.addAccess a).schedule (t.cycle + 2 + travel) 3 (rd (coreId core) a.id)).schedule (t.cycle + 4 + 2 * travel) 3
        (wr (coreId core) a.id)))

/-- The bank has read the word of an atomic or barrier access: it is consumed (R55). -/
def State.rmwRead (s : State) (a : Access) : State :=
  let rope := ropeOf a.core
  (s.modAccess a.core a.id (fun x =>
    { x with data := some (readBytes s.mem (keyPad rope a.off) 8), banks := x.banks.filter (fun b => b.2 != s.cycle) })).consumePad a.core
    (padHit rope [a.off / 8])

/-- SCRATCHPAD_ATOMIC_READ (R153) -/
def execScratchpadAtomicRead (core : CoreId) (id : Nat) (s : State) : Host.Outcome State Fault Refusal :=
  match s.access core.val id with
  | none => .next s
  | some a => .next (s.rmwRead a)

/-- SCRATCHPAD_ATOMIC_WRITE (R153): the new value is written unless a compare fails, and the old value lands in this cycle; a live
barrier word refuses the access (R71). -/
def execScratchpadAtomicWrite (core : CoreId) (id : Nat) (s : State) : Host.Outcome State Fault Refusal :=
  match s.access core.val id with
  | none => .next s
  | some a =>
    let old := BitVec.ofNat 64 (leNat (a.data.getD []))
    let s1 := s.dropAccess core.val id
    let land (t : State) : State := t.landAccess a s.cycle (.regs [.s a.dest old])
    match a.kind with
    | .atomic op n =>
      match atomicNew op n old a.opnd a.cmp with
      | none => .next (land s1)
      | some v =>
        let ws := bytesAt a.off (leBytes 8 v.toNat)
        if (s.rope (ropeOf core.val)).barrierAt (ws.map (·.1)) then .next (s1.accessCause a 13 0 [])
        else .next (land (s1.storeWrite a ws))
    | _ => .next s1

/-- An atomic: the space of its address says whether it is a scratchpad atomic, a far operation, or a data-translation fault
(R18, R144). -/
def State.atomicSlot (s : State) (o : AtomOp) (op : Nat) : State :=
  s.portOp ([o.s.toNat, o.a.toNat] ++ (if op = 10 then [o.d.toNat] else [])) [o.d.toNat] (fun t =>
    let a := t.rdPlain o.a
    let kind := AccKind.atomic op (o.n == 1#1)
    t.aligned a 8 (fun u =>
      let sp := addrSpace a
      if sp = 0 ∨ sp = 5 then u.farIssue (.atomic op (o.n == 1#1)) a (u.rdPlain o.s) (u.rdPlain o.d) o.d.toNat
      else
        let code := addrCode u.sec.members [0, 1, 5] a
        if code ≠ 0 then u.addrFault code a
        else u.startRmw kind (bitsNat a 22 0) o.lane.toNat o.tap.toNat o.d.toNat (u.rdPlain o.s) (u.rdPlain o.d) (fun _ => false)
          Instr.scratchpadAtomicRead Instr.scratchpadAtomicWrite id))

/-- AADD (R152) -/
def execAadd (o : AtomOp) (s : State) : Host.Outcome State Fault Refusal := .next (s.atomicSlot o 6)
/-- AMIN (R152) -/
def execAmin (o : AtomOp) (s : State) : Host.Outcome State Fault Refusal := .next (s.atomicSlot o 7)
/-- AMAX (R152) -/
def execAmax (o : AtomOp) (s : State) : Host.Outcome State Fault Refusal := .next (s.atomicSlot o 8)
/-- AXCHG (R152) -/
def execAxchg (o : AtomOp) (s : State) : Host.Outcome State Fault Refusal := .next (s.atomicSlot o 9)
/-- ACAS (R152): sD is also the compare value -/
def execAcas (o : AtomOp) (s : State) : Host.Outcome State Fault Refusal := .next (s.atomicSlot o 10)
/-- AAND (R152) -/
def execAand (o : AtomOp) (s : State) : Host.Outcome State Fault Refusal := .next (s.atomicSlot o 11)
/-- AOR (R152) -/
def execAor (o : AtomOp) (s : State) : Host.Outcome State Fault Refusal := .next (s.atomicSlot o 12)
/-- AXOR (R152) -/
def execAxor (o : AtomOp) (s : State) : Host.Outcome State Fault Refusal := .next (s.atomicSlot o 13)

/-! ### Fence (R89, R90, R158) -/

/-- FENCE (R90, R158): the off-core accesses before it go ahead of those after it. Every scope orders as the widest one does.
Fences that hold nothing back any more are forgotten. DESIGN CHOICE, unsafe: log entry 14. -/
def execFence (scope : BitVec 3) (s : State) : Host.Outcome State Fault Refusal :=
  let core := s.bnd.core
  let c := s.core core
  if 5 ≤ scope.toNat then .next s.illegalInstruction
  else
    let live := c.far.fences.filter (fun f => s.fenced core (f.1 + 1))
    .next (s.setCore core
      { c with far := { c.far with fences := live ++ [(c.far.nextSeq, s.cycle)], nextSeq := c.far.nextSeq + 1 } })

end Sys2Proof.Machine
end

