-- ==== Sys2Proof/Machine/Barrier.lean ====
section
/-!
DEFINITION. Barriers (R69, R70, R308–R311): the statically timed accesses `bar.init`, `bar.arrive` and `bar.fini`, the barrier
latch, and `bar.wait`.
-/

namespace Sys2Proof.Machine

/-! ### The barrier word (R69) -/

/-- Fields of a barrier word. -/
def barWait (w : Nat) : Nat := field w 36 4
def barPhase (w : Nat) : Nat := field w 32 1
def barArrived (w : Nat) : Nat := field w 16 16
def barExpected (w : Nat) : Nat := field w 0 16

/-- A barrier word from its fields. -/
def barWord (wait phase arrived expected : Nat) : Nat := wait * 2 ^ 36 + phase * 2 ^ 32 + arrived * 2 ^ 16 + expected

/-- Whether a kind of access is a barrier form. -/
def AccKind.bar : AccKind → Bool
  | .barInit => true
  | .barArrive _ => true
  | .barFini => true
  | .ld _ _ => false
  | .vld => false
  | .vlds => false
  | .vgat => false
  | .ldsc => false
  | .st => false
  | .vst => false
  | .vsts => false
  | .vsct => false
  | .atomic _ _ => false

/-- An `.il` store that has no bank cycle yet, or a write-performing access whose last bank cycle is not before `w` (R84). R143 compares bank-write
cycles and does not say what holds of a store that has none yet: the check fails then. DESIGN CHOICE, unsafe: log entry 84. -/
def State.writesAt (s : State) (core w : Nat) : Bool :=
  (s.rope (ropeOf core)).accs.any (fun a => a.core == core && a.kind.writes && !a.dead &&
    (a.interlocked || a.banks.any (fun b => decide (w ≤ b.2))))

/-! ### Issue (R308, R309, R311) -/

/-- A barrier access: with a belay region open, or a bad operand, an illegal operand; then the checks of R143. -/
def State.barSlot (s : State) (o : BarOp) (kind : AccKind) (reads : List Nat) (bad : State → Bool) (opnd : State → W64)
    (late : Nat → Bool) (done : State → State) : State :=
  s.portOp (o.a.toNat :: reads) [] (fun t =>
    let a := t.rdPlain o.a
    if !(t.core t.bnd.core).belay.regions.isEmpty || bad t then t.illegalOperand
    else t.padAddr a 8 (fun u =>
      u.startRmw kind (bitsNat a 22 0) o.lane.toNat o.tap.toNat 0 (opnd u) 0#64 late Instr.barAccessRead Instr.barAccessWrite done))

/-- BAR_INIT (R309): an expected count of 0, or a bit of [63:16], is an illegal operand -/
def execBarInit (o : BarOp) (s : State) : Host.Outcome State Fault Refusal :=
  .next (s.barSlot o .barInit [o.b.toNat] (fun t => t.rdPlain o.b == 0#64 || decide (2 ^ 16 ≤ (t.rdPlain o.b).toNat))
    (fun t => t.rdPlain o.b) (fun _ => false) id)

/-- The core's latch holds an arrival at an address (R311). -/
def State.setLatch (s : State) (core : Nat) (a : W64) : State :=
  s.modCore core (fun c => { c with latch := { valid := true, addr := a, released := false, cycle := 0 } })

/-- BAR_ARRIVE (R84, R309, R311): a valid latch is an illegal operand; a write cycle that does not follow every earlier write of the
core is a timing fault -/
def execBarArrive (o : BarOp) (s : State) : Host.Outcome State Fault Refusal :=
  let nw := o.nw == 1#1
  let core := s.bnd.core
  .next (s.barSlot o (.barArrive nw) [] (fun t => !nw && (t.core core).latch.valid) (fun _ => 0#64) (s.writesAt core)
    (fun t => if nw then t else t.setLatch core (t.rdPlain o.a)))

/-- BAR_FINI (R309) -/
def execBarFini (o : BarOp) (s : State) : Host.Outcome State Fault Refusal :=
  .next (s.barSlot o .barFini [] (fun _ => false) (fun _ => 0#64) (fun _ => false) id)

/-! ### The read and write cycles (R309–R311) -/

/-- The late fault of a barrier access at its read cycle: another barrier access to the word between its read and write is a
timing fault (R310); else the type bit and the fields are checked (R309). DEDUCED, unsafe: log entry 29. -/
def State.barFault (s : State) (a : Access) (w : Nat) : Option (Nat × Nat) :=
  let r := s.rope (ropeOf a.core)
  let live := r.typeBits.contains (a.off / 8)
  if r.accs.any (fun e => e.id != a.id && e.kind.bar && e.off == a.off && e.data.isSome) then some (5, 11)
  else
    match a.kind with
    | .barInit => if live then some (3, 0) else none
    | .barFini => if !live || barArrived w != 0 || barWait w != 0 then some (3, 0) else none
    | _ => if live then none else some (3, 0)

/-- BAR_ACCESS_READ (R309, R310) -/
def execBarAccessRead (core : CoreId) (id : Nat) (s : State) : Host.Outcome State Fault Refusal :=
  match s.access core.val id with
  | none => .next s
  | some a =>
    let w := readNat s.mem (keyPad (ropeOf core.val) a.off) 8
    match s.barFault a w with
    | some f => .next ((s.dropAccess core.val id).accessCause a f.1 f.2 [])
    | none => .next (s.rmwRead a)

/-- The latches of cores that a completed phase releases (R309, R311). -/
def State.releaseCores (s : State) (rope wait : Nat) : State :=
  (upTo 4).foldl (fun acc i =>
    if field wait i 1 = 1 then
      acc.modCore (4 * rope + i) (fun c =>
        if c.latch.valid then { c with latch := { c.latch with released := true, cycle := s.cycle } } else c)
    else acc) s

/-- A barrier word written at its bank's cycle, with its type bit (R70). -/
def State.barPut (s : State) (a : Access) (w : Nat) (live : Bool) : State :=
  let rope := ropeOf a.core
  let n := a.off / 8
  let s1 := s.modRope rope (fun r =>
    { r with typeBits := (r.typeBits.filter (· != n)) ++ (if live then [n] else []) })
  { s1 with mem := writeBytes s1.mem (keyPad rope a.off) (leBytes 8 w) }.overwrite (padHit rope [n])

/-- BAR_ACCESS_WRITE (R309): the word as read at the read cycle gets its new fields; a completed phase releases its waiters -/
def execBarAccessWrite (core : CoreId) (id : Nat) (s : State) : Host.Outcome State Fault Refusal :=
  match s.access core.val id with
  | none => .next s
  | some a =>
    let w := leNat (a.data.getD [])
    let s1 := s.dropAccess core.val id
    let i := posOf core.val
    match a.kind with
    | .barInit => .next (s1.barPut a (barWord 0 0 0 a.opnd.toNat) true)
    | .barFini => .next (s1.barPut a 0 false)
    | .barArrive nw =>
      let n := barArrived w + 1
      let mine := if nw || field (barWait w) i 1 = 1 then barWait w else barWait w + 2 ^ i
      if n = barExpected w then
        .next ((s1.barPut a (barWord 0 (1 - barPhase w) 0 (barExpected w)) true).releaseCores (ropeOf core.val) mine)
      else .next (s1.barPut a (barWord mine (barPhase w) n (barExpected w)) true)
    | _ => .next s1

/-! ### Waiting (R311) -/

/-- Whether `bar.wait` is an illegal operand: a region is open, the latch is not valid, or the address differs. -/
def Core.barWaitBad (c : Core) (a : W64) : Bool := !c.belay.regions.isEmpty || !c.latch.valid || c.latch.addr != a

/-- Whether the latched barrier has been released before this cycle. -/
def Core.barReady (c : Core) (cycle : Nat) : Bool := c.latch.released && decide (c.latch.cycle + 1 ≤ cycle)

/-- BAR_WAIT (R311): an anchor; it issues after the release and clears VALID -/
def execBarWait (a : BitVec 5) (s : State) : Host.Outcome State Fault Refusal :=
  .next (s.portOp [a.toNat] [] (fun t =>
    let c := t.core t.bnd.core
    if c.barWaitBad (t.rdPlain a) then t.illegalOperand
    else t.setCore t.bnd.core { c with latch := { c.latch with valid := false } }))

end Sys2Proof.Machine
end

