-- ==== Sys2Proof/Machine/Vector.lean ====
section
/-!
DEFINITION. The vector forms of VA, VB and VC (R227–R241). Each meaning is one definition over the shared elementwise operation.
-/

namespace Sys2Proof.Machine

/-- An integer element by its TYPE: natural for n8, signed otherwise (R206). -/
def intElem (ty x : Nat) : Int := if typeSigned ty then signedOf (typeWidth ty) x else (x : Int)
/-- Integer result bits modulo 2^w, with no flag (R207). -/
def wrapElem (w : Nat) (x : Int) : FpRes := { bits := (x % (2 ^ w : Nat)).toNat, fl := 0#6 }

/-- Element j of a two-operand form: the float operation, or the integer one. -/
def elem2 (ty : Nat) (ff : FpFmt → Nat → Nat → FpRes) (fi : Int → Int → Int) (a b : W32) : W32 × FpFlags :=
  let w := typeWidth ty
  perElem w (fun j =>
    if typeFloat ty then ff (typeFmt ty) (elemAt w j a) (elemAt w j b)
    else wrapElem w (fi (intElem ty (elemAt w j a)) (intElem ty (elemAt w j b))))

/-- An arithmetic form of a and b (R231). -/
def State.vArith (s : State) (o : VecOp) (nominal : Nat) (ff : Bool → FpFmt → Nat → Nat → FpRes) (fi : Int → Int → Int) : State :=
  s.vecLanes o true false nominal (fun a b _ => elem2 o.ty.toNat (ff s.bnd.lat.il) fi a b)

/-- A fused form of a, b and d (R231). -/
def State.vFused (s : State) (o : VecOp) (negProd negAdd : Bool) : State :=
  let w := typeWidth o.ty.toNat
  s.vecLanes o true true 4 (fun a b d => perElem w (fun j =>
    fpFma (typeFmt o.ty.toNat) .rne s.bnd.lat.il negProd negAdd (elemAt w j a) (elemAt w j b) (elemAt w j d)))

/-- The smaller and the larger of two integers. -/
def smaller (a b : Int) : Int := if a ≤ b then a else b
def larger (a b : Int) : Int := if a ≤ b then b else a

/-- VADD (R231) -/
def execVadd (o : VecOp) (s : State) : Host.Outcome State Fault Refusal :=
  .next (s.vArith o 2 (fun il f a b => fpAdd f .rne il a b) (fun a b => a + b))
/-- VSUB (R231) -/
def execVsub (o : VecOp) (s : State) : Host.Outcome State Fault Refusal :=
  .next (s.vArith o 2 (fun il f a b => fpSub f .rne il a b) (fun a b => a - b))
/-- VMUL (R231) -/
def execVmul (o : VecOp) (s : State) : Host.Outcome State Fault Refusal :=
  .next (s.vArith o 4 (fun il f a b => fpMul f .rne il a b) (fun a b => a * b))
/-- VMULH (R231): the high w bits of the 2w-bit product -/
def execVmulh (o : VecOp) (s : State) : Host.Outcome State Fault Refusal :=
  .next (s.vArith o 4 (fun il f a b => fpMul f .rne il a b) (fun a b => a * b / (2 ^ typeWidth o.ty.toNat : Nat)))
/-- VFMA (R231) -/
def execVfma (o : VecOp) (s : State) : Host.Outcome State Fault Refusal := .next (s.vFused o false false)
/-- VFMS (R231) -/
def execVfms (o : VecOp) (s : State) : Host.Outcome State Fault Refusal := .next (s.vFused o false true)
/-- VFNMA (R231) -/
def execVfnma (o : VecOp) (s : State) : Host.Outcome State Fault Refusal := .next (s.vFused o true false)
/-- VMIN (R231) -/
def execVmin (o : VecOp) (s : State) : Host.Outcome State Fault Refusal :=
  .next (s.vArith o 2 (fun il f a b => fpMinMax f il false a b) smaller)
/-- VMAX (R231) -/
def execVmax (o : VecOp) (s : State) : Host.Outcome State Fault Refusal :=
  .next (s.vArith o 2 (fun il f a b => fpMinMax f il true a b) larger)

/-- A form of a alone that is bit-exact for floats (R231). -/
def State.vUnary (s : State) (o : VecOp) (ff : FpFmt → Nat → Nat) (fi : Int → Int) : State :=
  let ty := o.ty.toNat
  let w := typeWidth ty
  s.vecLanes o false false 2 (fun a _ _ => perElem w (fun j =>
    if typeFloat ty then { bits := ff (typeFmt ty) (elemAt w j a), fl := 0#6 } else wrapElem w (fi (intElem ty (elemAt w j a)))))

/-- VABS (R231): the sign bit cleared, or |a| -/
def execVabs (o : VecOp) (s : State) : Host.Outcome State Fault Refusal :=
  .next (s.vUnary o (fun f a => a % f.signBit) (fun a => (a.natAbs : Int)))
/-- VNEG (R231): the sign bit flipped, or 0 − a -/
def execVneg (o : VecOp) (s : State) : Host.Outcome State Fault Refusal :=
  .next (s.vUnary o (fun f a => (a + f.signBit) % (2 * f.signBit)) (fun a => -a))

/-- VCLAMP (R232): lower bound b, upper bound d -/
def execVclamp (o : VecOp) (s : State) : Host.Outcome State Fault Refusal :=
  let ty := o.ty.toNat
  let w := typeWidth ty
  .next (s.vecLanes o true true 2 (fun a b d => perElem w (fun j =>
    if typeFloat ty then
      let f := typeFmt ty
      let lo := fpMinMax f s.bnd.lat.il true (elemAt w j a) (elemAt w j b)
      let hi := fpMinMax f s.bnd.lat.il false lo.bits (elemAt w j d)
      { hi with fl := hi.fl ||| lo.fl }
    else wrapElem w (smaller (larger (intElem ty (elemAt w j a)) (intElem ty (elemAt w j b))) (intElem ty (elemAt w j d))))))

/-! ### Compare and select -/

/-- Whether a condition holds for every element of a lane, with its flags (R233). TYPE 7 compares raw bits. -/
def laneCond (ty cond : Nat) (il : Bool) (a b : W32) : Bool × FpFlags :=
  let w := typeWidth ty
  ((upTo (32 / w)).map (fun j =>
    let x := elemAt w j a
    let y := elemAt w j b
    if typeFloat ty then fpCond (typeFmt ty) il cond x y
    else
      let p := intElem ty x
      let q := intElem ty y
      (if cond = 0 then decide (p = q) else if cond = 1 then decide (p ≠ q) else if cond = 2 then decide (p < q) else decide (p ≤ q), 0#6))).foldl
    (fun acc r => (acc.1 && r.1, acc.2 ||| r.2)) (true, 0#6)

/-- Bits of a lane predicate from their lane numbers. -/
def maskOf (ls : List Nat) : BitVec 16 := BitVec.ofNat 16 ((ls.map (fun i => 2 ^ i)).foldl (· + ·) 0)

/-- A vector compare (R233). -/
def State.vCompare (s : State) (o : VecOp) (cond : Nat) : State :=
  let qd := bitsNat o.d 2 0
  s.vecSlot o (srcAB o) [] [qd] [] false (fun t =>
    let m := s.bm
    let per := s.clusters.map (fun c =>
      let p := m.phys c
      let q := s.qAt p o.q.toNat
      let ls := (upTo 16).filter (fun i => bitAt q i)
      (c, p, q, ls.map (fun i => (i, laneCond o.ty.toNat cond s.bnd.lat.il (s.vAt p (s.vreg o.a.toNat) i) (s.vecB o p i)))))
    let outs : List LaneOut := per.flatMap (fun e => e.2.2.2.map (fun l =>
      { cluster := e.1, phys := e.2.1, reg := 0, lane := l.1, w := 0#32, fl := l.2.2 }))
    let f := firstRaised outs
    t.land (s.colDelay o.unit.toNat 2)
      (.regs (per.map (fun e => .q (qKey e.2.1 qd) e.2.2.1 (maskOf ((e.2.2.2.filter (fun l => l.2.1)).map (·.1))))))
      (laneFlags outs) f.1 f.2 0 0)

/-- VCEQ (R233) -/
def execVceq (o : VecOp) (s : State) : Host.Outcome State Fault Refusal := .next (s.vCompare o 0)
/-- VCNE (R233) -/
def execVcne (o : VecOp) (s : State) : Host.Outcome State Fault Refusal := .next (s.vCompare o 1)
/-- VCLT (R233) -/
def execVclt (o : VecOp) (s : State) : Host.Outcome State Fault Refusal := .next (s.vCompare o 2)
/-- VCLE (R233) -/
def execVcle (o : VecOp) (s : State) : Host.Outcome State Fault Refusal := .next (s.vCompare o 3)

/-- A form that writes lanes chosen by `mask` from whole lanes, with no flag. -/
def State.vMove (s : State) (o : VecOp) (useB : Bool) (nominal : Nat) (mask : Nat → BitVec 16) (f : Nat → Nat → W32) : State :=
  s.vecSlot o (if useB then srcAB o else [o.a.toNat]) [o.d.toNat] [] [] false (fun t =>
    t.landLanes (s.colDelay o.unit.toNat nominal) (s.laneMap s.bm (s.vreg o.d.toNat) mask (fun p i => (f p i, 0#6))))

/-- VSEL (R234): every lane of every enabled cluster is written -/
def execVsel (o : VecOp) (s : State) : Host.Outcome State Fault Refusal :=
  .next (s.vMove o true 2 (fun _ => 0xFFFF#16) (fun p i =>
    if bitAt (s.qAt p o.q.toNat) i then s.vAt p (s.vreg o.a.toNat) i else s.vecB o p i))

/-! ### Logic and shifts (R235) -/

/-- VAND (R235) -/
def execVand (o : VecOp) (s : State) : Host.Outcome State Fault Refusal := .next (s.vecLanes o true false 2 (fun a b _ => (a &&& b, 0#6)))
/-- VOR (R235) -/
def execVor (o : VecOp) (s : State) : Host.Outcome State Fault Refusal := .next (s.vecLanes o true false 2 (fun a b _ => (a ||| b, 0#6)))
/-- VXOR (R235) -/
def execVxor (o : VecOp) (s : State) : Host.Outcome State Fault Refusal := .next (s.vecLanes o true false 2 (fun a b _ => (a ^^^ b, 0#6)))
/-- VNOT (R235) -/
def execVnot (o : VecOp) (s : State) : Host.Outcome State Fault Refusal := .next (s.vecLanes o false false 2 (fun a _ _ => (~~~a, 0#6)))

/-- A shift per element: the amount is b modulo the element width (R235). -/
def State.vShift (s : State) (o : VecOp) (f : Nat → Nat → Nat → Nat) : State :=
  let w := typeWidth o.ty.toNat
  s.vecLanes o true false 2 (fun a b _ => perElem w (fun j => { bits := f w (elemAt w j a) (elemAt w j b % w), fl := 0#6 }))

/-- VSHL (R235) -/
def execVshl (o : VecOp) (s : State) : Host.Outcome State Fault Refusal := .next (s.vShift o (fun w a k => a * 2 ^ k % 2 ^ w))
/-- VSHR (R235) -/
def execVshr (o : VecOp) (s : State) : Host.Outcome State Fault Refusal := .next (s.vShift o (fun _ a k => a / 2 ^ k))
/-- VSRA (R235) -/
def execVsra (o : VecOp) (s : State) : Host.Outcome State Fault Refusal :=
  .next (s.vShift o (fun w a k => (signedOf w a / (2 ^ k : Nat) % (2 ^ w : Nat)).toNat))

/-! ### Conversion (R236) -/

/-- Source and destination registers of a conversion code, and its element widths (R236). -/
def cvtSrcs (code : Nat) : Nat := if [2, 3, 8, 9, 17, 18].contains code then 2 else if [10, 11, 12, 13].contains code then 4 else 1
def cvtDsts (code : Nat) : Nat := if [4, 5, 14].contains code then 2 else if [15, 16].contains code then 4 else 1
/-- Width of a destination element. -/
def cvtWidth (code : Nat) : Nat :=
  if [2, 3, 6, 7, 8, 9].contains code then 16 else if [10, 11, 12, 13, 17, 18].contains code then 8 else 32

/-- An integer narrowed to w bits, clamped where the form saturates. -/
def narrow (w : Nat) (sat : Option (Int × Int)) (x : Int) : FpRes :=
  match sat with
  | some r => wrapElem w (clampInt r.1 r.2 x)
  | none => wrapElem w x

/-- One destination element of a conversion: `src m` is lane i of v[a + m]; `d` the destination register within its group,
`j` the element, `mode` the rounding mode of the element. -/
def cvtElem (code : Nat) (il : Bool) (mode : RMode) (src : Nat → W32) (d j : Nat) : FpRes :=
  let i32 (m : Nat) : Int := signedOf 32 (src m).toNat
  let i16 (m k : Nat) : Int := signedOf 16 (elemAt 16 k (src m))
  match code with
  | 0 => fpOfInt fp32 mode il (i32 0)
  | 1 => let r := fpToInt fp32 mode il (-(2 ^ 31)) (2 ^ 31 - 1) (src 0).toNat; { wrapElem 32 r.1 with fl := r.2 }
  | 2 => fpConvert fp32 bf16 mode il (src j).toNat
  | 3 => fpConvert fp32 fp16 mode il (src j).toNat
  | 4 => fpConvert bf16 fp32 .rne il (elemAt 16 d (src 0))
  | 5 => fpConvert fp16 fp32 .rne il (elemAt 16 d (src 0))
  | 6 => fpConvert fp16 bf16 mode il (elemAt 16 j (src 0))
  | 7 => fpConvert bf16 fp16 mode il (elemAt 16 j (src 0))
  | 8 => narrow 16 none (i32 j)
  | 9 => narrow 16 (some (-32768, 32767)) (i32 j)
  | 10 => narrow 8 none (i32 j)
  | 11 => narrow 8 (some (-128, 127)) (i32 j)
  | 12 => narrow 8 (some (0, 255)) (i32 j)
  | 13 => narrow 8 none (i32 j)
  | 14 => wrapElem 32 (i16 0 d)
  | 15 => wrapElem 32 (signedOf 8 (elemAt 8 d (src 0)))
  | 16 => wrapElem 32 (elemAt 8 d (src 0))
  | 17 => narrow 8 (some (-128, 127)) (i16 (j / 2) (j % 2))
  | _ => narrow 8 none (i16 (j / 2) (j % 2))

/-- VCVT (R236): TYPE carries the rounding mode, B the code; a misaligned group is an illegal operand (R230) -/
def execVcvt (o : VecOp) (s : State) : Host.Outcome State Fault Refusal :=
  let code := o.b.toNat
  let ns := cvtSrcs code
  let nd := cvtDsts code
  let w := cvtWidth code
  if o.a.toNat % ns ≠ 0 ∨ o.d.toNat % nd ≠ 0 then .next s.illegalOperand
  else
    .next (s.vecSlot o ((upTo ns).map (fun j => o.a.toNat + j)) ((upTo nd).map (fun j => o.d.toNat + j)) [] [] (o.ty == 4#3)
      (fun t =>
        let seed := (s.core s.bnd.core).csrGet 0x003
        let m := s.bm
        let outs : List LaneOut := s.clusters.flatMap (fun c =>
          let p := m.phys c
          let q := s.qAt p o.q.toNat
          ((upTo 16).filter (fun i => bitAt q i)).flatMap (fun i => (upTo nd).map (fun d =>
            let r := perElem w (fun j =>
              cvtElem code s.bnd.lat.il (rmodeOf o.ty.toNat seed t.sq ((16 * c + i) * (32 / w) + j))
                (fun k => s.vAt p (s.vreg (o.a.toNat + k)) i) d j)
            { cluster := c, phys := p, reg := s.vreg (o.d.toNat + d), lane := i, w := r.1, fl := r.2 })))
        t.landLanes (s.colDelay o.unit.toNat 3) outs))

/-! ### Moves and lane movement (R237) -/

/-- VMOV (R237) -/
def execVmov (o : VecOp) (s : State) : Host.Outcome State Fault Refusal :=
  .next (s.vMove o false 2 (fun p => s.qAt p o.q.toNat) (fun p i => s.vAt p (s.vreg o.a.toNat) i))

/-- The word that `vsplat` puts into a lane (R237). -/
def splatWord (ty x : Nat) : W32 :=
  let w := typeWidth ty
  (perElem w (fun _ => { bits := x % 2 ^ w, fl := 0#6 })).1

/-- VSPLAT (R237): the only vector form that reads a scalar register -/
def execVsplat (o : VecOp) (s : State) : Host.Outcome State Fault Refusal :=
  let x := if o.l = 0#1 then (s.rdPlain o.b).toNat else (s.lit (bitsNat o.b 3 0)).toNat
  .next (s.vecSlot o [] [o.d.toNat] [] (if o.l = 0#1 then [o.b.toNat] else []) false (fun t =>
    t.landLanes (s.colDelay o.unit.toNat 1)
      (s.laneMap s.bm (s.vreg o.d.toNat) (fun p => s.qAt p o.q.toNat) (fun _ _ => (splatWord o.ty.toNat x, 0#6)))))

/-- VPERM (R237): lane bits(b, 3, 0) of v[a] -/
def execVperm (o : VecOp) (s : State) : Host.Outcome State Fault Refusal :=
  .next (s.vMove o true 2 (fun p => s.qAt p o.q.toNat) (fun p i => s.vAt p (s.vreg o.a.toNat) (bitsNat (s.vecB o p i) 3 0)))

/-- VROT (R237): the amount is in lane 0 of b -/
def execVrot (o : VecOp) (s : State) : Host.Outcome State Fault Refusal :=
  .next (s.vMove o true 2 (fun p => s.qAt p o.q.toNat) (fun p i =>
    s.vAt p (s.vreg o.a.toNat) ((i + bitsNat (s.vecB o p 0) 3 0) % 16)))

/-! ### Dot products (R238) -/

/-- Element type of a `vdot` TYPE: 1, 2 floating; 4, 0 i16; 5, 3 i8; 6, 7 n8. -/
def dotType (ty : Nat) : Nat := if ty = 0 then 4 else if ty = 3 then 5 else if ty = 7 then 6 else ty

/-- One lane of `vdot` (R223, R238). -/
def dotLane (ty : Nat) (il : Bool) (a b d : W32) : W32 × FpFlags :=
  if ty = 1 ∨ ty = 2 then
    let f := typeFmt ty
    let x := (upTo 2).map (fun j => fpRead f il (elemAt 16 j a))
    let y := (upTo 2).map (fun j => fpRead f il (elemAt 16 j b))
    let p := (upTo 2).map (fun j => fpMulVal (nth (.nan false, 0#6) x j).1 (nth (.nan false, 0#6) y j).1)
    let z := fpRead fp32 il d.toNat
    let r := fpSum fp32 .rne il (z.1 :: p.map (·.1))
    (BitVec.ofNat 32 r.bits, ((x ++ y).map (·.2) ++ p.map (·.2)).foldl (fun acc e => acc ||| e) (r.fl ||| z.2))
  else
    let e := dotType ty
    let w := typeWidth e
    let sum := ((upTo (32 / w)).map (fun j => intElem e (elemAt w j a) * intElem e (elemAt w j b))).foldl (· + ·) (signedOf 32 d.toNat)
    let sat := ty = 0 ∨ ty = 3 ∨ ty = 7
    (BitVec.ofInt 32 (if sat then clampInt (-(2 ^ 31)) (2 ^ 31 - 1) sum else sum), 0#6)

/-- VDOT (R238) -/
def execVdot (o : VecOp) (s : State) : Host.Outcome State Fault Refusal :=
  .next (s.vecLanes o true true 3 (fun a b d => dotLane o.ty.toNat s.bnd.lat.il a b d))

/-! ### Reductions (R221, R222, R239) -/

/-- Combine two 32-bit values: kind 0 sum, 1 max, 2 min, floating or integer. -/
def redCombine (isFloat : Bool) (kind : Nat) (il : Bool) (a b : Nat) : FpRes :=
  if isFloat then
    if kind = 0 then fpAdd fp32 .rne il a b else fpMinMax fp32 il (kind == 1) a b
  else
    let x := signedOf 32 a
    let y := signedOf 32 b
    wrapElem 32 (if kind = 0 then x + y else if kind = 1 then larger x y else smaller x y)

/-- The identity of a kind: −0, −∞, +∞; 0, −2^31, 2^31 − 1 (R239). -/
def redIdentity (isFloat : Bool) (kind : Nat) : Nat :=
  if isFloat then (if kind = 0 then 0x80000000 else if kind = 1 then 0xFF800000 else 0x7F800000)
  else (if kind = 0 then 0 else if kind = 1 then 0x80000000 else 0x7FFFFFFF)

/-- One level of the pairwise tree (R221). -/
def treeLevel (f : Nat → Nat → FpRes) : List FpRes → List FpRes
  | a :: b :: t => let r := f a.bits b.bits; { r with fl := r.fl ||| a.fl ||| b.fl } :: treeLevel f t
  | l => l

/-- The tree of `n` levels. -/
def treeReduce (f : Nat → Nat → FpRes) : Nat → List FpRes → List FpRes
  | 0, l => l
  | n + 1, l => treeReduce f n (treeLevel f l)

/-- An element widened to 32 bits (R239). -/
def widenElem (ty : Nat) (il : Bool) (x : Nat) : FpRes :=
  if ty = 1 then fpConvert bf16 fp32 .rne il x
  else if ty = 2 then fpConvert fp16 fp32 .rne il x
  else if ty = 4 then wrapElem 32 (signedOf 16 x)
  else { bits := x, fl := 0#6 }

/-- The inputs of a reduction in element order: an excluded lane gives the identity (R221). -/
def redInputs (ty kind : Nat) (il : Bool) (q : BitVec 16) (lane : Nat → W32) : List FpRes :=
  let w := typeWidth ty
  (upTo 16).flatMap (fun i => (upTo (32 / w)).map (fun j =>
    if bitAt q i then widenElem ty il (elemAt w j (lane i)) else { bits := redIdentity (typeFloat ty) kind, fl := 0#6 }))

/-- VRED (R239): lane 0 of v[d] only -/
def execVred (o : VecOp) (s : State) : Host.Outcome State Fault Refusal :=
  let ty := o.ty.toNat
  let kind := o.b.toNat
  .next (s.vecSlot o [o.a.toNat] [o.d.toNat] [] [] false (fun t =>
    let m := s.bm
    t.landLanes (s.colDelay o.unit.toNat 6) (s.clusters.map (fun c =>
      let p := m.phys c
      let xs := redInputs ty kind s.bnd.lat.il (s.qAt p o.q.toNat) (fun i => s.vAt p (s.vreg o.a.toNat) i)
      let r := nth { bits := 0, fl := 0#6 } (treeReduce (redCombine (typeFloat ty) kind s.bnd.lat.il) 5 xs) 0
      { cluster := c, phys := p, reg := s.vreg o.d.toNat, lane := 0, w := BitVec.ofNat 32 r.bits, fl := r.fl }))))

/-- The ascending prefix, from the value before (R222). -/
def scanFrom (f : Nat → Nat → FpRes) (acc : Nat) : List FpRes → List FpRes
  | [] => []
  | x :: t => let r := f acc x.bits; r :: scanFrom f r.bits t

/-- VSCAN (R239): every lane of v[d] -/
def execVscan (o : VecOp) (s : State) : Host.Outcome State Fault Refusal :=
  let ty := o.ty.toNat
  let kind := o.b.toNat
  .next (s.vecSlot o [o.a.toNat] [o.d.toNat] [] [] false (fun t =>
    let m := s.bm
    t.landLanes (s.colDelay o.unit.toNat 8) (s.clusters.flatMap (fun c =>
      let p := m.phys c
      let xs := redInputs ty kind s.bnd.lat.il (s.qAt p o.q.toNat) (fun i => s.vAt p (s.vreg o.a.toNat) i)
      let ys := scanFrom (redCombine (typeFloat ty) kind s.bnd.lat.il) (redIdentity (typeFloat ty) kind) xs
      (upTo 16).map (fun i =>
        let r := nth { bits := 0, fl := 0#6 } ys i
        { cluster := c, phys := p, reg := s.vreg o.d.toNat, lane := i, w := BitVec.ofNat 32 r.bits, fl := r.fl })))))

/-! ### Scaled formats (R240, R241) -/

/-- The words of v[d] that `vquant` writes: packed codes, zero, and the scale in lane 15 (R240). -/
def quantWord (n scale : Nat) (codes : List Int) (lane : Nat) : W32 :=
  if lane = 15 then BitVec.ofNat 32 (scale % 256) else BitVec.ofNat 32 (field (mxPack n codes) (32 * lane) 32)

/-- VQUANT (R240): the flags of a block count as lane 0's for FPFIRST (R219). DESIGN CHOICE, unsafe: log entry 105. -/
def execVquant (o : VecOp) (s : State) : Host.Outcome State Fault Refusal :=
  let ty := o.ty.toNat
  let n := mxWidth o.b.toNat
  let pair := ty = 0
  if pair ∧ o.a.toNat % 2 ≠ 0 then .next s.illegalOperand
  else
    .next (s.vecSlot o (if pair then [o.a.toNat, o.a.toNat + 1] else [o.a.toNat]) [o.d.toNat] [] [] false (fun t =>
      let m := s.bm
      let outs : List LaneOut := s.clusters.flatMap (fun c =>
        let p := m.phys c
        let raw : List Nat := if pair then (upTo 32).map (fun k => (s.vAt p (s.vreg (o.a.toNat + k / 16)) (k % 16)).toNat)
          else (upTo 32).map (fun k => elemAt 16 (k % 2) (s.vAt p (s.vreg o.a.toNat) (k / 2)))
        let ins := raw.map (fpRead (typeFmt ty) s.bnd.lat.il)
        let r := mxQuant n (ins.map (·.1))
        let fl := (ins.map (·.2)).foldl (fun acc e => acc ||| e) r.2.2
        (upTo 16).map (fun i =>
          { cluster := c, phys := p, reg := s.vreg o.d.toNat, lane := i, w := quantWord n r.1 r.2.1 i, fl := if i = 0 then fl else 0#6 }))
      let f := firstRaised outs
      t.land (s.colDelay o.unit.toNat 3)
        (.regs ((outs.filter (fun x => bitAt (s.qAt x.phys o.q.toNat) x.lane)).map (fun x => .v (vKey x.phys x.reg x.lane) x.w)))
        (laneFlags outs) f.1 f.2 0 0))

/-- Element k of a block that a register holds in the layout of R240 (R217, R241). -/
def deqElem (n : Nat) (fmt : FpFmt) (il : Bool) (lane : Nat → W32) (k : Nat) : FpRes :=
  let packed := leNat ((upTo n).flatMap (fun i => leBytes 4 (lane i).toNat))
  let scale := bitsNat (lane 15) 7 0
  let r := fpEncode fmt .rne il (mxValue n scale (mxCode n k packed))
  if scale = 0xFF then { r with fl := flV } else r

/-- VDEQ (R241) -/
def execVdeq (o : VecOp) (s : State) : Host.Outcome State Fault Refusal :=
  let ty := o.ty.toNat
  let n := mxWidth o.b.toNat
  let pair := ty = 0
  if pair ∧ o.d.toNat % 2 ≠ 0 then .next s.illegalOperand
  else
    .next (s.vecSlot o [o.a.toNat] (if pair then [o.d.toNat, o.d.toNat + 1] else [o.d.toNat]) [] [] false (fun t =>
      let m := s.bm
      t.landLanes (s.colDelay o.unit.toNat 3) (s.clusters.flatMap (fun c =>
        let p := m.phys c
        let src := fun i => s.vAt p (s.vreg o.a.toNat) i
        let q := s.qAt p o.q.toNat
        ((upTo 16).filter (fun i => bitAt q i)).flatMap (fun i =>
          if pair then (upTo 2).map (fun h =>
            let r := deqElem n fp32 s.bnd.lat.il src (i + 16 * h)
            { cluster := c, phys := p, reg := s.vreg (o.d.toNat + h), lane := i, w := BitVec.ofNat 32 r.bits, fl := r.fl })
          else
            let r := perElem 16 (fun j => deqElem n (typeFmt ty) s.bnd.lat.il src (2 * i + j))
            [{ cluster := c, phys := p, reg := s.vreg o.d.toNat, lane := i, w := r.1, fl := r.2 }])))))

end Sys2Proof.Machine
end

