-- ==== Sys2Proof/Machine/Xfn.lean ====
section
/-!
DEFINITION. The special functions of R214 and R243, correctly rounded. Algebraic functions are computed exactly with a
sticky bit. The others are enclosed at rising fixed-point precisions until both ends of the enclosure round to one value.
-/

namespace Sys2Proof.Machine

/-- Integer square root by bits, high bit first: the greatest r with r² ≤ x, for x below 4^n. -/
def isqrtBits (x : Nat) : Nat → Nat → Nat
  | 0, r => r
  | n + 1, r => let c := r + 2 ^ n; isqrtBits x n (if c * c ≤ x then c else r)

def isqrt (x : Nat) : Nat := isqrtBits x (Nat.log2 x / 2 + 1) 0

/-- Round a value known as ⌊v × 2^−e⌋ with whether something was cut off. -/
def roundSticky (f : FpFmt) (il neg : Bool) (m : Nat) (cutOff : Bool) (e : Int) : FpRes :=
  fpRound f .rne il neg (2 * m + (if cutOff then 1 else 0)) (e - 1)

/-- 1 / x for a nonzero finite x (R243). -/
def xRcp (f : FpFmt) (il : Bool) (neg : Bool) (m : Nat) (e : Int) : FpRes :=
  let k := Nat.log2 m + 40
  roundSticky f il neg (2 ^ k / m) (2 ^ k % m != 0) (-e - k)

/-- √x for a positive finite x. -/
def xSqrt (f : FpFmt) (il : Bool) (m : Nat) (e : Int) : FpRes :=
  let sh : Nat := 80 + (if e % 2 = 0 then 0 else 1)
  let x := m * 2 ^ sh
  let r := isqrt x
  roundSticky f il false r (r * r != x) ((e - sh) / 2)

/-- 1 / √x for a positive finite x: the square root of 2^k / x. -/
def xRsq (f : FpFmt) (il : Bool) (m : Nat) (e : Int) : FpRes :=
  let k0 : Nat := 2 * Nat.log2 m + 100
  let k : Nat := k0 + (if (e + k0) % 2 = 0 then 0 else 1)
  let q := 2 ^ k / m
  let r := isqrt q
  roundSticky f il false r (r * r * m != 2 ^ k) ((-e - k) / 2)

/-! ### Fixed-point series: numbers are integers in units of 2^−w -/

/-- Σ over the odd terms of arctan(1/n), sign alternating. -/
def atanInvSum (w n : Nat) : Nat → Nat → Int → Int
  | 0, _, _ => 0
  | fuel + 1, k, t =>
    if t = 0 then 0
    else (if k % 2 = 0 then t / (2 * k + 1 : Nat) else -(t / (2 * k + 1 : Nat))) + atanInvSum w n fuel (k + 1) (t / (n * n : Nat))

/-- arctan(1/n). -/
def atanInv (w n : Nat) : Int := atanInvSum w n w 0 ((2 ^ w / n : Nat) : Int)

/-- π, by Machin's formula. -/
def piFix (w : Nat) : Int := 16 * atanInv w 5 - 4 * atanInv w 239

/-- Σ t^(2k+1) / (2k+1): half of ln((1 + t) / (1 − t)). -/
def atanhSum (w : Nat) (t2 : Int) : Nat → Nat → Int → Int
  | 0, _, _ => 0
  | fuel + 1, k, p => if p = 0 then 0 else p / (2 * k + 1 : Nat) + atanhSum w t2 fuel (k + 1) (p * t2 / (2 ^ w : Nat))

/-- ln of a number in [1, 2], in fixed point. -/
def lnFix (w : Nat) (x : Int) : Int :=
  let one : Int := (2 ^ w : Nat)
  let t := (x - one) * one / (x + one)
  2 * atanhSum w (t * t / one) w 0 t

/-- ln 2. -/
def ln2Fix (w : Nat) : Int := lnFix w ((2 ^ (w + 1) : Nat) : Int)

/-- Σ r^k / k!: the exponential of a number in [−1, 1]. -/
def expSum (w : Nat) (r : Int) : Nat → Nat → Int → Int
  | 0, _, _ => 0
  | fuel + 1, k, p => if p = 0 then 0 else p + expSum w r fuel (k + 1) (p * r / ((2 ^ w : Nat) * ((k + 1 : Nat) : Int)))

/-- e^r for r in [−1, 1], in fixed point. -/
def expFix (w : Nat) (r : Int) : Int := expSum w r (w + 2) 0 ((2 ^ w : Nat) : Int)

/-- Σ (−1)^k r^(2k+a) / (2k+a)!: the sine (a = 1) or cosine (a = 0) of a number in [0, 2]. -/
def trigSum (w : Nat) (r2 : Int) : Nat → Nat → Int → Int
  | 0, _, _ => 0
  | fuel + 1, k, p =>
    if p = 0 then 0
    else p + trigSum w r2 fuel (k + 2) (-(p * r2 / ((2 ^ w : Nat) * (((k + 1) * (k + 2) : Nat) : Int))))

def sinFix (w : Nat) (r : Int) : Int := trigSum w (r * r / (2 ^ w : Nat)) (w + 2) 1 r
def cosFix (w : Nat) (r : Int) : Int := trigSum w (r * r / (2 ^ w : Nat)) (w + 2) 0 ((2 ^ w : Nat) : Int)

/-- A finite datum in units of 2^−w, rounded toward −∞. -/
def toFix (w : Nat) (neg : Bool) (m : Nat) (e : Int) : Int :=
  let x : Int := if neg then -(m : Int) else m
  if 0 ≤ e + w then x * (2 ^ (e + w).toNat : Nat) else x / (2 ^ (-(e + w)).toNat : Nat)

/-- Round both ends of v ± 2^20 units of 2^−w; an inexact result when they agree. -/
def agree (f : FpFmt) (il : Bool) (w : Nat) (e : Int) (v : Int) : Option FpRes :=
  let d : Int := 2 ^ 20
  let lo := v - d
  let hi := v + d
  let r (x : Int) : FpRes := fpRound f .rne il (decide (x < 0)) x.natAbs (e - w)
  if decide (lo ≤ 0) && decide (0 ≤ hi) then none
  else
    let a := r lo
    let b := r hi
    if a.bits = b.bits ∧ (a.fl &&& (flO ||| flU)) = (b.fl &&& (flO ||| flU)) then some { a with fl := a.fl ||| flX } else none

/-- Try an enclosure at rising precisions; the last one stands. -/
def ziv (f : FpFmt) (il : Bool) (val : Nat → Int × Int) : List Nat → FpRes
  | [] => { bits := 0, fl := 0#6 }
  | [w] =>
    let v := val w
    let r := fpRound f .rne il (decide (v.1 < 0)) v.1.natAbs (v.2 - w)
    { r with fl := r.fl ||| flX }
  | w :: t => match agree f il w (val w).2 (val w).1 with
    | some r => r
    | none => ziv f il val t

/-- The precisions tried. -/
def zivLevels : List Nat := [240, 400, 800]

/-- 2^x: value as (fixed-point mantissa, power of two). -/
def exp2At (neg : Bool) (m : Nat) (e : Int) (w : Nat) : Int × Int :=
  let x := toFix w neg m e
  let n := x / (2 ^ w : Nat)
  let fr := x % (2 ^ w : Nat)
  (expFix w (fr * ln2Fix w / (2 ^ w : Nat)), n)

/-- Whether a finite datum is an integer. -/
def isInteger (m : Nat) (e : Int) : Bool := m == 0 || decide (0 ≤ e) || m % 2 ^ (-e).toNat == 0

/-- 2^x for a finite x (R243). -/
def xExp2 (f : FpFmt) (il : Bool) (neg : Bool) (m : Nat) (e : Int) : FpRes :=
  if m = 0 then fpRound f .rne il false 1 0
  else if decide (13 ≤ (Nat.log2 m : Int) + e) then
    if neg then { bits := 0, fl := flU ||| flX } else fpOverflow f .rne false
  else if isInteger m e then fpRound f .rne il false 1 (toFix 0 neg m e)
  else ziv f il (exp2At neg m e) zivLevels

/-- log2 x of a positive finite x: exponent plus ln of the significand over ln 2. -/
def log2At (m : Nat) (e : Int) (w : Nat) : Int × Int :=
  let lg := Nat.log2 m
  let sig : Int := ((m * 2 ^ w / 2 ^ lg : Nat) : Int)
  let frac := lnFix w sig * (2 ^ w : Nat) / ln2Fix w
  (((lg : Int) + e) * (2 ^ w : Nat) + frac, 0)

def xLog2 (f : FpFmt) (il : Bool) (m : Nat) (e : Int) : FpRes :=
  let lg := Nat.log2 m
  if m = 2 ^ lg then fpOfInt f .rne il ((lg : Int) + e)
  else ziv f il (log2At m e) zivLevels

/-- e^y for y ≤ 0 in fixed point, as a fixed-point number in [0, 1]. -/
def expNeg (w : Nat) (y : Int) : Int :=
  let l2 := ln2Fix w
  let n := y / l2
  let r := y - n * l2
  expFix w r / (2 ^ (-n).toNat : Nat)

/-- tanh |x| = (1 − e^(−2|x|)) / (1 + e^(−2|x|)). -/
def tanhAt (neg : Bool) (m : Nat) (e : Int) (w : Nat) : Int × Int :=
  let one : Int := (2 ^ w : Nat)
  let t := expNeg w (-(2 * toFix w false m e))
  let v := (one - t) * one / (one + t)
  (if neg then -v else v, 0)

/-- The largest value below 1 with a sticky bit: rounds to 1, inexact. -/
def almostOne (f : FpFmt) (il neg : Bool) : FpRes := roundSticky f il neg (2 ^ 80 - 1) true (-80)

def xTanh (f : FpFmt) (il : Bool) (neg : Bool) (m : Nat) (e : Int) : FpRes :=
  let ex := (Nat.log2 m : Int) + e
  if decide (6 ≤ ex) then almostOne f il neg
  -- |tanh x| is x less than a part in 2^60: just below x (R214)
  else if decide (ex ≤ -40) then roundSticky f il neg (m * 2 ^ 60 - 1) true (e - 60)
  else ziv f il (tanhAt neg m e) zivLevels

/-- 1 / (1 + e^−x); for negative x, e^x / (1 + e^x), kept as a mantissa with its own power of two. -/
def sigAt (neg : Bool) (m : Nat) (e : Int) (w : Nat) : Int × Int :=
  let one : Int := (2 ^ w : Nat)
  let y := toFix w false m e
  if neg then
    let l2 := ln2Fix w
    let n := (-y) / l2
    let r := -y - n * l2
    let num := expFix w r
    let t := num / (2 ^ (-n).toNat : Nat)
    (num * one / (one + t), n)
  else
    let t := expNeg w (-y)
    (one * one / (one + t), 0)

def xSig (f : FpFmt) (il : Bool) (neg : Bool) (m : Nat) (e : Int) : FpRes :=
  let ex := (Nat.log2 m : Int) + e
  if m = 0 then fpRound f .rne il false 1 (-1)
  else if decide (9 ≤ ex) then (if neg then { bits := 0, fl := flU ||| flX } else almostOne f il false)
  else ziv f il (sigAt neg m e) zivLevels

/-- Reduce |x| by quarter turns: the quadrant and the remainder in fixed point. -/
def trigReduce (m : Nat) (e : Int) (w : Nat) : Int × Int :=
  let extra : Nat := if 0 ≤ (Nat.log2 m : Int) + e then ((Nat.log2 m : Int) + e).toNat + 8 else 8
  let wide := w + extra
  let half := piFix wide / 2
  let x := toFix wide false m e
  let n := x / half
  (n, (x - n * half) / (2 ^ extra : Nat))

/-- sin |x| by quadrant; `shift` 1 gives the cosine. -/
def trigAt (shift : Int) (neg : Bool) (m : Nat) (e : Int) (w : Nat) : Int × Int :=
  let q := trigReduce m e w
  let k := (q.1 + shift) % 4
  let v := if k = 0 then sinFix w q.2 else if k = 1 then cosFix w q.2 else if k = 2 then -(sinFix w q.2) else -(cosFix w q.2)
  (if neg then -v else v, 0)

def xSin (f : FpFmt) (il : Bool) (neg : Bool) (m : Nat) (e : Int) : FpRes :=
  if decide ((Nat.log2 m : Int) + e ≤ -40) then roundSticky f il neg (m * 2 ^ 60 - 1) true (e - 60)
  else ziv f il (trigAt 0 neg m e) zivLevels

def xCos (f : FpFmt) (il : Bool) (m : Nat) (e : Int) : FpRes :=
  if m = 0 then fpRound f .rne il false 1 0
  else if decide ((Nat.log2 m : Int) + e ≤ -60) then almostOne f il false
  else ziv f il (trigAt 1 false m e) zivLevels

/-- The nine functions by opcode 1–9, with their special values (R212, R243). -/
def xFunction (op : Nat) (f : FpFmt) (il : Bool) (b : Nat) : FpRes :=
  let x := fpRead f il b
  let nan : FpRes := { bits := f.nanBits, fl := flV }
  let one := fpRound f .rne il false 1 0
  let half := fpRound f .rne il false 1 (-1)
  let inf (n : Bool) : FpRes := { bits := f.withSign n f.infBits, fl := 0#6 }
  let zero (n : Bool) : FpRes := { bits := f.withSign n 0, fl := 0#6 }
  let r : FpRes := match x.1 with
    | .nan _ => { bits := f.nanBits, fl := 0#6 }
    | .inf n =>
      if op = 1 then (if n then zero false else inf false)
      else if op = 2 || op = 5 then (if n then nan else inf false)
      else if op = 3 then zero n
      else if op = 4 then (if n then nan else zero false)
      else if op = 6 then { one with bits := f.withSign n one.bits }
      else if op = 7 then (if n then zero false else one)
      else nan
    | .fin n m e =>
      if m = 0 then
        if op = 1 then one
        else if op = 2 then { inf true with fl := flZ }
        else if op = 3 || op = 4 then { inf n with fl := flZ }
        else if op = 5 || op = 6 || op = 8 then zero n
        else if op = 7 then half
        else one
      else if op = 1 then xExp2 f il n m e
      else if op = 2 then (if n then nan else xLog2 f il m e)
      else if op = 3 then xRcp f il n m e
      else if op = 4 then (if n then nan else xRsq f il m e)
      else if op = 5 then (if n then nan else xSqrt f il m e)
      else if op = 6 then xTanh f il n m e
      else if op = 7 then xSig f il n m e
      else if op = 8 then xSin f il n m e
      else xCos f il m e
  { r with fl := r.fl ||| x.2 }

end Sys2Proof.Machine
end

