-- ==== Sys2Proof/Machine/Prikor.lean ====
section
/-!
DEFINITION. Prikor kernels (R412, R414–R417): their layout, streams, body words and what a kernel computes, trip by trip and
reduction by reduction. Values a chapter leaves open here: log entry 89.
-/

namespace Sys2Proof.Machine

/-! ### The layout of a kernel (R412, R414) -/

/-- Where the literals, the body and the resume points of a kernel begin, and its length. -/
def prikorLits (k : List Byte) : Nat := 0x10 + 64 * natAt k 4 1
def prikorBody (k : List Byte) : Nat := prikorLits k + roundUp (4 * natAt k 6 1) 16
def prikorPoints (k : List Byte) : Nat := prikorBody k + roundUp (4 * natAt k 5 1) 16
def prikorLength (k : List Byte) : Nat := prikorPoints k + 32 * natAt k 8 2

/-- The kernels of a section: each its bytes, padded to 64. -/
def prikorKernels : Nat → List Byte → List (List Byte)
  | 0, _ => []
  | n + 1, b => octets b 0 (prikorLength b) :: prikorKernels n (b.drop (roundUp (prikorLength b) 64))

/-- Whether the zeros with which kernels are padded to 64 bytes are zero (R8, R414). -/
def prikorPads : Nat → List Byte → Bool
  | 0, _ => true
  | n + 1, b =>
    let len := prikorLength b
    zeroAt b len (roundUp len 64 - len) && prikorPads n (b.drop (roundUp len 64))

/-- What a resume point means in every image of its kernel (R412). -/
structure ResumeDesc where
  rpid : Nat
  kind : Nat
  ldepth : Nat
  rdepth : Nat
  bdepth : Nat
  lflags : List Byte
  deriving DecidableEq, Repr

/-- The resume points a Prikor kernel describes. -/
def prikorResume (k : List Byte) : List ResumeDesc :=
  (upTo (natAt k 8 2)).map (fun i =>
    let e := prikorPoints k + 32 * i
    { rpid := natAt k e 4, kind := natAt k (e + 4) 1, ldepth := natAt k (e + 5) 1, rdepth := natAt k (e + 6) 1, bdepth := natAt k (e + 7) 1,
      lflags := octets k (e + 8) 6 })

/-- Whether a resume-point description is well formed (R404, R412): depths in range, reserved bytes and QLIVE bit 0 zero. -/
def prikorPointOk (e : List Byte) : Bool :=
  decide (natAt e 4 1 ≤ 3) && decide (natAt e 5 1 ≤ 6) && decide (natAt e 6 1 ≤ 8) && decide (natAt e 7 1 ≤ 4) && zeroAt e 0xE 2 &&
    zeroAt e 0x1A 6 && natAt e 0x18 1 % 2 == 0

/-! ### Streams (R415) -/

/-- A stream of a kernel. -/
structure PrikorStream where
  /-- 0 input, 1 output, 2 reduction output -/
  kind : Nat
  ty : Nat
  ndim : Nat
  arg : Nat
  off : W64
  ext : List Nat
  str : List W64
  deriving DecidableEq, Repr

/-- A stream from its 64 bytes. -/
def prikorStream (b : List Byte) : PrikorStream :=
  { kind := natAt b 0 1, ty := natAt b 1 1, ndim := natAt b 2 1, arg := natAt b 3 1, off := BitVec.ofNat 64 (natAt b 8 8),
    ext := (upTo 4).map (fun i => natAt b (0x10 + 4 * i) 4), str := (upTo 4).map (fun i => BitVec.ofNat 64 (natAt b (0x20 + 8 * i) 8)) }

/-- The streams of a kernel. -/
def prikorStreams (k : List Byte) : List PrikorStream := (upTo (natAt k 4 1)).map (fun i => prikorStream (octets k (0x10 + 64 * i) 64))

/-- Whether a stream's fields are in range: unused dimensions have extent 1 and stride 0; a reduction output has one element. -/
def PrikorStream.ok (x : PrikorStream) : Bool :=
  decide (x.kind ≤ 2) && decide (x.ty ≤ 6) && decide (1 ≤ x.ndim) && decide (x.ndim ≤ 4) && decide (x.arg ≤ 3) && x.ext.all (fun e => decide (1 ≤ e)) &&
    (x.ext.drop x.ndim).all (· == 1) && (x.str.drop x.ndim).all (· == 0#64) && (x.kind != 2 || (x.ndim == 1 && nth 0 x.ext 0 == 1))

/-- The input and output streams, whose common extents are the trip shape. -/
def tripStreams (ss : List PrikorStream) : List PrikorStream := ss.filter (fun x => x.kind != 2)
def tripShape (ss : List PrikorStream) : List Nat :=
  match tripStreams ss with
  | x :: _ => x.ext
  | [] => [1, 1, 1, 1]

/-- Whether a kernel's counts, streams and resume points are well formed and its reserved bytes zero (R8, R412, R414, R415). -/
def prikorKernelOk (k : List Byte) : Bool :=
  let ss := prikorStreams k
  decide (1 ≤ natAt k 4 1) && decide (natAt k 4 1 ≤ 16) && decide (1 ≤ natAt k 5 1) && decide (natAt k 5 1 ≤ 64) && decide (natAt k 6 1 ≤ 16) &&
    decide (1 ≤ natAt k 7 1) && decide (natAt k 7 1 ≤ 64) && zeroAt k 0xA 6 && k.length == prikorLength k && ss.all (·.ok) &&
    (upTo ss.length).all (fun i => zeroAt k (0x10 + 64 * i + 4) 4) &&
    zeroAt k (prikorLits k + 4 * natAt k 6 1) (prikorBody k - (prikorLits k + 4 * natAt k 6 1)) &&
    zeroAt k (prikorBody k + 4 * natAt k 5 1) (prikorPoints k - (prikorBody k + 4 * natAt k 5 1)) &&
    (tripStreams ss).all (fun x => (tripStreams ss).all (fun y => x.ndim == y.ndim && x.ext == y.ext)) &&
    (upTo (natAt k 8 2)).all (fun i => prikorPointOk (octets k (prikorPoints k + 32 * i) 32))

/-- The number of trip points, and the coordinates of linear index n: n0 + E0 × (n1 + E1 × (n2 + E2 × n3)). -/
def tripCount (shape : List Nat) : Nat := shape.foldl (· * ·) 1
def tripPoint : List Nat → Nat → List Nat
  | [], _ => []
  | e :: es, n => n % e :: tripPoint es (n / e)

/-- The address of a stream's element at a trip point: ARGk + OFF + Σ nk × Sk. -/
def PrikorStream.elemAddr (x : PrikorStream) (args : List W64) (point : List Nat) : W64 :=
  (point.zip x.str).foldl (fun a p => a + BitVec.ofNat 64 p.1 * p.2) (nth 0#64 args x.arg + x.off)

/-- Bytes of a stream's element. -/
def PrikorStream.size (x : PrikorStream) : Nat := typeWidth x.ty / 8

/-- Whether an element's address is one that R415 allows: space 0, 4 or 5, aligned to the element. -/
def PrikorStream.addrOk (x : PrikorStream) (args : List W64) (point : List Nat) : Bool :=
  let a := x.elemAddr args point
  [0, 4, 5].contains (addrSpace a) && a.toNat % x.size == 0

/-! ### Body words (R416) -/

/-- The fields of a body word. -/
structure PrikorWord where
  op : Nat
  d : Nat
  a : Nat
  b : Nat
  x : Nat
  deriving DecidableEq, Repr

def prikorWord (w : Nat) : PrikorWord := { op := field w 26 6, d := field w 20 6, a := field w 14 6, b := field w 8 6, x := field w 0 8 }

/-- The body and the literals of a kernel. -/
def prikorWords (k : List Byte) : List PrikorWord := (upTo (natAt k 5 1)).map (fun i => prikorWord (natAt k (prikorBody k + 4 * i) 4))
def prikorLiterals (k : List Byte) : List Nat := (upTo (natAt k 6 1)).map (fun i => natAt k (prikorLits k + 4 * i) 4)

/-- The registers that a word reads, and the one it writes. -/
def PrikorWord.reads (w : PrikorWord) : List Nat :=
  if w.op = 1 ∨ w.op = 3 then []
  else if [2, 4, 11, 12, 18, 21, 22, 24].contains w.op then [w.a]
  else if w.op = 8 ∨ w.op = 20 then [w.a, w.b, w.d]
  else [w.a, w.b]
def PrikorWord.writes (w : PrikorWord) : List Nat := if w.op = 2 ∨ w.op = 24 then [] else [w.d]

/-- Whether X is one that the operation takes: a stream of the right kind, a literal, a type of the vector form (R231, R233, R235, R243), a
conversion, or a stream and a kind. -/
def PrikorWord.xOk (w : PrikorWord) (ss : List PrikorStream) (nlit : Nat) : Bool :=
  let is (i kind : Nat) : Bool := match ss.drop i with
    | st :: _ => st.kind == kind
    | [] => false
  if w.op = 1 then is w.x 0
  else if w.op = 2 then is w.x 1
  else if w.op = 3 then decide (w.x < nlit)
  else if w.op = 4 ∨ w.op = 20 then w.x == 0
  else if [8, 21, 22, 23].contains w.op then decide (w.x ≤ 2)
  else if [13, 14, 15].contains w.op then decide (w.x ≤ 7)
  else if w.op = 16 ∨ w.op = 17 then decide (3 ≤ w.x) && decide (w.x ≤ 7)
  else if w.op = 18 then decide (w.x ≤ 18)
  else if w.op = 24 then is (w.x % 16) 2 && decide (w.x / 16 ≤ 2)
  else decide (w.x ≤ 6)

/-- Whether a body is accepted: no operation 0 or 25–63, no register at or above NVREG, no read before a write in the trip (R416). -/
def bodyFrom (ss : List PrikorStream) (nlit nvreg : Nat) : List Nat → List PrikorWord → Bool
  | _, [] => true
  | written, w :: t =>
    decide (1 ≤ w.op) && decide (w.op ≤ 24) && (w.reads ++ w.writes).all (fun r => decide (r < nvreg)) && w.reads.all (fun r => written.contains r) &&
      w.xOk ss nlit && bodyFrom ss nlit nvreg (w.writes ++ written) t

/-- Whether a kernel can be translated (R416). -/
def prikorAccepted (k : List Byte) : Bool := bodyFrom (prikorStreams k) (natAt k 6 1) (natAt k 7 1) [] (prikorWords k)

/-! ### What a body word computes (R416): one element, exposed code, RNE -/

/-- Two elements of a type: the float operation or the integer one. -/
def prikorTwo (ty : Nat) (ff : FpFmt → Nat → Nat → FpRes) (fi : Int → Int → Int) (a b : Nat) : Nat :=
  let w := typeWidth ty
  if typeFloat ty then (ff (typeFmt ty) (a % 2 ^ w) (b % 2 ^ w)).bits
  else (wrapElem w (fi (intElem ty (a % 2 ^ w)) (intElem ty (b % 2 ^ w)))).bits

/-- The value of an arithmetic operation 5–23 on elements a, b and the old d. -/
def prikorValue (op x a b d : Nat) : Nat :=
  let w := typeWidth x
  let f := typeFmt x
  match op with
  | 5 => prikorTwo x (fun f a b => fpAdd f .rne false a b) (fun a b => a + b) a b
  | 6 => prikorTwo x (fun f a b => fpSub f .rne false a b) (fun a b => a - b) a b
  | 7 => prikorTwo x (fun f a b => fpMul f .rne false a b) (fun a b => a * b) a b
  | 8 => (fpFma f .rne false false false (a % 2 ^ w) (b % 2 ^ w) (d % 2 ^ w)).bits
  | 9 => prikorTwo x (fun f a b => fpMinMax f false false a b) smaller a b
  | 10 => prikorTwo x (fun f a b => fpMinMax f false true a b) larger a b
  | 11 => prikorTwo x (fun f a _ => { bits := a % f.signBit, fl := 0#6 }) (fun a _ => (a.natAbs : Int)) a a
  | 12 => prikorTwo x (fun f a _ => { bits := (a + f.signBit) % (2 * f.signBit), fl := 0#6 }) (fun a _ => -a) a a
  | 13 => Nat.land a b
  | 14 => Nat.lor a b
  | 15 => Nat.xor a b
  | 16 => a * 2 ^ (b % w) % 2 ^ w
  | 17 => a % 2 ^ w / 2 ^ (b % w)
  | 18 => (cvtElem x false .rne (fun _ => BitVec.ofNat 32 a) 0 0).bits
  | 19 =>
    let less := if typeFloat x then (fpCond f false 2 (a % 2 ^ w) (b % 2 ^ w)).1 else decide (intElem x (a % 2 ^ w) < intElem x (b % 2 ^ w))
    if less then 2 ^ w - 1 else 0
  | 20 => if d = 0 then b else a
  | 21 => (xFunction 1 f false (a % 2 ^ w)).bits
  | 22 => (xFunction 3 f false (a % 2 ^ w)).bits
  | _ => (fpMul f .rne false (a % 2 ^ w) (xFunction 3 f false (b % 2 ^ w)).bits).bits

/-- What a run holds: virtual registers, stored elements (stream, trip, bits) with the last first, and the 16 partials of reductions. -/
structure PrikorRun where
  regs : Tbl Nat
  stored : List (Nat × Nat × Nat)
  parts : Tbl (List Nat)
  deriving DecidableEq, Repr

/-- The identity of a kind in an element type: −0, −∞, +∞; 0, the least and the greatest integer (R221). -/
def prikorIdentity (ty kind : Nat) : Nat :=
  let f := typeFmt ty
  let w := typeWidth ty
  if typeFloat ty then (if kind = 0 then f.signBit else if kind = 1 then f.withSign true f.infBits else f.infBits)
  else if kind = 0 then 0
  else if kind = 1 then (if typeSigned ty then 2 ^ (w - 1) else 0)
  else if typeSigned ty then 2 ^ (w - 1) - 1 else 2 ^ w - 1

/-- One combination of a reduction, rounded once in the stream's type (R417). -/
def prikorCombine (ty kind a b : Nat) : Nat := prikorValue (if kind = 0 then 5 else if kind = 1 then 10 else 9) ty a b 0

/-- The partials of a reduction output before any trip. -/
def PrikorRun.partials (r : PrikorRun) (ty kind stream : Nat) : List Nat := tblGet (List.replicate 16 (prikorIdentity ty kind)) stream r.parts

/-- A body word at trip n: `input` gives the element of an input stream at a trip. -/
def prikorStep (ss : List PrikorStream) (lits : List Nat) (input : Nat → Nat → Nat) (n : Nat) (r : PrikorRun) (w : PrikorWord) : PrikorRun :=
  let reg (i : Nat) : Nat := tblGet 0 i r.regs
  let ty (i : Nat) : Nat := match ss.drop i with
    | st :: _ => st.ty
    | [] => 0
  match w.op with
  | 1 => { r with regs := tblSet w.d (input w.x n) r.regs }
  | 2 => { r with stored := (w.x, n, reg w.a % 2 ^ typeWidth (ty w.x)) :: r.stored }
  | 3 => { r with regs := tblSet w.d (nth 0 lits w.x) r.regs }
  | 4 => { r with regs := tblSet w.d (reg w.a) r.regs }
  | 24 =>
    let st := w.x % 16
    let kind := w.x / 16
    let ps := r.partials (ty st) kind st
    let j := n % 16
    { r with parts := tblSet st (ps.set j (prikorCombine (ty st) kind (nth 0 ps j) (reg w.a))) r.parts }
  | op => { r with regs := tblSet w.d (prikorValue op w.x (reg w.a) (reg w.b) (reg w.d)) r.regs }

/-- The trips from n on, in ascending n: no register passes from one to the next. -/
def prikorTrips (ss : List PrikorStream) (lits : List Nat) (body : List PrikorWord) (input : Nat → Nat → Nat) : Nat → Nat → PrikorRun → PrikorRun
  | 0, _, r => r
  | k + 1, n, r => prikorTrips ss lits body input k (n + 1) (body.foldl (prikorStep ss lits input n) { r with regs := [] })

/-- Sixteen partials in the tree of R221 as lanes 0–15. -/
def prikorTree (ty kind : Nat) (ps : List Nat) : Nat :=
  nth 0 ((treeReduce (fun a b => { bits := prikorCombine ty kind a b, fl := 0#6 }) 4 (ps.map (fun p => { bits := p, fl := 0#6 }))).map (·.bits)) 0

/-- The kind of a reduction output: that of the first word that folds into it. -/
def reductionKind (body : List PrikorWord) (stream : Nat) : Option Nat := (body.find? (fun w => w.op == 24 && w.x % 16 == stream)).map (fun w => w.x / 16)

/-- What a kernel writes (R414–R417): (stream, trip, bits) in the order written; the reduction outputs after the last trip. -/
def prikorResult (k : List Byte) (input : Nat → Nat → Nat) : List (Nat × Nat × Nat) :=
  let ss := prikorStreams k
  let body := prikorWords k
  let r := prikorTrips ss (prikorLiterals k) body input (tripCount (tripShape ss)) 0 { regs := [], stored := [], parts := [] }
  r.stored.reverse ++ (upTo ss.length).filterMap (fun i => (reductionKind body i).map (fun kind =>
    let ty := match ss.drop i with
      | st :: _ => st.ty
      | [] => 0
    (i, 0, prikorTree ty kind (r.partials ty kind i))))

/-- The bytes of memory that a kernel writes, element by element: (address, bytes), from inputs read as bytes at an address (R415). -/
def prikorWrites (k : List Byte) (args : List W64) (read : W64 → Nat → List Byte) : List (W64 × List Byte) :=
  let ss := prikorStreams k
  let shape := tripShape ss
  let at_ (i n : Nat) : Option (W64 × Nat) := match ss.drop i with
    | st :: _ => some (st.elemAddr args (tripPoint (if st.kind = 2 then st.ext else shape) n), st.size)
    | [] => none
  (prikorResult k (fun i n => match at_ i n with
    | some p => leNat (read p.1 p.2)
    | none => 0)).filterMap (fun e => (at_ e.1 e.2.1).map (fun p => (p.1, leBytes p.2 e.2.2)))

end Sys2Proof.Machine
end

