-- ==== Sys2Proof/Machine/Sha.lean ====
section
/-!
DEFINITION. SHA-512, the hash that maps, objects, quotes and checkpoints use (R181, R370, R374, R397, R443, R455), and the verification of RSA-4096
PKCS #1 v2.2 PSS signatures (R398).
-/

namespace Sys2Proof.Machine

/-- Round constants 0 to 19: the fractions of the cube roots of the first primes. -/
def shaK0 : List W64 :=
  [0x428A2F98D728AE22#64, 0x7137449123EF65CD#64, 0xB5C0FBCFEC4D3B2F#64, 0xE9B5DBA58189DBBC#64,
   0x3956C25BF348B538#64, 0x59F111F1B605D019#64, 0x923F82A4AF194F9B#64, 0xAB1C5ED5DA6D8118#64,
   0xD807AA98A3030242#64, 0x12835B0145706FBE#64, 0x243185BE4EE4B28C#64, 0x550C7DC3D5FFB4E2#64,
   0x72BE5D74F27B896F#64, 0x80DEB1FE3B1696B1#64, 0x9BDC06A725C71235#64, 0xC19BF174CF692694#64,
   0xE49B69C19EF14AD2#64, 0xEFBE4786384F25E3#64, 0x0FC19DC68B8CD5B5#64, 0x240CA1CC77AC9C65#64]

/-- Round constants 20 to 39: the fractions of the cube roots of the first primes. -/
def shaK1 : List W64 :=
  [0x2DE92C6F592B0275#64, 0x4A7484AA6EA6E483#64, 0x5CB0A9DCBD41FBD4#64, 0x76F988DA831153B5#64,
   0x983E5152EE66DFAB#64, 0xA831C66D2DB43210#64, 0xB00327C898FB213F#64, 0xBF597FC7BEEF0EE4#64,
   0xC6E00BF33DA88FC2#64, 0xD5A79147930AA725#64, 0x06CA6351E003826F#64, 0x142929670A0E6E70#64,
   0x27B70A8546D22FFC#64, 0x2E1B21385C26C926#64, 0x4D2C6DFC5AC42AED#64, 0x53380D139D95B3DF#64,
   0x650A73548BAF63DE#64, 0x766A0ABB3C77B2A8#64, 0x81C2C92E47EDAEE6#64, 0x92722C851482353B#64]

/-- Round constants 40 to 59: the fractions of the cube roots of the first primes. -/
def shaK2 : List W64 :=
  [0xA2BFE8A14CF10364#64, 0xA81A664BBC423001#64, 0xC24B8B70D0F89791#64, 0xC76C51A30654BE30#64,
   0xD192E819D6EF5218#64, 0xD69906245565A910#64, 0xF40E35855771202A#64, 0x106AA07032BBD1B8#64,
   0x19A4C116B8D2D0C8#64, 0x1E376C085141AB53#64, 0x2748774CDF8EEB99#64, 0x34B0BCB5E19B48A8#64,
   0x391C0CB3C5C95A63#64, 0x4ED8AA4AE3418ACB#64, 0x5B9CCA4F7763E373#64, 0x682E6FF3D6B2B8A3#64,
   0x748F82EE5DEFB2FC#64, 0x78A5636F43172F60#64, 0x84C87814A1F0AB72#64, 0x8CC702081A6439EC#64]

/-- Round constants 60 to 79: the fractions of the cube roots of the first primes. -/
def shaK3 : List W64 :=
  [0x90BEFFFA23631E28#64, 0xA4506CEBDE82BDE9#64, 0xBEF9A3F7B2C67915#64, 0xC67178F2E372532B#64,
   0xCA273ECEEA26619C#64, 0xD186B8C721C0C207#64, 0xEADA7DD6CDE0EB1E#64, 0xF57D4F7FEE6ED178#64,
   0x06F067AA72176FBA#64, 0x0A637DC5A2C898A6#64, 0x113F9804BEF90DAE#64, 0x1B710B35131C471B#64,
   0x28DB77F523047D84#64, 0x32CAAB7B40C72493#64, 0x3C9EBE0A15C9BEBC#64, 0x431D67C49C100D4C#64,
   0x4CC5D4BECB3E42B6#64, 0x597F299CFC657E2A#64, 0x5FCB6FAB3AD6FAEC#64, 0x6C44198C4A475817#64]

/-- The eight chaining words. -/
structure ShaWords where
  a : W64
  b : W64
  c : W64
  d : W64
  e : W64
  f : W64
  g : W64
  h : W64

/-- The initial chaining words: the fractions of the square roots of the first eight primes. -/
def shaInit : ShaWords :=
  { a := 0x6A09E667F3BCC908#64, b := 0xBB67AE8584CAA73B#64, c := 0x3C6EF372FE94F82B#64, d := 0xA54FF53A5F1D36F1#64,
    e := 0x510E527FADE682D1#64, f := 0x9B05688C2B3E6C1F#64, g := 0x1F83D9ABFB41BD6B#64, h := 0x5BE0CD19137E2179#64 }

/-- The four word functions of the schedule and of a round. -/
def shaS0 (x : W64) : W64 := x.rotateRight 1 ^^^ x.rotateRight 8 ^^^ x >>> 7
def shaS1 (x : W64) : W64 := x.rotateRight 19 ^^^ x.rotateRight 61 ^^^ x >>> 6
def shaB0 (x : W64) : W64 := x.rotateRight 28 ^^^ x.rotateRight 34 ^^^ x.rotateRight 39
def shaB1 (x : W64) : W64 := x.rotateRight 14 ^^^ x.rotateRight 18 ^^^ x.rotateRight 41

/-- One round with its constant and its schedule word. -/
def shaRound (k w : W64) (s : ShaWords) : ShaWords :=
  let t1 := s.h + shaB1 s.e + (s.e &&& s.f ^^^ ~~~s.e &&& s.g) + k + w
  let t2 := shaB0 s.a + (s.a &&& s.b ^^^ s.a &&& s.c ^^^ s.b &&& s.c)
  { a := t1 + t2, b := s.a, c := s.b, d := s.c, e := s.d + t1, f := s.e, g := s.f, h := s.g }

/-- The rounds of a block: the window holds the next sixteen schedule words. -/
def shaRounds : List W64 → List W64 → ShaWords → ShaWords
  | [], _, s => s
  | _ :: _, [], s => s
  | k :: ks, w :: rest, s =>
    let next := shaS1 (nth 0#64 rest 13) + nth 0#64 rest 8 + shaS0 (nth 0#64 rest 0) + w
    shaRounds ks (rest ++ [next]) (shaRound k w s)

/-- The chaining words after a block. -/
def shaBlock (s : ShaWords) (w : List W64) : ShaWords :=
  let r := shaRounds (shaK0 ++ shaK1 ++ shaK2 ++ shaK3) w s
  { a := s.a + r.a, b := s.b + r.b, c := s.c + r.c, d := s.d + r.d, e := s.e + r.e, f := s.f + r.f, g := s.g + r.g, h := s.h + r.h }

/-- Big-endian bytes of a natural, and back. -/
def beBytes (n x : Nat) : List Byte := (leBytes n x).reverse
def beNat (b : List Byte) : Nat := leNat b.reverse

/-- The message in blocks of 128 bytes: `n` blocks of sixteen words. -/
def shaWordsOf : Nat → List Byte → List W64
  | 0, _ => []
  | n + 1, b => let r := cut 8 b; BitVec.ofNat 64 (beNat r.1) :: shaWordsOf n r.2
def shaBlocks : Nat → List Byte → ShaWords → ShaWords
  | 0, _, s => s
  | n + 1, b, s => let r := cut 128 b; shaBlocks n r.2 (shaBlock s (shaWordsOf 16 r.1))

/-- SHA-512 of a byte string: 64 bytes. -/
def sha512 (m : List Byte) : List Byte :=
  let n := m.length
  let pad := (111 + 128 - n % 128) % 128
  let all := m ++ [0x80#8] ++ copies pad 0#8 ++ beBytes 16 (8 * n)
  let r := shaBlocks (all.length / 128) all shaInit
  [r.a, r.b, r.c, r.d, r.e, r.f, r.g, r.h].flatMap (fun w => beBytes 8 w.toNat)

/-- The first 128 bits of a SHA-512 hash. -/
def hash128 (m : List Byte) : List Byte := (cut 16 (sha512 m)).1

/-! ### RSA-4096 PSS (R398) -/

/-- Bytes combined by exclusive or, as far as both reach. -/
def xorZip (a b : List Byte) : List Byte := (a.zip b).map (fun p => p.1 ^^^ p.2)

/-- x to the power 2^k modulo n. -/
def squareMod (n : Nat) : Nat → Nat → Nat
  | 0, x => x % n
  | k + 1, x => squareMod n k (x * x % n)

/-- The public operation of an RSA key with exponent 65,537, which R452 names for identity keys; R398 names none. DEDUCED, unsafe: log entry 109. -/
def rsaPublic (n x : Nat) : Nat := squareMod n 16 x * x % n

/-- MGF1 with SHA-512: `len` bytes from a seed. -/
def mgf1 (seed : List Byte) (len : Nat) : List Byte := (cut len ((upTo ((len + 63) / 64)).flatMap (fun i => sha512 (seed ++ beBytes 4 i)))).1

/-- What stands after the zeros and the 0x01 of a data block: the salt, none where the block is malformed. -/
def pssSalt : List Byte → Option (List Byte)
  | [] => none
  | b :: t => if b = 0#8 then pssSalt t else if b = 1#8 then some t else none

/-- EMSA-PSS: whether 512 encoded bytes fit a message, with SHA-512 and a salt of any length. -/
def pssFits (m em : List Byte) : Bool :=
  let h := (cut 64 (em.drop 447)).1
  let masked := (cut 447 em).1
  let db := xorZip masked (mgf1 h 447)
  let body := match db with
    | b :: t => (b &&& 0x7F#8) :: t
    | [] => []
  em.length == 512 && em.getLast? == some 0xBC#8 && (match masked with
    | b :: _ => decide (b.toNat < 128)
    | [] => false) && (match pssSalt body with
    | some salt => sha512 (copies 8 0#8 ++ sha512 m ++ salt) == h
    | none => false)

/-- Whether a 512-byte signature of a message verifies under a modulus, which stands as 512 little-endian bytes (R4, R398). The octets of a signature are
those of PKCS #1, the first the most significant. -/
def pssVerify (modulus m sig : List Byte) : Bool :=
  let n := leNat modulus
  sig.length == 512 && modulus.length == 512 && decide (2 ^ 4095 ≤ n) && decide (beNat sig < n) && pssFits m (beBytes 512 (rsaPublic n (beNat sig)))

end Sys2Proof.Machine
end

