-- ==== Sys2Proof/Machine/Object.lean ====
section
/-!
DEFINITION. Buzil objects (R396–R408, R412, R413): their parts, the checks of an upload, and the expansion of compressed bundle
bodies.
-/

namespace Sys2Proof.Machine

/-! ### The object and its sections (R396) -/

/-- An entry of the section table. -/
structure ObjSection where
  index : Nat
  kind : Nat
  flags : Nat
  off : Nat
  len : Nat
  bound : Nat
  deriving DecidableEq, Repr

/-- The hash of an object, and the first 128 bits that tags and records carry (R397). -/
def objHash (b : List Byte) : List Byte := octets b 0x08 64
def objTag (b : List Byte) : List Byte := octets b 0x08 16

/-- The section table. -/
def objSections (b : List Byte) : List ObjSection :=
  (upTo (natAt b 0x50 2)).map (fun i =>
    let e := 0x80 + 32 * i
    { index := i, kind := natAt b e 2, flags := natAt b (e + 2) 2, off := natAt b (e + 8) 8, len := natAt b (e + 16) 8, bound := natAt b (e + 24) 8 })

/-- The stored bytes of a section. -/
def ObjSection.bytes (x : ObjSection) (b : List Byte) : List Byte := octets b x.off x.len

/-- The section of a kind that an object holds at most once. -/
def objSection (b : List Byte) (kind : Nat) : Option (List Byte) := ((objSections b).find? (fun x => x.kind == kind)).map (fun x => x.bytes b)

/-- The bytes that HASH covers: HASH and every byte of a signature section read as zero (R397). -/
def objHashed (b : List Byte) : List Byte :=
  ((objSections b).filter (fun x => x.kind == 9)).foldl (fun acc x => blanked acc x.off x.len) (blanked b 0x08 64)

/-- Whether the header and the section table are well formed (R399). -/
def objHeaderOk (b : List Byte) : Bool :=
  let ss := objSections b
  let count (k : Nat) : Nat := (ss.filter (fun x => x.kind == k)).length
  natAt b 0 8 == 0x000000014C5A5542 && natAt b 0x48 8 == b.length && b.length % 64 == 0 && decide (1 ≤ natAt b 0x50 2) &&
    decide (natAt b 0x50 2 ≤ 255) && decide (natAt b 0x52 2 ≤ 1024) && zeroAt b 0x54 44 &&
    (upTo ss.length).all (fun i => zeroAt b (0x80 + 32 * i + 4) 4) &&
    ss.all (fun x => decide (1 ≤ x.kind) && decide (x.kind ≤ 9) && decide (x.flags ≤ 1) && (x.flags == 0 || x.kind == 2) &&
      (if x.flags = 0 then x.bound == 0 else x.bound % 64 == 0) && x.off % 64 == 0 && decide (x.off + x.len ≤ b.length)) &&
    ss.all (fun x => ss.all (fun y => x.index == y.index || decide (x.off + x.len ≤ y.off) || decide (y.off + y.len ≤ x.off))) &&
    count 4 == 1 && [1, 3, 5, 6, 7, 8, 9].all (fun k => decide (count k ≤ 1))

/-- Whether the signature section is well formed, and whether one signature verifies under a trusted key: the list holds public moduli, and an entry's key
id is the hash of one (R398). -/
def objSigned (b : List Byte) (needSig : Bool) (trusted : List (List Byte)) : Bool :=
  match objSection b 9 with
  | none => !needSig
  | some s =>
    let n := natAt s 0 4
    decide (1 ≤ n) && decide (n ≤ 16) && zeroAt s 4 60 && decide (64 + 528 * n ≤ s.length) &&
      (!needSig || (upTo n).any (fun i =>
        trusted.any (fun k => hash128 k == octets s (64 + 528 * i) 16 && pssVerify k (objHash b) (octets s (64 + 528 * i + 16) 512))))

/-! ### The binding graph (R400) -/

/-- A record of the binding graph. -/
structure GraphRec where
  kernel : Nat
  ncore : Nat
  pos : List Byte
  pair : List Byte
  wf : Bool
  deriving DecidableEq, Repr

/-- Logical ropes of a number of cores. -/
def graphRopes (ncore : Nat) : Nat := (ncore + 3) / 4

/-- Used positions of a POS byte. -/
def posCount (b : Byte) : Nat := ((upTo 4).filter (fun k => bitAt b k)).length

/-- The records of the graph in order, `n` at most. -/
def graphRecs : Nat → List Byte → List GraphRec
  | 0, _ => []
  | n + 1, b =>
    let nlr := natAt b 8 2
    let np := nlr * (nlr - 1) / 2
    let pos := octets b 0x10 nlr
    let pair := octets b (0x10 + nlr) np
    let ncore := natAt b 4 4
    let wf := decide (1 ≤ ncore) && decide (ncore ≤ 2048) && nlr == graphRopes ncore && zeroAt b 10 6 &&
      zeroAt b (0x10 + nlr + np) (roundUp (0x10 + nlr + np) 64 - (0x10 + nlr + np)) && pos.all (fun x => decide (x.toNat < 16)) &&
      (pos.map posCount).foldl (· + ·) 0 == ncore && pair.length == np &&
      pair.all (fun x => decide (x.toNat % 128 ≤ if bitAt x 7 then 17 else 6))
    { kernel := natAt b 0 4, ncore := ncore, pos := pos, pair := pair, wf := wf } :: graphRecs n (b.drop (roundUp (0x10 + nlr + np) 64))

/-- The binding graph of an object. -/
def objGraph (b : List Byte) : List GraphRec := graphRecs (natAt b 0x52 2) ((objSection b 4).getD [])

/-- The record of a kernel. -/
def objKernel (b : List Byte) (kernel : Nat) : Option GraphRec := (objGraph b).find? (fun g => g.kernel == kernel)

/-- The relation byte of two logical ropes i < j: pairs stand in ascending (i, j) (R400). -/
def GraphRec.relation (g : GraphRec) (i j : Nat) : Nat := (nth 0#8 g.pair (i * (2 * g.pos.length - i - 1) / 2 + (j - i - 1))).toNat

/-! ### Native images (R401–R406) -/

/-- The parts of a native image. -/
structure Image where
  index : Nat
  kernel : Nat
  mode : Nat
  featlvl : Nat
  specimen : List Byte
  mapver : Nat
  nbundle : Nat
  featreq : Nat
  nrp : Nat
  nlock : Nat
  nref : Nat
  dictn : Nat
  ncore : Nat
  classes : List (List Byte)
  resume : List Byte
  locks : List Byte
  refills : List Byte
  launch : List Byte
  dict : List Byte
  body : List Byte
  deriving DecidableEq, Repr

/-- An image from the bytes of its section. -/
def imageOf (index : Nat) (b : List Byte) : Image :=
  let ncl := natAt b 6 2
  let nrp := natAt b 0x28 2
  let nl := natAt b 0x2A 2
  let nr := natAt b 0x2C 2
  let dn := natAt b 0x2E 1
  let o1 := 128 + roundUp (16 * ncl) 64
  let o2 := o1 + 128 * nrp
  let o3 := o2 + roundUp (8 * nl) 64
  let o4 := o3 + roundUp (32 * nr) 64
  let o5 := o4 + 64
  { index := index, kernel := natAt b 0 4, mode := natAt b 4 1, featlvl := natAt b 5 1, specimen := octets b 8 16, mapver := natAt b 0x18 4,
    nbundle := natAt b 0x1C 4, featreq := natAt b 0x20 8, nrp := nrp, nlock := nl, nref := nr, dictn := dn, ncore := natAt b 0x30 4,
    classes := (upTo ncl).map (fun i => octets b (128 + 16 * i) 16), resume := octets b o1 (128 * nrp), locks := octets b o2 (8 * nl),
    refills := octets b o3 (32 * nr), launch := octets b o4 64, dict := octets b o5 (64 * dn), body := b.drop (o5 + 64 * dn) }

/-- The native images of an object. -/
def objImages (b : List Byte) : List Image := ((objSections b).filter (fun x => x.kind == 2)).map (fun x => imageOf x.index (x.bytes b))

/-- A resume-point table entry (R405). -/
structure ResumeEntry where
  desc : ResumeDesc
  bundle : Nat
  /-- START and END bundle indices of i0 to i5 -/
  loops : List (Nat × Nat)
  rets : List Nat
  regs : List Nat
  ref : Nat
  nrefp : Nat
  wf : Bool
  deriving DecidableEq, Repr

/-- Entry i of a resume-point table. -/
def resumeEntry (t : List Byte) (i : Nat) : ResumeEntry :=
  let e := octets t (128 * i) 128
  let ld := natAt e 0x71 1
  let rd := natAt e 0x72 1
  let bd := natAt e 0x73 1
  { desc := { rpid := natAt e 0 4, kind := natAt e 0x70 1, ldepth := ld, rdepth := rd, bdepth := bd, lflags := octets e 0x74 6 },
    bundle := natAt e 4 4,
    loops := (upTo ld).map (fun k => (natAt e (8 + 8 * k) 4, natAt e (12 + 8 * k) 4)),
    rets := (upTo rd).map (fun k => natAt e (0x38 + 4 * k) 4),
    regs := (upTo bd).map (fun k => natAt e (0x58 + 4 * k) 4),
    ref := natAt e 0x68 4, nrefp := natAt e 0x6C 4,
    wf := decide (natAt e 0x70 1 ≤ 3) && decide (ld ≤ 6) && decide (rd ≤ 8) && decide (bd ≤ 4) && decide (natAt e 0x6C 4 ≤ 4096) &&
      zeroAt e (8 + 8 * ld) (48 - 8 * ld) && zeroAt e (0x38 + 4 * rd) (32 - 4 * rd) && zeroAt e (0x58 + 4 * bd) (16 - 4 * bd) &&
      zeroAt e (0x74 + ld) (6 - ld) && (octets e 0x74 6).all (fun f => decide (f.toNat < 8)) && zeroAt e 0x7A 6 }

/-- The resume points of an image. -/
def Image.resumes (i : Image) : List ResumeEntry := (upTo i.nrp).map (resumeEntry i.resume)

/-- The Prikor kernels of an object; none where it has no Prikor section (R414). -/
def objPrikor (b : List Byte) : Option (List (List Byte)) := (objSection b 1).map (fun s => prikorKernels (natAt s 0 2) (s.drop 64))

/-- The description of a kernel's resume points: Prikor's, or those of its native image with the lowest index (R412, R413). -/
def objResume (b : List Byte) (kernel : Nat) : List ResumeDesc :=
  match objPrikor b with
  | some ks => match ks.find? (fun k => natAt k 0 4 == kernel) with
    | some k => prikorResume k
    | none => []
  | none => match (objImages b).find? (fun i => i.kernel == kernel) with
    | some i => i.resumes.map (·.desc)
    | none => []

/-- Whether the zeros with which the parts of an image are padded are zero (R8, R401). -/
def imagePads (s : List Byte) (i : Image) : Bool :=
  let span (at_ n size : Nat) : Bool := zeroAt s (at_ + n) (roundUp n size - n)
  let o1 := 128 + roundUp (16 * i.classes.length) 64
  let o2 := o1 + 128 * i.nrp
  let o3 := o2 + roundUp (8 * i.nlock) 64
  span 128 (16 * i.classes.length) 64 && span o2 (8 * i.nlock) 64 && span o3 (32 * i.nref) 64

/-- Whether an image's parts are well formed (R401–R406, R412, R413). -/
def imageOk (b : List Byte) (x : ObjSection) : Bool :=
  let s := x.bytes b
  let i := imageOf x.index s
  let l := i.launch
  let locks := (upTo i.nlock).map (fun k => natAt i.locks (8 * k + 4) 4)
  let refillOk (k : Nat) : Bool :=
    let e := octets i.refills (32 * k) 32
    let dst := natAt e 0 8
    let src := natAt e 8 8
    let len := natAt e 0x10 4
    dst % 64 == 0 && ((dst / 2 ^ 60 == 1 && decide (dst % 2 ^ 60 + len ≤ 2 ^ 23)) || (dst / 2 ^ 60 == 2 && decide (dst % 2 ^ 60 + len ≤ 0x1800000))) &&
      len != 0 && len % 64 == 0 && decide (natAt e 0x14 4 ≤ 1) && zeroAt e 0x18 8 &&
      (if natAt e 0x14 4 = 1 then decide (src + len ≤ ((objSection b 3).getD []).length) else decide (src + len ≤ 2 ^ 57))
  decide (i.mode ≤ 1) && decide (1 ≤ i.classes.length) && decide (i.classes.length ≤ 64) && decide (1 ≤ i.nbundle) &&
    decide (i.nbundle ≤ 16777216) && decide (i.featreq < 64) && i.featreq % 2 == i.mode && decide (i.nlock ≤ 64) && decide (i.nref ≤ 4096) &&
    decide (i.dictn ≤ 240) && zeroAt s 0x2F 1 && zeroAt s 0x34 76 &&
    (match objKernel b i.kernel with
      | some g => g.ncore == i.ncore
      | none => false) &&
    (x.flags == 1 || (decide (64 * i.nbundle ≤ i.body.length) && (i.body.drop (64 * i.nbundle)).all (· == 0#8))) && i.launch.length == 64 &&
    imagePads s i &&
    decide (locks.foldl (· + ·) 0 ≤ 2048) && (upTo i.nref).all refillOk &&
    decide (1 ≤ natAt l 0xC 1) && decide (natAt l 0xC 1 ≤ 15) && zeroAt l 0x14 44 &&
    (natAt l 0xD 1 == 0xFF || decide (512 * (natAt l 0xD 1 + 1) ≤ ((objSection b 5).getD []).length)) &&
    (natAt l 0xE 2 == 0xFFFF || decide (3136 * (natAt l 0xE 2 + 1) ≤ ((objSection b 6).getD []).length)) &&
    i.resumes.map (·.desc) == objResume b i.kernel &&
    (upTo i.nrp).all (fun k =>
      let e := resumeEntry i.resume k
      e.wf && e.desc.rpid == k && (e.desc.kind == 0) == (k == 0) && decide (e.bundle < i.nbundle) && decide (e.ref + e.nrefp ≤ i.nref))

/-! ### Compressed bundle bodies (R407, R408) -/

/-- How an expansion ends, with the bundles that have landed: all of them, those before the one that would have passed the bound, or those before the
stream was found malformed. -/
inductive Expansion where
  | done (bytes : List Byte)
  | over (landed : List Byte)
  | malformed (landed : List Byte)
  deriving DecidableEq, Repr

/-- The bundles that have landed, and whether the stream is malformed. -/
def Expansion.landed : Expansion → List Byte
  | .done b => b
  | .over b => b
  | .malformed b => b
def Expansion.bad : Expansion → Bool
  | .malformed _ => true
  | _ => false

/-- A bundle with `n` words replaced, and the rest of the stream; none where the stream is malformed. -/
def patchBundle : Nat → List Byte → List Byte → Option (List Byte × List Byte)
  | 0, w, s => some (w, s)
  | _ + 1, _, [] => none
  | n + 1, w, k :: s =>
    if 15 < k.toNat ∨ s.length < 4 then none
    else patchBundle n ((cut (4 * k.toNat) w).1 ++ (cut 4 s).1 ++ (cut (4 * k.toNat + 4) w).2) (cut 4 s).2

/-- A hold bundle: its header, then zeros. -/
def holdBundle (time : Nat) : List Byte := leBytes 4 (time * 4096) ++ copies 60 0#8

/-- What one token emits, and the rest of the stream: none where it is malformed; `some none` at the end of the stream. -/
def oneToken (dict : List Byte) (dictn : Nat) : List Byte → Option (Option (List (List Byte) × List Byte))
  | [] => none
  | t :: s =>
    let k := t.toNat
    if k ≤ 0xEF then (if k < dictn then some (some ([octets dict (64 * k) 64], s)) else none)
    else if k = 0xF0 then (if s.length < 64 then none else some (some ([(cut 64 s).1], (cut 64 s).2)))
    else if k = 0xF1 then
      match s with
      | j :: n :: r =>
        if dictn ≤ j.toNat ∨ n.toNat = 0 ∨ 15 < n.toNat then none
        else (patchBundle n.toNat (octets dict (64 * j.toNat) 64) r).map (fun p => some ([p.1], p.2))
      | _ => none
    else if k = 0xF2 then
      match s with
      | n :: lo :: hi :: r =>
        let time := leNat [lo, hi]
        if n.toNat = 0 ∨ 4096 ≤ time then none else some (some (copies n.toNat (holdBundle time), r))
      | _ => none
    else if k = 0xF3 then some none
    else none

/-- Bundles written in order under the bound, which is tested first, and the count (R408): the bundles left to write and the bytes written. -/
def putBundles (bound : Nat) : List (List Byte) → Nat → List Byte → Sum Expansion (Nat × List Byte)
  | [], left, out => .inr (left, out)
  | w :: ws, left, out =>
    if bound < out.length + 64 then .inl (.over out)
    else if left = 0 then .inl (.malformed out)
    else putBundles bound ws (left - 1) (out ++ w)

/-- Expand a token stream into `left` bundles; `fuel` is at least the length of the stream. -/
def expandFrom (dict : List Byte) (dictn bound : Nat) : Nat → List Byte → Nat → List Byte → Expansion
  | 0, _, _, out => .malformed out
  | fuel + 1, s, left, out =>
    match oneToken dict dictn s with
    | none => .malformed out
    | some none => if left = 0 ∧ (s.drop 1).all (· == 0#8) then .done out else .malformed out
    | some (some (ws, r)) =>
      match putBundles bound ws left out with
      | .inl e => e
      | .inr p => expandFrom dict dictn bound fuel r p.1 p.2

/-- The expansion of a compressed section. -/
def expandSection (b : List Byte) (x : ObjSection) : Expansion :=
  let i := imageOf x.index (x.bytes b)
  expandFrom i.dict i.dictn x.bound (i.body.length + 1) i.body i.nbundle []

/-! ### The upload (R399) -/

/-- Compressed sections of an object with their expansions. -/
def objExpansions (b : List Byte) : List (Nat × Expansion) :=
  ((objSections b).filter (fun x => x.kind == 2 && x.flags == 1)).map (fun x => (x.index, expandSection b x))

/-- Whether kernels and graph records agree: the graph stands in the order of the Prikor kernels, or in ascending order (R400, R413). -/
def graphOk (b : List Byte) : Bool :=
  let g := objGraph b
  g.length == natAt b 0x52 2 && g.all (·.wf) &&
    (match objPrikor b with
      | some ks =>
        let ids := ks.map (fun k => natAt k 0 4)
        ks.length == natAt b 0x52 2 && natAt ((objSection b 1).getD []) 0 2 == natAt b 0x52 2 && g.map (·.kernel) == ids &&
          ids.eraseDups.length == ids.length && zeroAt ((objSection b 1).getD []) 2 62 && ks.all prikorKernelOk &&
          prikorPads ks.length (((objSection b 1).getD []).drop 64)
      | none => tblSorted (g.map (fun x => (x.kernel, ()))))

/-- Whether the reserved bits of a format-table entry are zero (R8, R253). -/
def formatClear (v : Nat) : Bool := field v 21 43 == 0 && field v 4 1 == 0

/-- Whether the format and slot tables of an object have their sizes and no reserved field set (R8, R253, R396). -/
def tablesOk (b : List Byte) : Bool :=
  let f := (objSection b 5).getD []
  let t := (objSection b 6).getD []
  f.length % 512 == 0 && (upTo (f.length / 8)).all (fun i => formatClear (natAt f (8 * i) 8)) &&
    t.length % 3136 == 0 && (upTo (t.length / 3136)).all (fun i => zeroAt t (3136 * i + 1040) 48)

/-- Whether an object is refused before a compressed section is expanded (R399). -/
def objFaulty (b : List Byte) (needSig : Bool) (trusted : List (List Byte)) : Bool :=
  !objHeaderOk b || objHash b != sha512 (objHashed b) || !objSigned b needSig trusted || !graphOk b || !tablesOk b ||
    ((objSections b).filter (fun x => x.kind == 2)).any (fun x => !imageOk b x)

/-- Whether an object is refused at upload (R399): every check but the bound of a compressed section. -/
def objRefused (b : List Byte) (needSig : Bool) (trusted : List (List Byte)) : Bool :=
  objFaulty b needSig trusted || (objExpansions b).any (fun e => e.2.bad)

/-- The status with which an upload ends: 0x39 refused; 0x38 where an expansion would pass its bound (R301); else 0. -/
def objStatus (b : List Byte) (needSig : Bool) (trusted : List (List Byte)) : Nat :=
  if objRefused b needSig trusted then 0x39
  else if (objExpansions b).any (fun e => match e.2 with
    | .over _ => true
    | _ => false) then 0x38
  else 0

/-- Where an address of a tenant lies in memory, as the command processor, the loader or the context-save unit reaches it: the key of its
byte, or none where it faults (R17, R20, R22, R27). -/
def State.locate (s : State) (tenant asid : Nat) (root a : W64) (kind : OffKind) : Option Nat :=
  if addrCode s.sec.members [0, 4, 5] a ≠ 0 then none
  else if addrSpace a = 0 then
    match s.walk Config.ownPackage false root (addrOffset a) with
    | .page vb _ pb r w _ =>
      let phys := pb + (addrOffset a - vb)
      if (if kind = .read then r else w) && s.partitionCode tenant phys == 0 then some (keyHbm Config.ownPackage phys) else none
    | .fault _ => none
  else if addrSpace a = 4 then
    let w := s.window asid (addrOffset a / 2 ^ 42)
    let o := addrOffset a % 2 ^ 42
    if w.valid && decide (o < w.len) && (if kind = .read then w.r else w.w) then some (keyHost (w.base.toNat + o)) else none
  else
    match s.tenantTarget tenant a kind with
    | .inl _ => none
    | .inr t => some (keyHbm t.1 t.2)

/-- Read whole 64-byte lines at an address. -/
def State.readLines (s : State) (tenant asid : Nat) (root : W64) : Nat → W64 → Option (List Byte)
  | 0, _ => some []
  | n + 1, a =>
    match s.locate tenant asid root a .read, s.readLines tenant asid root n (a + 64#64) with
    | some k, some rest => some (readBytes s.mem k 64 ++ rest)
    | _, _ => none

/-- Write bytes at an address, line by line: none where a line faults. -/
def State.writeLines (s : State) (tenant asid : Nat) (root : W64) : Nat → W64 → List Byte → Option State
  | 0, _, _ => some s
  | n + 1, a, b =>
    match s.locate tenant asid root a .write with
    | none => none
    | some k => (s.putKey k (cut 64 b).1).writeLines tenant asid root n (a + 64#64) (cut 64 b).2

/-- Memory keys of the lines from an address on, as far as their accesses wait for a grant or for the host (R20, R63): a posted write to the host waits
for neither. -/
def State.lineKeys (s : State) (tenant asid : Nat) (root : W64) (n : Nat) (a : W64) (kind : OffKind) : List Nat :=
  (upTo n).filterMap (fun k => (s.locate tenant asid root (a + BitVec.ofNat 64 (64 * k)) kind).filter (fun x => (ownPhys x).isSome || kind == .read))

/-- The partition of a tenant. -/
def State.partition (s : State) (tenant : Nat) : Partition := tblGet Machine.Partition.reset tenant s.sec.partitions

/-- The data and instruction roots of an address space of a tenant (R22, R28, R30). -/
def State.rootsOf (s : State) (tenant asid : Nat) : W64 × W64 :=
  match (s.partition tenant).roots.find? (fun r => r.1 == asid) with
  | some r => r.2
  | none => (0#64, 0#64)

/-- Base address of an image on the cores it is mapped for (R401). -/
def imageIb (tag : List Byte) (section_ : Nat) : BitVec 48 := BitVec.ofNat 48 ((Config.imageBase tag section_).toNat * 2 ^ 21)

/-- An image's bundles written, each as one 64-byte write, where the address of the bundle translates for instructions in an address space of the tenant
(R28, R401, R408). DESIGN CHOICE, unsafe: log entry 47. -/
def State.mapImage (s : State) (tenant : Nat) (ib : BitVec 48) (body : List Byte) : State :=
  (s.partition tenant).roots.foldl (fun acc r => (upTo (body.length / 64)).foldl (fun t k =>
    let va := ib.toNat + 64 * k
    match t.walk Config.ownPackage true r.2.2 va with
    | .page vb _ pb _ _ _ =>
      let phys := pb + (va - vb)
      if t.partitionCode tenant phys = 0 then t.putKey (keyHbm Config.ownPackage phys) (octets body (64 * k) 64) else t
    | .fault _ => t) acc) s

/-- The native images of an object mapped (R401, R408): those of compressed sections as far as they have landed, and none after one that is malformed,
which ends the upload. -/
def State.mapObject (s : State) (tenant : Nat) (b : List Byte) : State :=
  let ex := objExpansions b
  ((objImages b).foldl (fun (acc : State × Bool) i =>
    if acc.2 then acc
    else
      let e := ex.find? (fun x => x.1 == i.index)
      let body := match e with
        | some x => x.2.landed
        | none => octets i.body 0 (64 * i.nbundle)
      (acc.1.mapImage tenant (imageIb (objTag b) i.index) body, e.any (fun x => x.2.bad))) (s, false)).1

/-- The first address space of a tenant: its number and its roots. -/
def State.firstSpace (s : State) (tenant : Nat) : Nat × W64 × W64 :=
  match (s.partition tenant).roots with
  | r :: _ => r
  | [] => (0, 0#64, 0#64)

/-- The end of an upload (R399, R408): the loader has read the object in the tenant's first address space, checks it, and expands and maps its images. An
address that is not 4 KiB aligned in space 0 refuses it (R396). One whose bound would be passed ends with status 0x38: its image is refused, and what
landed of it stays in place (R301). DESIGN CHOICE, unsafe: log entry 47. -/
def State.loadObject (s : State) (tenant : Nat) (addr : W64) (len : Nat) : State :=
  let p := s.partition tenant
  let r := s.firstSpace tenant
  let b := (cut len ((s.readLines tenant r.1 r.2.1 ((len + 63) / 64) addr).getD [])).1
  let misplaced := addrSpace addr != 0 || addr.toNat % 4096 != 0
  let ex := objExpansions b
  let o : BuzilObject :=
    { addr := addr, tenant := tenant, bytes := b, status := if misplaced then 0x39 else objStatus b p.needSig p.trusted,
      badSections := ex.filterMap (fun e => match e.2 with
        | .over _ => some e.1
        | _ => none),
      expanded := ex.map (fun e => (e.1, e.2.landed)) }
  let s1 := { s with disp := { s.disp with objects := o :: s.disp.objects.filter (fun x => !(x.addr == addr && x.tenant == tenant)) } }
  if misplaced || objFaulty b p.needSig p.trusted then s1 else s1.mapObject tenant b

/-- OBJECT_UPLOAD (R63, R399): the loader asks for the object's bytes; once it has them the upload ends -/
def execObjectUpload (tenant : Nat) (addr : W64) (len : Nat) (s : State) : Host.Outcome State Fault Refusal :=
  let r := s.firstSpace tenant
  let g := s.askPorts 16 (s.lineKeys tenant r.1 r.2.1 ((len + 63) / 64) addr .read) .launchSelection
  .next { g.2 with disp := { g.2.disp with uploads := g.2.disp.uploads ++ [{ tenant := tenant, addr := addr, len := len, group := g.1 }] } }

/-- Uploads whose bytes have come end, in the order in which they were asked for. -/
def State.finishUploads (s : State) : State :=
  let due := s.disp.uploads.filter (fun u => !s.groupWaits u.group)
  due.foldl (fun acc u => acc.loadObject u.tenant u.addr u.len)
    { s with disp := { s.disp with uploads := s.disp.uploads.filter (fun u => s.groupWaits u.group) } }

/-! ### Bindings (R169, R170, R400) -/

/-- The difference of two naturals, whichever is greater. -/
def absDiff (a b : Nat) : Nat := (a - b) + (b - a)

/-- Rope distance: ropes of a die stand in a 4 × 4 grid (R169). -/
def ropeDistance (a b : Nat) : Nat := absDiff (a % 16 / 4) (b % 16 / 4) + absDiff (a % 4) (b % 4)

/-- Die distance: dies stand in two rows of sixteen (R169). -/
def dieDistance (a b : Nat) : Nat := absDiff (a % 16) (b % 16) + (if a / 16 = b / 16 then 0 else 2)

/-- Whether two physical ropes stand in a recorded relation: bit 7 set, different dies at a die distance; else one die at a rope distance (R400). -/
def relationHolds (rel a b : Nat) : Bool :=
  if 128 ≤ rel then dieOfRope a != dieOfRope b && dieDistance (dieOfRope a) (dieOfRope b) == rel % 128
  else dieOfRope a == dieOfRope b && ropeDistance a b == rel

/-- Whether a physical rope may follow those already chosen (R170). -/
def GraphRec.fits (g : GraphRec) (done : List Nat) (r : Nat) : Bool :=
  !done.contains r && (upTo done.length).all (fun i => relationHolds (g.relation i done.length) (nth 0 done i) r)

/-- The first binding in ascending lexicographic order that extends the ropes chosen so far: `ok i r` says whether logical rope i may run on r (R182). -/
def GraphRec.bindFrom (g : GraphRec) (ok : Nat → Nat → Bool) : Nat → List Nat → Option (List Nat)
  | 0, done => some done
  | n + 1, done => (upTo 512).findSome? (fun r => if g.fits done r && ok done.length r then g.bindFrom ok n (done ++ [r]) else none)

/-- Positions that a logical rope uses. -/
def GraphRec.positions (g : GraphRec) (i : Nat) : List Nat := (upTo 4).filter (fun k => bitAt (nth 0#8 g.pos i) k)

/-- (logical core, physical core) of a binding: logical core c is position c mod 4 of logical rope c div 4 (R169). -/
def GraphRec.cores (g : GraphRec) (ropes : List Nat) : List (Nat × Nat) :=
  (upTo ropes.length).flatMap (fun i => (g.positions i).map (fun k => (4 * i + k, 4 * nth 0 ropes i + k)))

end Sys2Proof.Machine
end

