-- ==== Sys2Proof/Machine/Scalar.lean ====
section
/-!
DEFINITION. The scalar integer and floating forms (R188–R198): each meaning is one definition over the shared scalar operation.
-/

namespace Sys2Proof.Machine

/-- An integer form of a and b: no flag (R191). -/
def State.intOp (s : State) (o : ScalarOp) (nominal : Nat) (f : W64 → W64 → W64) : State :=
  s.toS o true false true false nominal (fun _ => (f (s.rdS o.a) (s.opB o), 0#6))

/-- An integer form of a alone. -/
def State.intOp1 (s : State) (o : ScalarOp) (f : W64 → W64) : State :=
  s.toS o false false true false 1 (fun _ => (f (s.rdS o.a), 0#6))

/-- A division form: the divider is pipelined (R190, R192). -/
def State.divOp (s : State) (o : ScalarOp) (f : W64 → W64 → W64) : State :=
  s.toS o true false false false 20 (fun _ => (f (s.rdS o.a) (s.opB o), 0#6))

/-- Bits [127:64] of the signed and of the natural product (R191). -/
def mulHigh (a b : W64) : W64 := BitVec.ofInt 64 (a.toInt * b.toInt / (2 ^ 64 : Nat))
def mulHighN (a b : W64) : W64 := BitVec.ofNat 64 (a.toNat * b.toNat / 2 ^ 64)

/-- Quotients and remainders, truncating toward zero and never trapping (R192). -/
def divS (a b : W64) : W64 := if b = 0#64 then BitVec.allOnes 64 else BitVec.ofInt 64 (a.toInt.tdiv b.toInt)
def divN (a b : W64) : W64 := if b = 0#64 then BitVec.allOnes 64 else BitVec.ofNat 64 (a.toNat / b.toNat)
def remS (a b : W64) : W64 := if b = 0#64 then a else BitVec.ofInt 64 (a.toInt.tmod b.toInt)
def remN (a b : W64) : W64 := if b = 0#64 then a else BitVec.ofNat 64 (a.toNat % b.toNat)

/-- The shift amount: bits [5:0] of b. -/
def shamt (b : W64) : Nat := bitsNat b 5 0

/-- Leading zero bits among the low `n` bits, and one bits (R191). -/
def leadingZeros (x : W64) : Nat → Nat
  | 0 => 0
  | n + 1 => if bitAt x n then 0 else 1 + leadingZeros x n
def oneBits (x : W64) : Nat → Nat
  | 0 => 0
  | n + 1 => (if bitAt x n then 1 else 0) + oneBits x n

/-- The width of `sext` and `zext` by FUNCT. -/
def extWidth (funct : BitVec 3) : Nat := if funct = 0#3 then 8 else if funct = 1#3 then 16 else 32

/-- Sign extension of the low `n` bits to 64. -/
def sextN (n : Nat) (x : Nat) : W64 := BitVec.ofInt 64 (signedOf n (x % 2 ^ n))

/-- The field of `bfx`: position bits [5:0], width bits [11:6] + 1 of b (R193). -/
def bfxField (a b : W64) (signed : Bool) : W64 :=
  let wid := bitsNat b 11 6 + 1
  let f := field (a.toNat / 2 ^ shamt b) 0 wid
  if signed then sextN wid f else BitVec.ofNat 64 f

/-- The result of `bfi`: low bits of a in the field, the other bits of d (R193). -/
def bfiField (a b d : W64) : W64 :=
  let mask : W64 := BitVec.ofNat 64 ((2 ^ (bitsNat b 11 6 + 1) - 1) * 2 ^ shamt b)
  (d &&& ~~~mask) ||| ((a <<< shamt b) &&& mask)

/-- The condition of `cmp` and `bc`: 0 eq, 1 ne, 2 lt, 3 le, 4 gt, 5 ge (R120). -/
def condInt (cond : Nat) (a b : Int) : Bool :=
  match cond with
  | 0 => decide (a = b)
  | 1 => decide (a ≠ b)
  | 2 => decide (a < b)
  | 3 => decide (a ≤ b)
  | 4 => decide (b < a)
  | _ => decide (b ≤ a)

/-- `cmp`: D[4] selects the natural comparisons (R120, R194). -/
def cmpHolds (o : ScalarOp) (a b : W64) : Bool :=
  if bitAt o.d 4 then condInt o.funct.toNat a.toNat b.toNat else condInt o.funct.toNat a.toInt b.toInt

/-- ADD (R191) -/
def execAdd (o : ScalarOp) (s : State) : Host.Outcome State Fault Refusal := .next (s.intOp o 1 (fun a b => a + b))
/-- SUB (R191) -/
def execSub (o : ScalarOp) (s : State) : Host.Outcome State Fault Refusal := .next (s.intOp o 1 (fun a b => a - b))
/-- MUL (R191) -/
def execMul (o : ScalarOp) (s : State) : Host.Outcome State Fault Refusal := .next (s.intOp o 3 (fun a b => a * b))
/-- MULH (R191) -/
def execMulh (o : ScalarOp) (s : State) : Host.Outcome State Fault Refusal := .next (s.intOp o 3 mulHigh)
/-- MULHN (R191) -/
def execMulhn (o : ScalarOp) (s : State) : Host.Outcome State Fault Refusal := .next (s.intOp o 3 mulHighN)
/-- DIV (R192) -/
def execDiv (o : ScalarOp) (s : State) : Host.Outcome State Fault Refusal := .next (s.divOp o divS)
/-- DIVN (R192) -/
def execDivn (o : ScalarOp) (s : State) : Host.Outcome State Fault Refusal := .next (s.divOp o divN)
/-- REM (R192) -/
def execRem (o : ScalarOp) (s : State) : Host.Outcome State Fault Refusal := .next (s.divOp o remS)
/-- REMN (R192) -/
def execRemn (o : ScalarOp) (s : State) : Host.Outcome State Fault Refusal := .next (s.divOp o remN)
/-- AND (R191) -/
def execAnd (o : ScalarOp) (s : State) : Host.Outcome State Fault Refusal := .next (s.intOp o 1 (fun a b => a &&& b))
/-- OR (R191) -/
def execOr (o : ScalarOp) (s : State) : Host.Outcome State Fault Refusal := .next (s.intOp o 1 (fun a b => a ||| b))
/-- XOR (R191) -/
def execXor (o : ScalarOp) (s : State) : Host.Outcome State Fault Refusal := .next (s.intOp o 1 (fun a b => a ^^^ b))
/-- ANDN (R191) -/
def execAndn (o : ScalarOp) (s : State) : Host.Outcome State Fault Refusal := .next (s.intOp o 1 (fun a b => a &&& ~~~b))
/-- SHL (R191) -/
def execShl (o : ScalarOp) (s : State) : Host.Outcome State Fault Refusal := .next (s.intOp o 1 (fun a b => a <<< shamt b))
/-- SHR (R191) -/
def execShr (o : ScalarOp) (s : State) : Host.Outcome State Fault Refusal := .next (s.intOp o 1 (fun a b => a >>> shamt b))
/-- SRA (R191) -/
def execSra (o : ScalarOp) (s : State) : Host.Outcome State Fault Refusal := .next (s.intOp o 1 (fun a b => a.sshiftRight (shamt b)))
/-- ROT (R191) -/
def execRot (o : ScalarOp) (s : State) : Host.Outcome State Fault Refusal := .next (s.intOp o 1 (fun a b => a.rotateRight (shamt b)))
/-- CLZ (R191) -/
def execClz (o : ScalarOp) (s : State) : Host.Outcome State Fault Refusal := .next (s.intOp1 o (fun a => BitVec.ofNat 64 (leadingZeros a 64)))
/-- POPC (R191) -/
def execPopc (o : ScalarOp) (s : State) : Host.Outcome State Fault Refusal := .next (s.intOp1 o (fun a => BitVec.ofNat 64 (oneBits a 64)))
/-- MIN (R191) -/
def execMin (o : ScalarOp) (s : State) : Host.Outcome State Fault Refusal := .next (s.intOp o 1 (fun a b => if a.toInt ≤ b.toInt then a else b))
/-- MAX (R191) -/
def execMax (o : ScalarOp) (s : State) : Host.Outcome State Fault Refusal := .next (s.intOp o 1 (fun a b => if a.toInt ≤ b.toInt then b else a))
/-- MINN (R191) -/
def execMinn (o : ScalarOp) (s : State) : Host.Outcome State Fault Refusal := .next (s.intOp o 1 (fun a b => if a.toNat ≤ b.toNat then a else b))
/-- MAXN (R191) -/
def execMaxn (o : ScalarOp) (s : State) : Host.Outcome State Fault Refusal := .next (s.intOp o 1 (fun a b => if a.toNat ≤ b.toNat then b else a))
/-- SEXT (R191) -/
def execSext (o : ScalarOp) (s : State) : Host.Outcome State Fault Refusal := .next (s.intOp1 o (fun a => sextN (extWidth o.funct) a.toNat))
/-- ZEXT (R191) -/
def execZext (o : ScalarOp) (s : State) : Host.Outcome State Fault Refusal := .next (s.intOp1 o (fun a => BitVec.ofNat 64 (a.toNat % 2 ^ extWidth o.funct)))
/-- BFX (R193) -/
def execBfx (o : ScalarOp) (s : State) : Host.Outcome State Fault Refusal := .next (s.intOp o 1 (fun a b => bfxField a b (o.funct == 1#3)))
/-- BFI (R193): sD is a third source -/
def execBfi (o : ScalarOp) (s : State) : Host.Outcome State Fault Refusal :=
  .next (s.toS o true true true false 1 (fun _ => (bfiField (s.rdS o.a) (s.opB o) (s.rdS o.d), 0#6)))
/-- LEA (R191) -/
def execLea (o : ScalarOp) (s : State) : Host.Outcome State Fault Refusal := .next (s.intOp o 1 (fun a b => a + (b <<< o.funct.toNat)))
/-- MOV (R191) -/
def execMov (o : ScalarOp) (s : State) : Host.Outcome State Fault Refusal := .next (s.intOp1 o (fun a => a))
/-- MOVL (R191): only the literal is read -/
def execMovl (o : ScalarOp) (s : State) : Host.Outcome State Fault Refusal :=
  .next (s.scalarSlot o false true false true false [s.sIdx o.d] (fun t => t.landRegs (s.aluDelay o 1) [.s (s.sIdx o.d) (s.opB o)]))
/-- SEL (R191): FUNCT names a predicate that it reads -/
def execSel (o : ScalarOp) (s : State) : Host.Outcome State Fault Refusal :=
  .next ((s.readPred (s.bnd.lat.regs.pGet o.guard.toNat) o.funct.toNat).intOp o 1
    (fun a b => if s.bnd.lat.regs.pGet o.funct.toNat then a else b))
/-- CMP (R194) -/
def execCmp (o : ScalarOp) (s : State) : Host.Outcome State Fault Refusal :=
  .next (s.toP o 1 (fun _ => (cmpHolds o (s.rdS o.a) (s.opB o), 0#6)))

/-! ### Scalar floating point (R195–R197) -/

/-- Bits [31:0] of a and of b. -/
def State.fA (s : State) (o : ScalarOp) : Nat := (s.rdS o.a).toNat % 2 ^ 32
def State.fB (s : State) (o : ScalarOp) : Nat := (s.opB o).toNat % 2 ^ 32

/-- The rounding mode of the issuing slot: element index 0 (R195, R209). -/
def State.scalarMode (s : State) (t : State) (o : ScalarOp) : RMode :=
  rmodeOf o.funct.toNat ((s.core s.bnd.core).csrGet 0x003) t.sq 0

/-- An FP32 form that rounds: the result is zero-extended (R195). -/
def State.fpOp (s : State) (o : ScalarOp) (b d : Bool) (nominal : Nat) (f : RMode → W64 × FpFlags) : State :=
  s.toS o b d true (o.funct == 4#3) nominal (fun t => f (s.scalarMode t o))

/-- A result zero-extended to 64 bits. -/
def zext64 (r : FpRes) : W64 × FpFlags := (BitVec.ofNat 64 r.bits, r.fl)

/-- FADD (R196) -/
def execFadd (o : ScalarOp) (s : State) : Host.Outcome State Fault Refusal :=
  .next (s.fpOp o true false 4 (fun m => zext64 (fpAdd fp32 m s.bnd.lat.il (s.fA o) (s.fB o))))
/-- FSUB (R196) -/
def execFsub (o : ScalarOp) (s : State) : Host.Outcome State Fault Refusal :=
  .next (s.fpOp o true false 4 (fun m => zext64 (fpSub fp32 m s.bnd.lat.il (s.fA o) (s.fB o))))
/-- FMUL (R196) -/
def execFmul (o : ScalarOp) (s : State) : Host.Outcome State Fault Refusal :=
  .next (s.fpOp o true false 4 (fun m => zext64 (fpMul fp32 m s.bnd.lat.il (s.fA o) (s.fB o))))
/-- FFMA (R196) -/
def execFfma (o : ScalarOp) (s : State) : Host.Outcome State Fault Refusal :=
  .next (s.fpOp o true true 4 (fun m => zext64 (fpFma fp32 m s.bnd.lat.il false false (s.fA o) (s.fB o) ((s.rdS o.d).toNat % 2 ^ 32))))
/-- FMIN (R196) -/
def execFmin (o : ScalarOp) (s : State) : Host.Outcome State Fault Refusal :=
  .next (s.fpOp o true false 4 (fun _ => zext64 (fpMinMax fp32 s.bnd.lat.il false (s.fA o) (s.fB o))))
/-- FMAX (R196) -/
def execFmax (o : ScalarOp) (s : State) : Host.Outcome State Fault Refusal :=
  .next (s.fpOp o true false 4 (fun _ => zext64 (fpMinMax fp32 s.bnd.lat.il true (s.fA o) (s.fB o))))
/-- FCMP (R196) -/
def execFcmp (o : ScalarOp) (s : State) : Host.Outcome State Fault Refusal :=
  .next (s.toP o 4 (fun _ => fpCond fp32 s.bnd.lat.il o.funct.toNat (s.fA o) (s.fB o)))

/-- The conversions of `fcvt` by code (R197). -/
def fcvtResult (code : Nat) (mode : RMode) (il : Bool) (a : W64) : W64 × FpFlags :=
  let lo := a.toNat % 2 ^ 32
  let i (l h : Int) : W64 × FpFlags := let r := fpToInt fp32 mode il l h lo; (BitVec.ofInt 64 r.1, r.2)
  match code with
  | 0 => i (-(2 ^ 31)) (2 ^ 31 - 1)
  | 1 => i (-(2 ^ 63)) (2 ^ 63 - 1)
  | 2 => i 0 (2 ^ 64 - 1)
  | 3 => zext64 (fpOfInt fp32 mode il (signedOf 32 lo))
  | 4 => zext64 (fpOfInt fp32 mode il a.toInt)
  | 5 => zext64 (fpOfInt fp32 mode il a.toNat)
  | 6 => zext64 (fpConvert fp32 bf16 mode il lo)
  | 7 => zext64 (fpConvert bf16 fp32 .rne il (lo % 2 ^ 16))
  | 8 => zext64 (fpConvert fp32 fp16 mode il lo)
  | _ => zext64 (fpConvert fp16 fp32 .rne il (lo % 2 ^ 16))

/-- FCVT (R197) -/
def execFcvt (o : ScalarOp) (s : State) : Host.Outcome State Fault Refusal :=
  .next (s.fpOp o false false 3 (fun m => fcvtResult o.b.toNat m s.bnd.lat.il (s.rdS o.a)))

/-- Whether a location is the index register of a loop level, counted from the outermost (R39, R41). -/
def indexHit (core depth : Nat) : StorageLoc → Bool
  | .loopIndex c k => c.val == core && k.val == depth
  | _ => false

/-- LIX (R198): a level at or above the depth of the stack is an illegal operand -/
def execLix (o : ScalarOp) (s : State) : Host.Outcome State Fault Refusal :=
  .next (s.scalarSlot o false false false true false [s.sIdx o.d] (fun t =>
    match s.bnd.lat.loops[o.funct.toNat]? with
    | none => t.illegalOperand
    | some l => (t.consume t.bnd.core (indexHit t.bnd.core (s.bnd.lat.loops.length - 1 - o.funct.toNat))).landRegs (s.aluDelay o 1) [.s (s.sIdx o.d) (l.index.setWidth 64)]))

end Sys2Proof.Machine
end

