-- ==== Sys2Proof/Machine/Control.lean ====
section
/-!
DEFINITION. The control forms of SA (R199–R204): transfers with two delay bundles, and the loop stack.
-/

namespace Sys2Proof.Machine

/-- A loop bound as an address. -/
def addrOf (b : BitVec 42) : BitVec 48 := b ++ 0#6
/-- Bits [47:6] of an address. -/
def lineOf (a : BitVec 48) : BitVec 42 := a.extractLsb' 6 42

/-- Whether the bundle lies at END − 64 or END − 128 of the innermost level (R201). -/
def crossesBoundary (loops : List LoopLevel) (pc : BitVec 48) : Bool :=
  match loops with
  | [] => false
  | l :: _ => addrOf l.stop == pc + 64#48 || addrOf l.stop == pc + 128#48

/-- A control form: no control form stands in a delay bundle, and no transfer where its delay bundles would cross the
iteration boundary (R201); a transfer has two delay bundles, taken or not (R200); then the unit, the guard and the registers as for any scalar operation. DEDUCED, unsafe: log entry 17. -/
def State.ctlSlot (s : State) (o : ScalarOp) (transfer readA : Bool) (body : State → State) : State :=
  let q := (s.core s.bnd.core).seq
  if q.inDelay || (transfer && crossesBoundary q.loops s.bnd.lat.pc) then s.illegalInstruction
  else ({ s with bnd := { s.bnd with ctl := { s.bnd.ctl with form := s.bnd.ctl.form || transfer } } } : State).scalarSlot o readA false false true
    false [] body

/-- The transfer is taken: the bundle after the second delay bundle is `target` (R200). -/
def State.take (s : State) (target : BitVec 48) : State :=
  { s with bnd := { s.bnd with ctl := { s.bnd.ctl with taken := some target } } }

/-- The sequencer of the issuing core changed. -/
def State.modSeq (s : State) (f : Sequencer → Sequencer) : State :=
  s.modCore s.bnd.core (fun c => { c with seq := f c.seq })

/-- A relative target: wrap48(PC + 64 × offset) (R199). -/
def State.relTarget (s : State) (o : ScalarOp) : BitVec 48 :=
  s.bnd.lat.pc + ((s.lit (bitsNat o.b 3 0)).signExtend 48) * 64#48

/-- A register target, or none where bits [63:48] or [5:0] are set (R199). -/
def State.regTarget (s : State) (o : ScalarOp) : Option (BitVec 48) :=
  let a := s.rdS o.a
  if bitsNat a 63 48 ≠ 0 ∨ bitsNat a 5 0 ≠ 0 then none else some (a.setWidth 48)

/-- Push the return address and take the transfer; a ninth entry is a call-depth trap (R162, R200). -/
def State.callTo (s : State) (target : BitVec 48) : State :=
  if 8 ≤ (s.core s.bnd.core).seq.rets.length then s.slotFault 22 0 true []
  else (s.modSeq (fun q => { q with rets := (s.bnd.lat.pc + 192#48) :: q.rets })).take target

/-- BR (R200) -/
def execBr (o : ScalarOp) (s : State) : Host.Outcome State Fault Refusal :=
  .next (s.ctlSlot o true false (fun t => t.take (s.relTarget o)))

/-- BC (R200): against zero, signed; with G it is not taken where a `cmpt` of the bundle fails -/
def execBc (o : ScalarOp) (s : State) : Host.Outcome State Fault Refusal :=
  .next (s.ctlSlot o true true (fun t =>
    if condInt o.funct.toNat (s.rdS o.a).toInt 0 && !(bitAt o.d 0 && s.bnd.lat.cmptFail) then t.take (s.relTarget o) else t))

/-- JMP (R200) -/
def execJmp (o : ScalarOp) (s : State) : Host.Outcome State Fault Refusal :=
  .next (s.ctlSlot o true true (fun t =>
    match s.regTarget o with
    | none => t.illegalOperand
    | some a => t.take a))

/-- CALL, relative (R200) -/
def execCallRelative (o : ScalarOp) (s : State) : Host.Outcome State Fault Refusal :=
  .next (s.ctlSlot o true false (fun t => t.callTo (s.relTarget o)))

/-- CALL, register (R200) -/
def execCallRegister (o : ScalarOp) (s : State) : Host.Outcome State Fault Refusal :=
  .next (s.ctlSlot o true true (fun t =>
    match s.regTarget o with
    | none => t.illegalOperand
    | some a => t.callTo a))

/-- RET (R200): an empty return stack is a call-depth trap (R162) -/
def execRet (o : ScalarOp) (s : State) : Host.Outcome State Fault Refusal :=
  .next (s.ctlSlot o true false (fun t =>
    match (t.core t.bnd.core).seq.rets with
    | [] => t.slotFault 22 0 true []
    | a :: rest => (t.modSeq (fun q => { q with rets := rest })).take a))

/-- The next bundle with no delay (R161, R203). -/
def State.jumpTo (s : State) (a : BitVec 48) : State :=
  { s with bnd := { s.bnd with ctl := { s.bnd.ctl with jump := some a } } }

/-- The stage gates at the push of a `.rot` level (R163). -/
def pushGates (p : BitVec 8) : BitVec 8 := (p &&& 0x0F#8) ||| 0x10#8

/-- Push a loop level (R161, R163, R168). -/
def State.pushLoop (s : State) (l : LoopLevel) : State :=
  s.modCore s.bnd.core (fun c =>
    { c with
      seq := { c.seq with loops := l :: c.seq.loops, ilDrain := c.seq.ilDrain || l.il },
      regs := if l.rot then { c.regs with p := pushGates c.regs.p } else c.regs })

/-- LOOP (R203): the guard, then the operand checks, then the count, then the depth -/
def execLoop (o : ScalarOp) (s : State) : Host.Outcome State Fault Refusal :=
  .next (s.ctlSlot o false true (fun t =>
    let off := s.lit (bitsNat o.b 3 0)
    let stop := s.relTarget o
    let count := (s.rdS o.a).setWidth 32
    let loops := (t.core t.bnd.core).seq.loops
    let outside : Bool := match loops with
      | [] => false
      | l :: _ => decide ((addrOf l.stop).toNat ≤ stop.toNat)
    if decide (off.toInt < 1) || outside then t.illegalOperand
    else if count = 0#32 then t.jumpTo (stop + 64#48)
    else if 6 ≤ loops.length then t.slotFault 22 0 true []
    else t.pushLoop
      { start := lineOf (s.bnd.lat.pc + 64#48), stop := lineOf stop, count := count, index := 0#32, rot := bitAt o.funct 0,
        pre := bitAt o.funct 1, il := bitAt o.funct 2 }))

/-- LOOPX (R204): popping an interlocked level makes the next bundle wait (R157) -/
def execLoopx (o : ScalarOp) (s : State) : Host.Outcome State Fault Refusal :=
  .next (s.ctlSlot o false false (fun t =>
    let n := o.funct.toNat + 1
    let loops := (t.core t.bnd.core).seq.loops
    if loops.length < n then t.illegalOperand
    else
      let r := cut n loops
      t.modSeq (fun q => { q with loops := r.2, ilLeave := q.ilLeave || r.1.any (·.il) })))

end Sys2Proof.Machine
end

