-- ==== Sys2Proof/Machine/CopyEngine.lean ====
section
/-!
DEFINITION. The copy engines (R286–R298): transfers and their acceptance, the time-sorted buffer, read and write beats,
handles, write-backs and refills, engine faults, and the collective commands of the CE slot (R299).
-/

namespace Sys2Proof.Machine

/-! ### Transfers -/

/-- Lines of a row, and of the whole transfer (R287). -/
def XferDesc.rowLines (d : XferDesc) : Nat := d.len / 64
def XferDesc.lines (d : XferDesc) : Nat := d.rows * d.rowLines

/-- Address of line k at a side with a stride (R287). -/
def lineAt (base : W64) (stride : Int) (rowLines k : Nat) : W64 :=
  base + BitVec.ofInt 64 (stride * ((k / rowLines : Nat) : Int) + 64 * ((k % rowLines : Nat) : Int))
def XferDesc.srcLine (d : XferDesc) (k : Nat) : W64 := lineAt d.src d.sstr d.rowLines k
def XferDesc.dstLine (d : XferDesc) (k : Nat) : W64 := lineAt d.dst d.dstr d.rowLines k

/-- Lines the transfer performs: all, or those before the line that faulted (R294). -/
def Xfer.stop (x : Xfer) : Nat :=
  match x.limit with
  | some n => n
  | none => x.desc.lines

/-- Whether a transfer comes before another in an engine's order (R291). -/
def Xfer.before (a b : Xfer) : Bool :=
  decide (a.s0 < b.s0) || (a.s0 == b.s0 && (decide (a.rank < b.rank) || (a.rank == b.rank && decide (a.order < b.order))))

/-- The waiting transfer an engine takes next (R291). -/
def headXfer : List Xfer → Option Xfer
  | [] => none
  | x :: t => match headXfer t with
    | none => some x
    | some y => some (if y.before x then y else x)

/-- An engine of a rope changed. -/
def State.modEngine (s : State) (rope eng : Nat) (f : Engine → Engine) : State :=
  s.modRope rope (fun r => r.setEngine eng (f (r.engine eng)))

/-- A transfer of a rope, and its engine. -/
def State.xfer (s : State) (rope id : Nat) : Option (Nat × Xfer) :=
  let find (e : Nat) : Option (Nat × Xfer) :=
    let g := (s.rope rope).engine e
    ((g.active ++ g.tsb).find? (fun x => x.id == id)).map (fun x => (e, x))
  (find 0).or (find 1)

/-- A transfer changed where it stands. -/
def State.modXfer (s : State) (rope eng id : Nat) (f : Xfer → Xfer) : State :=
  s.modEngine rope eng (fun e =>
    { e with tsb := listMod (fun x => x.id == id) f e.tsb, active := listMod (fun x => x.id == id) f e.active })

/-- The read and write stations of an engine (R49). -/
def readStation (eng : Nat) : Nat := 8 + 2 * eng
def writeStation (eng : Nat) : Nat := 9 + 2 * eng

/-- Wake an engine at a cycle: it begins its next transfer there if it may. -/
def State.wakeEngine (s : State) (rope eng at_ : Nat) : State :=
  match headXfer ((s.rope rope).engine eng).tsb with
  | none => s
  | some x =>
    let c := max (max s.cycle at_) x.s0
    s.schedule c 0 (if x.rank = 1 then .writeBackBegin (ropeId rope) (BitVec.ofNat 1 eng) else .transferBegin (ropeId rope) (BitVec.ofNat 1 eng))

/-! ### Faults (R38, R294) -/

/-- CEFINFO of a first fault (R294). -/
def cefinfoOf (code core eng op : Nat) (wb : Bool) : W64 :=
  BitVec.ofNat 64 (2 ^ 63 + code * 2 ^ 8 + posOf core * 2 ^ 6 + eng * 2 ^ 5 + (if wb then 16 else 0) + op)

/-- The records of the data-translation trap that reports the engine fault record (R38). -/
def Rope.cefRecords (r : Rope) : List (Nat × W64) :=
  [(0x012, BitVec.ofNat 64 (bitsNat r.cefinfo 11 8 + if bitAt r.cefinfo 62 then 2 ^ 63 else 0)), (0x013, r.cefaddr), (0x014, 0#64)]

/-- The trap for an engine fault has been taken by a core. -/
def Rope.cefTaken (r : Rope) (core : Nat) : Rope := { r with cefOwed := r.cefOwed.filter (· != posOf core) }

/-- A fault written into the engine fault record: the first is kept, a later one sets MORE (R294). -/
def Rope.recordCef (r : Rope) (info a : W64) : Rope :=
  if bitAt r.cefinfo 63 then { r with cefinfo := setBit r.cefinfo 62 true } else { r with cefinfo := info, cefaddr := a }

/-- Engine faults of this cycle, in order. -/
def Rope.cefNow (r : Rope) (now : Nat) : List (W64 × W64) := if r.cefHw.1 = now then r.cefHw.2 else []

/-- A fault of an engine in this cycle, which the core at a position owes a trap for (R38, R294). -/
def Rope.cefFault (r : Rope) (now pos : Nat) (info a : W64) : Rope :=
  { r.recordCef info a with
      cefHw := (now, r.cefNow now ++ [(info, a)]),
      cefOwed := if r.cefOwed.contains pos then r.cefOwed else r.cefOwed ++ [pos] }

/-- The record cleared by a write of this cycle: faults of the cycle come after it (R294, R350). -/
def Rope.clearCef (r : Rope) (now : Nat) : Rope :=
  (r.cefNow now).foldl (fun acc e => acc.recordCef e.1 e.2) { r with cefinfo := 0#64, cefaddr := 0#64 }

/-- A fault of an engine goes into the rope's record, and the core named raises a trap at its next anchor, or at once while it
waits to retire (R38, R294). -/
def State.engineFault (s : State) (rope eng code : Nat) (x : Xfer) (a : W64) : State :=
  let s1 := s.modRope rope (fun r => r.cefFault s.cycle (posOf x.core) (cefinfoOf code x.core eng x.desc.op (x.rank == 1)) a)
  let c := s1.core x.core
  if c.seq.run = .retiring ∧ c.frame.isNone then
    (s1.modRope rope (fun r => r.cefTaken x.core)).retireTrap x.core (s1.rope rope).cefRecords
  else s1

/-! ### Completion and stopping (R66, R290, R294, R297) -/

/-- The handle of a completed transfer: a write-back frees it, any other fills it and becomes its refill record (R66, R295). -/
def Handle.complete (h : Handle) (x : Xfer) : Handle :=
  if x.rank = 1 then (if h.st = .draining then { h with st := .free } else h)
  else if h.st = .filling then { h with st := .full, tag := x.desc.tag, chk := 0#4, refill := some x.desc, filler := 0 } else h

/-- A line has landed; with the last one the handle completes. -/
def State.lineLanded (s : State) (rope eng id : Nat) : State :=
  match s.xfer rope id with
  | none => s
  | some (_, x) =>
    let n := x.written + 1
    let s1 := s.modXfer rope eng id (fun y => { y with written := n })
    if n = x.desc.lines ∧ !x.cancelled ∧ x.limit.isNone then
      match x.handle with
      | some h => s1.modRope rope (fun r => r.setHandle h ((r.handle h).complete x))
      | none => s1
    else s1

/-- Whether a line has landed though it still stands in the transfer: a B-store line in its cycle (R290). -/
def Xfer.done (x : Xfer) (l : CeLine) : Bool := l.phase == .booked && addrSpace x.desc.dst == 2

/-- A fault is reported once every earlier line has landed: by the handle, or in the rope's record; that of a write-back by both
(R38, R294, R297). -/
def State.reportXfer (s : State) (rope eng id : Nat) : State :=
  match s.xfer rope id with
  | none => s
  | some (_, x) =>
    match x.fault with
    | none => s
    | some e =>
      if x.cancelled || decide (x.nextLine < x.stop) || !x.pending.all x.done then s
      else
        let s1 := s.modXfer rope eng id (fun y => { y with fault := none })
        let s2 := match x.handle with
          | some h => s1.modRope rope (fun r => r.setHandle h { r.handle h with st := .faulted, fcode := e.1, faddr := e.2 })
          | none => s1
        if x.handle.isNone || x.rank == 1 then s2.engineFault rope eng e.1 x e.2 else s2

/-- A transfer that has nothing left to do leaves its engine. -/
def State.settleXfer (s : State) (rope eng id : Nat) : State :=
  let s1 := s.reportXfer rope eng id
  match s1.xfer rope id with
  | none => s1
  | some (_, x) =>
    if x.began && x.pending.isEmpty && (x.cancelled || decide (x.stop ≤ x.nextLine)) then
      s1.modEngine rope eng (fun e => { e with active := e.active.filter (fun y => y.id != id) })
    else s1

/-- A transfer stops at a line: it and the later ones perform no more, the earlier ones still land, and of two faults that of the
earlier line counts (R38, R294, R297). DEDUCED, unsafe: log entry 64. -/
def State.xferFault (s : State) (rope eng id line code : Nat) (a : W64) : State :=
  match s.xfer rope id with
  | none => s
  | some (_, x) =>
    if x.stop ≤ line then s
    else
      let reading := x.began && !x.cancelled && decide (x.nextLine < x.stop)
      let s1 := (s.modXfer rope eng id (fun y =>
        { y with limit := some line, fault := some (code, a), pending := y.pending.filter (fun l => decide (l.line < line)) })).modEngine rope eng
          (fun e => if e.readBusy && reading then { e with readBusy := false, free := s.cycle + 1 } else e)
      (s1.settleXfer rope eng id).wakeEngine rope eng (s.cycle + 1)

/-- A line leaves the transfer: landed, or dropped. -/
def State.dropLine (s : State) (rope eng id line : Nat) : State :=
  (s.modXfer rope eng id (fun y => { y with pending := y.pending.filter (fun l => l.line != line) })).settleXfer rope eng id

/-! ### Off-core lines (R88, R90, R292) -/

/-- Whether the address of an off-core line is in the given transfer's way: a line that it has still to write there, or a read of it that has not
been served (R88). -/
def Xfer.touches (x : Xfer) (a : W64) (l : CeLine) : Bool :=
  x.desc.dstLine l.line == a || (l.phase == .requested && l.data.isEmpty && l.addr == a)

/-- Whether an earlier beat of the engine to the same off-core line has still to perform: one of an earlier transfer, or of an earlier line
of this one (R88). Lines are compared by space and virtual address. DESIGN CHOICE, unsafe: log entry 81. -/
def Engine.lineBusy (e : Engine) (x : Xfer) (line : Nat) (a : W64) : Bool :=
  (e.active.takeWhile (fun y => y.id != x.id)).any (fun y => y.pending.any (y.touches a)) ||
    x.pending.any (fun l => decide (l.line < line) && x.touches a l)

/-- What an off-core line finds before it can leave. -/
inductive OffStep where
  | fault (code : Nat)
  | wait
  | walk
  | go (phys : Nat)
  deriving DecidableEq, Repr

/-- Whether an off-core line may leave: fences, same-line order, its address, and its page (R31, R34, R88, R90). -/
def State.offStep (s : State) (rope eng : Nat) (x : Xfer) (line : Nat) (a : W64) (kind : OffKind) : OffStep :=
  let code := addrCode s.sec.members (if kind = .read then [0, 1, 3, 4, 5] else [0, 1, 2, 3, 4, 5]) a
  let page := addrOffset a / 4096
  if code ≠ 0 then .fault code
  else if s.fenced x.core x.farSeq || ((s.rope rope).engine eng).lineBusy x line a then .wait
  else if addrSpace a = 3 ∨ addrSpace a = 5 then .go 0
  else
    match x.bad.find? (fun b => b.1 == page) with
    | some b => .fault b.2
    | none =>
      match s.lookup rope x.desc.root a kind with
      | .fault c => .fault c
      | .found phys => .go phys
      | .miss => if x.walking.contains page then .wait else .walk

/-- Start the walk of a page that a transfer needs; with 16 misses of the rope outstanding it is tried again (R33). -/
def State.walkPage (s : State) (rope eng : Nat) (x : Xfer) (a : W64) : State :=
  match s.beginWalk (.xfer rope eng x.id) rope false x.desc.root (addrOffset a) with
  | some s1 => s1.modXfer rope eng x.id (fun y => { y with walking := y.walking ++ [addrOffset a / 4096] })
  | none => s

/-- Whether a line of a transfer stands at an off-core page that is missing (R34). -/
def State.lineMissing (s : State) (rope : Nat) (x : Xfer) (l : CeLine) : Bool :=
  addrSpace x.desc.dst == 0 && l.phase == .ready && decide (l.w ≤ s.cycle) && s.lookup rope x.desc.root (x.desc.dstLine l.line) .write == .miss

/-- Whether a transfer has a line at a missing page: the engine's later beats wait behind it (R34). -/
def State.missing (s : State) (rope : Nat) (x : Xfer) : Bool := !x.cancelled && x.pending.any (s.lineMissing rope x)

/-- Whether an earlier transfer of the engine stands at a missing page (R34). -/
def State.behindMiss (s : State) (rope eng : Nat) (x : Xfer) : Bool :=
  (((s.rope rope).engine eng).active.takeWhile (fun y => y.id != x.id)).any (s.missing rope)

/-- Whether a line for an off-core home waits behind an earlier beat that stands at a missing page (R34). -/
def State.behindLine (s : State) (rope eng : Nat) (x : Xfer) (line : Nat) : Bool :=
  s.behindMiss rope eng x || x.pending.any (fun l => decide (l.line < line) && s.lineMissing rope x l)

/-- A port request of another rope's station (R87). -/
def State.portReq (s : State) (rope station at_ : Nat) (write : Bool) (off : Nat) (data : List Byte) (owner : PortOwner) : State :=
  let n := s.fresh
  (n.2.modRope rope (fun r =>
    { r with ports := r.ports ++ [{ id := n.1, station := station, write := write, off := off, data := data, owner := owner, w := none }] })).schedule
    at_ 0 (.portBeat (ropeId rope) n.1)

/-- The rope that a space 3 address names (R14). DEDUCED, unsafe: log entry 37. -/
def farRope (rope : Nat) (a : W64) : Nat := dieOfRope rope * 16 + bitsNat a 26 23

/-- An off-core line leaves for its home: a memory port of the package, also where space 5 loops back (R16, R32, R87), a station of another rope, the
host or a peer package. It gets there after a free delay (R76). DESIGN CHOICE, safe: log entry 85. -/
def State.sendLine (s : State) (rope id line : Nat) (x : Xfer) (a : W64) (phys : Nat) (data : Option (List Byte)) : State :=
  let r := ropeId rope
  let agent := coreAgent x.core
  let what := if data.isSome then 2 else 1
  let done : Instr := if data.isSome then .ceOffcoreWritePerform r id line else .ceOffcoreReadReturn r id line
  match addrSpace a with
  | 0 => s.request x.core rope id line what phys
  | 3 =>
    let d := s.freshDelay agent
    d.2.portReq (farRope rope a) (if data.isSome then 12 else 13) (s.cycle + d.1) data.isSome (bitsNat a 22 0) (data.getD []) (.engine rope id line)
  | 4 =>
    let t := s.hostAccess agent (id, line) (.line rope id line) phys data
    if data.isSome then t.scheduleFor agent 0 done else t
  | _ =>
    match s.domainTarget x.core a (if data.isSome then .write else .read) with
    | .inl _ => s.scheduleFor agent 0 done
    | .inr t =>
      let s1 := s.targetInstall (s.tenantOf x.core) a
      if t.1 = Config.ownPackage then s1.requestAs 16 x.core rope id line what t.2 else s1.scheduleFor agent 0 done

/-! ### Beginning (R34, R291) -/

/-- What a transfer still needs before its first line: a walk of the first page of an off-core side that is not done. -/
def State.firstPages (s : State) (rope : Nat) (x : Xfer) : List W64 :=
  let need (a : W64) (kind : OffKind) : List W64 :=
    if addrSpace a = 0 && !x.bad.any (fun b => b.1 == addrOffset a / 4096) && s.lookup rope x.desc.root a kind == .miss then [a] else []
  need x.desc.src .read ++ need x.desc.dst .write

/-- Start the walks of the first pages of a transfer (R34). -/
def State.walkFirst (s : State) (rope eng : Nat) (x : Xfer) : State :=
  ((s.firstPages rope x).filter (fun a => !x.walking.contains (addrOffset a / 4096))).foldl (fun acc a => acc.walkPage rope eng x a) s

/-- A late start counted in this cycle (R291, R350). -/
def Rope.lateStart (r : Rope) (now : Nat) : Rope :=
  { r with celate := r.celate + 1#32, celateHw := (now, (if r.celateHw.1 = now then r.celateHw.2 else 0) + 1) }

/-- The head of an engine begins its first read beat, if the engine is free, its start cycle has come and its first pages are
translated; a transfer that begins late adds 1 to CELATE (R34, R291). -/
def State.beginXfer (s : State) (rope eng : Nat) : State :=
  let e := (s.rope rope).engine eng
  match headXfer e.tsb with
  | none => s
  | some x =>
    if e.readBusy || decide (s.cycle < e.free) || decide (s.cycle < x.s0) then s
    else if !(s.firstPages rope x).isEmpty then
      let s1 := s.walkFirst rope eng x
      if (s.firstPages rope x).all (fun a => x.walking.contains (addrOffset a / 4096)) then s else s1.wakeEngine rope eng (s.cycle + 1)
    else
      let late := decide (x.s0 < s.cycle) && !x.late
      let s1 := s.modRope rope (fun r =>
        (if late then r.lateStart s.cycle else r).setEngine eng
          { e with tsb := e.tsb.filter (fun y => y.id != x.id), active := e.active ++ [{ x with began := true, late := x.late || late }],
                   readBusy := true })
      s1.schedule s.cycle 0 (.ceReadBeat (ropeId rope) (BitVec.ofNat 1 eng))

/-- TRANSFER_BEGIN (R291) -/
def execTransferBegin (rope : RopeId) (eng : BitVec 1) (s : State) : Host.Outcome State Fault Refusal := .next (s.beginXfer rope.val eng.toNat)

/-- WRITE_BACK_BEGIN (R297): a write-back takes its place in the engine's order as any transfer -/
def execWriteBackBegin (rope : RopeId) (eng : BitVec 1) (s : State) : Host.Outcome State Fault Refusal := .next (s.beginXfer rope.val eng.toNat)

/-! ### Read beats (R292) -/

/-- Cycles from the engine's having a line to the first cycle in which it can go on: a B-store line is written 3 cycles later, any
other leaves 1 cycle later (R292). -/
def CeAfter (d : XferDesc) : Nat := if addrSpace d.dst = 2 then 3 else 1

/-- The line read goes on to its destination. DEDUCED, unsafe: log entry 64. -/
def State.lineReady (s : State) (rope id line at_ : Nat) (d : XferDesc) : State :=
  s.schedule (at_ + CeAfter d) 0 (.ceWriteBeat (ropeId rope) id line)

/-- One line of a transfer has been read or asked for: the next one, or the next transfer, follows. -/
def State.lineTaken (s : State) (rope eng : Nat) (x : Xfer) (l : CeLine) : State :=
  let s1 := s.modXfer rope eng x.id (fun y => { y with nextLine := y.nextLine + 1, pending := y.pending ++ [l] })
  if x.nextLine + 1 < x.desc.lines then s1.schedule (s.cycle + 1) 0 (.ceReadBeat (ropeId rope) (BitVec.ofNat 1 eng))
  else (s1.modEngine rope eng (fun e => { e with readBusy := false, free := s.cycle + 1 })).wakeEngine rope eng (s.cycle + 1)

/-- A scratchpad line can be read in this cycle: granted, not yet used, and the path to the station free (R57, R292). -/
def State.beatRead (s : State) (m : RopeMap) (rope station bank : Nat) : Option (Nat × List LaneBooking) :=
  let r := s.rope rope
  match r.laneOf station with
  | none => none
  | some lane =>
    let segs := pathSegs lane (bankPos bank) (stationPos station)
    let bs := pathBookings m lane (transferTag s.cycle) station s.cycle segs
    if (r.bankFault station [(bank, s.cycle)]).isNone && r.pathFree bs then some (segsTime m segs, bs) else none

/-- Whether a line of scratchpad holds an uncorrectable word. DEDUCED, unsafe: log entry 78. -/
def State.lineBad (s : State) (rope off : Nat) : Bool :=
  !s.flips.isEmpty && s.flips.any (fun f => f.bad && padHit rope ((upTo 8).map (fun k => off / 8 + k)) f.loc)

/-- The core that issued a transfer counts the correctable errors that a read beat corrects in flight (R55). -/
def State.beatCount (s : State) (rope off : Nat) (x : Xfer) : State :=
  let n := (s.flips.filter (fun f => !f.bad && padHit rope ((upTo 8).map (fun k => off / 8 + k)) f.loc)).length
  if n = 0 then s else s.modCore x.core (fun c => c.count s.cycle 0x008 n)

/-- The read beat of an engine's current transfer. -/
def State.readBeat (s : State) (rope eng : Nat) (x : Xfer) : State :=
  let k := x.nextLine
  let a := x.desc.srcLine k
  let again := s.schedule (s.cycle + 1) 0 (.ceReadBeat (ropeId rope) (BitVec.ofNat 1 eng))
  if s.behindMiss rope eng x || s.missing rope x then again
  else if addrSpace a = 1 then
    let off := addrOffset a
    match s.beatRead (s.coreRope x.core) rope (readStation eng) (bankOf off) with
    | none => again
    | some p =>
      let s1 := s.modRope rope (fun r => (r.bookLanes s.cycle p.2).bookBanks s.cycle (readStation eng) [(bankOf off, s.cycle)])
      let s2 := s1.beatCount rope off x
      if s.lineBad rope off then s2.xferFault rope eng x.id k 8 a
      else
        let l : CeLine :=
          { line := k, data := readBytes s.mem (keyPad rope off) 64, phase := .ready, addr := 0#64, phys := 0,
            w := s.cycle + p.1 + 1, code := 0 }
        (s2.lineTaken rope eng x l).lineReady rope x.id k (s.cycle + p.1) x.desc
  else
    match s.offStep rope eng x k a .read with
    | .fault c => s.xferFault rope eng x.id k c a
    | .wait => again
    | .walk => again.walkPage rope eng x a
    | .go phys =>
      let l : CeLine := { line := k, data := [], phase := .requested, addr := a, phys := phys, w := 0, code := 0 }
      ((s.cacheWindow rope x.desc.root a).lineTaken rope eng x l).sendLine rope x.id k x a phys none

/-- CE_READ_BEAT (R292): the engine's current transfer reads its next line, or waits for a grant, a path or a page; at most once a cycle -/
def execCeReadBeat (rope : RopeId) (eng : BitVec 1) (s : State) : Host.Outcome State Fault Refusal :=
  let e := (s.rope rope.val).engine eng.toNat
  match e.active.find? (fun x => !x.cancelled && decide (x.nextLine < x.stop)) with
  | none => .next s
  | some x =>
    if e.readBusy && decide (e.readAt ≤ s.cycle) then
      .next ((s.modEngine rope.val eng.toNat (fun g => { g with readAt := s.cycle + 1 })).readBeat rope.val eng.toNat x)
    else .next s

/-- What the home of a source line answers: a fault code, the bytes that a port or the host has read, or those of a peer package, which has no port
event of its own here (R20, R32). -/
def State.homeLine (s : State) (x : Xfer) (l : CeLine) : Sum Nat (List Byte) :=
  if l.code ≠ 0 then .inl l.code
  else if !l.data.isEmpty then .inr l.data
  else if addrSpace l.addr = 5 then
    match s.domainTarget x.core l.addr .read with
    | .inl c => .inl c
    | .inr t => .inr (readBytes s.mem (keyHbm t.1 t.2) 64)
  else .inr l.data

/-- A port answers the request of a source line: its bytes, or a fault code. -/
def State.lineServed (s : State) (rope eng id line : Nat) (b : List Byte) (code : Nat) : State :=
  s.modXfer rope eng id (fun y => { y with
    pending := listMod (fun l => l.line == line && l.phase == .requested) (fun l => { l with data := b, code := code }) y.pending })

/-- CE_OFFCORE_READ_RETURN (R292): a source line reaches the engine, after the lines before it; its write follows as that of a line read from
scratchpad. DEDUCED, unsafe: log entry 64. -/
def execCeOffcoreReadReturn (rope : RopeId) (id line : Nat) (s : State) : Host.Outcome State Fault Refusal :=
  match s.xfer rope.val id with
  | none => .next s
  | some (eng, x) =>
    match x.pending.find? (fun l => l.line == line && l.phase == .requested) with
    | none => .next s
    | some l =>
      if x.cancelled then .next (s.dropLine rope.val eng id line)
      else if x.pending.any (fun m => decide (m.line < line) && m.phase == .requested) then
        .next (s.schedule (s.cycle + 1) 0 (.ceOffcoreReadReturn rope id line))
      else match s.homeLine x l with
        | .inl c => .next (s.xferFault rope.val eng id line c l.addr)
        | .inr data =>
          .next ((s.modXfer rope.val eng id (fun y => { y with
            pending := listMod (fun m => m.line == line) (fun m => { m with data := data, phase := .ready, w := s.cycle + 1 }) y.pending })).lineReady
              rope.val id line s.cycle x.desc)

/-! ### Write beats (R47, R71, R290, R292) -/

/-- The grantee of a bank in a coming cycle: the accepted table's once it is in force (R60, R292). -/
def Rope.granteeAt (r : Rope) (bank cycle : Nat) : Nat :=
  match r.pendingTable with
  | some t => if t.2.2 ≤ cycle then tblGet 31 (16 * (cycle % 64) + bank) t.1 else r.grantee bank cycle
  | none => r.grantee bank cycle

/-- The bookings of a line that leaves its station so as to be written in cycle `w`, if its bank is granted then and the path is free beside
the bookings given (R292). -/
def State.writeAt (s : State) (m : RopeMap) (rope st lane off : Nat) (segs : List Nat) (others : List LaneBooking) (w : Nat) : Option (List LaneBooking) :=
  let r := s.rope rope
  let out := w - segsTime m segs
  let bs := pathBookings m lane (transferTag out) st out segs
  if r.granteeAt (bankOf off) w == st && !r.bankedBy (bankOf off) w st && r.pathFree bs && ({ r with lanes := others } : Rope).pathFree bs
  then some bs else none

/-- The first cycle from `w` on, among `n`, in which a line can be written. -/
def State.firstWrite (s : State) (m : RopeMap) (rope st lane off : Nat) (segs : List Nat) (others : List LaneBooking) : Nat → Nat → Option (Nat × List LaneBooking)
  | 0, _ => none
  | n + 1, w => match s.writeAt m rope st lane off segs others w with
    | some bs => some (w, bs)
    | none => s.firstWrite m rope st lane off segs others n (w + 1)

/-- The write cycles that the lines of a transfer ahead will take (R292): the last of them, and the bookings of those that have not left;
none while the cycle of one of them is not settled. -/
def State.planLines (s : State) (m : RopeMap) (rope st lane : Nat) (d : XferDesc) : List CeLine → Nat → List LaneBooking → Option (Nat × List LaneBooking)
  | [], last, others => some (last, others)
  | l :: t, last, others =>
    if l.phase = .booked then s.planLines m rope st lane d t l.w others
    else if l.phase ≠ .ready then none
    else
      let off := addrOffset (d.dstLine l.line)
      let segs := pathSegs lane (stationPos st) (bankPos (bankOf off))
      let time := segsTime m segs
      match s.firstWrite m rope st lane off segs others 128 (max (max (l.w + time) (s.cycle + time)) (last + 1)) with
      | some p => s.planLines m rope st lane d t p.1 (others ++ p.2)
      | none => none

/-- The write beat of a scratchpad line that would leave its station in this cycle: the write cycle and the bookings, if its bank
is granted then, the path is free, also for the lines ahead of it, and the line before it writes earlier (R292). -/
def State.beatWrite (s : State) (rope eng : Nat) (x : Xfer) (line off : Nat) : Option (Nat × List LaneBooking) :=
  let st := writeStation eng
  match (s.rope rope).laneOf st with
  | none => none
  | some lane =>
    let segs := pathSegs lane (stationPos st) (bankPos (bankOf off))
    let w := s.cycle + segsTime (s.coreRope x.core) segs
    let others := (((s.rope rope).engine eng).active.takeWhile (fun y => y.id != x.id)).foldl (fun acc y =>
      if addrSpace y.desc.dst == 1 && !y.cancelled then
        match s.planLines (s.coreRope y.core) rope st lane y.desc (y.pending.filter (fun l => l.phase == .ready || l.phase == .booked)) 0 acc with
        | some p => p.2
        | none => acc
      else acc) []
    match s.planLines (s.coreRope x.core) rope st lane x.desc (x.pending.filter (fun l => decide (l.line < line))) 0 others with
    | some p => if p.1 < w then (s.writeAt (s.coreRope x.core) rope st lane off segs p.2 w).map (fun bs => (w, bs)) else none
    | none => none

/-- A line of scratchpad as an engine or a port writes it: a live barrier word refuses it (R71). -/
def State.linePut (s : State) (rope off : Nat) (data : List Byte) : Option State :=
  if (s.rope rope).barrierAt ((upTo 8).map (fun k => off + 8 * k)) then none
  else
    let words := (upTo 8).map (fun k => off / 8 + k)
    some ({ s with mem := writeBytes s.mem (keyPad rope off) data }.overwrite (padHit rope words))

/-- The first cycle after this one, within 64, that the table in force grants to a station at a bank and that it has not booked. -/
def Rope.nextGrant (r : Rope) (bank station now : Nat) : Nat :=
  match (upTo 64).find? (fun i => r.granteeAt bank (now + 1 + i) == station && !r.bankedBy bank (now + 1 + i) station) with
  | some i => now + 1 + i
  | none => now + 64

/-- A line for the rope's own scratchpad: it books its bank cycle as it leaves the station, and is written in that cycle; where a new table grants
that cycle no longer, it waits at the bank for the next one granted (R60). DEDUCED, unsafe: log entry 64. -/
def State.padBeat (s : State) (rope eng : Nat) (x : Xfer) (l : CeLine) : State :=
  let off := addrOffset (x.desc.dstLine l.line)
  let again := s.schedule (s.cycle + 1) 0 (.ceWriteBeat (ropeId rope) x.id l.line)
  let st := writeStation eng
  if l.phase = .ready then
    match (if s.behindMiss rope eng x then none else s.beatWrite rope eng x l.line off) with
    | none => again
    | some p =>
      ((s.modRope rope (fun r => (r.bookLanes s.cycle p.2).bookBanks s.cycle st [(bankOf off, p.1)])).modXfer rope eng x.id
        (fun y => { y with
          pending := listMod (fun m => m.line == l.line) (fun m => { m with phase := .booked, w := p.1 }) y.pending })).schedule p.1 0
            (.ceWriteBeat (ropeId rope) x.id l.line)
  else if l.w ≠ s.cycle then s
  else if (s.rope rope).granteeAt (bankOf off) s.cycle ≠ st || x.pending.any (fun m => decide (m.line < l.line)) then
    let w := (s.rope rope).nextGrant (bankOf off) st s.cycle
    ((s.modRope rope (fun r => r.bookBanks s.cycle st [(bankOf off, w)])).modXfer rope eng x.id (fun y => { y with
      pending := listMod (fun m => m.line == l.line) (fun m => { m with w := w }) y.pending })).schedule w 0 (.ceWriteBeat (ropeId rope) x.id l.line)
  else
    match s.linePut rope off l.data with
    | none => s.xferFault rope eng x.id l.line 5 (x.desc.dstLine l.line)
    | some s1 => (s1.lineLanded rope eng x.id).dropLine rope eng x.id l.line

/-- A line for the B-store of the issuing core: it lands in this cycle, after the reads of this cycle (R47, R290); it waits while a self-test
holds the B-store (R354). -/
def State.bBeat (s : State) (rope eng : Nat) (x : Xfer) (l : CeLine) : State :=
  let off := addrOffset (x.desc.dstLine l.line)
  let tested := match (s.core x.core).test with
    | some t => bitAt t.1 6
    | none => false
  if l.phase = .ready && (tested || s.behindMiss rope eng x) then s.schedule (s.cycle + 1) 0 (.ceWriteBeat (ropeId rope) x.id l.line)
  else if l.phase = .ready then
    (((s.modXfer rope eng x.id (fun y => { y with
      pending := listMod (fun m => m.line == l.line) (fun m => { m with phase := .booked, w := s.cycle }) y.pending })).lineLanded rope eng x.id).reportXfer
        rope eng x.id).schedule s.cycle 6 (.ceWriteBeat (ropeId rope) x.id l.line)
  else
    let hit (loc : StorageLoc) : Bool := match loc with
      | .bstore c n => c.val == x.core && decide (off / 8 ≤ n) && decide (n < off / 8 + 8)
      | _ => false
    (({ s with mem := writeBytes s.mem (keyB x.core off) l.data }).overwrite hit).dropLine rope eng x.id l.line

/-- A line for an off-core home leaves the rope (R292). -/
def State.offBeat (s : State) (rope eng : Nat) (x : Xfer) (l : CeLine) : State :=
  let a := x.desc.dstLine l.line
  let again := s.schedule (s.cycle + 1) 0 (.ceWriteBeat (ropeId rope) x.id l.line)
  if l.phase ≠ .ready then s
  else if s.behindLine rope eng x l.line then again
  else
    match s.offStep rope eng x l.line a .write with
    | .fault c => s.xferFault rope eng x.id l.line c a
    | .wait => again
    | .walk => again.walkPage rope eng x a
    | .go phys =>
      ((s.cacheWindow rope x.desc.root a).modXfer rope eng x.id (fun y => { y with
        pending := listMod (fun m => m.line == l.line) (fun m => { m with phase := .departed, addr := a, phys := phys }) y.pending })).sendLine rope
          x.id l.line x a phys (some l.data)

/-- CE_WRITE_BEAT (R292): a line goes on to its destination; a cancelled transfer performs no further beat (R320) -/
def execCeWriteBeat (rope : RopeId) (id line : Nat) (s : State) : Host.Outcome State Fault Refusal :=
  match s.xfer rope.val id with
  | none => .next s
  | some (eng, x) =>
    match x.pending.find? (fun l => l.line == line) with
    | none => .next s
    | some l =>
      if x.cancelled && l.phase != .departed && !(l.phase == .booked && decide (l.w ≤ s.cycle)) then .next (s.dropLine rope.val eng id line)
      else
        let sp := addrSpace (x.desc.dstLine line)
        .next (if sp = 1 then s.padBeat rope.val eng x l else if sp = 2 then s.bBeat rope.val eng x l else s.offBeat rope.val eng x l)

/-- Where an off-core line is written at its home: a fault code, or the memory key (none where a port has written it). -/
def State.lineHome (s : State) (x : Xfer) (l : CeLine) : Sum Nat (Option Nat) :=
  match addrSpace l.addr with
  | 0 =>
    let c := s.partitionCode (s.tenantOf x.core) l.phys
    if c ≠ 0 then .inl c else .inr (some (keyHbm Config.ownPackage l.phys))
  | 4 => .inr (some (keyHost l.phys))
  | 5 => match s.domainTarget x.core l.addr .write with
    | .inl c => .inl c
    | .inr t => .inr (some (keyHbm t.1 t.2))
  | _ => .inr none

/-- Whether a line is written: no earlier line of its transfer on its way finds a fault at its home (R294). -/
def State.lineStands (s : State) (x : Xfer) (line : Nat) : Bool :=
  x.pending.all (fun l => !(decide (l.line < line) && l.phase == .departed) || (s.lineHome x l).isRight)

/-- Whether an earlier line has not left for its home, where it may still fault: then no later one performs yet (R294). -/
def Xfer.aheadOf (x : Xfer) (line : Nat) : Bool := x.pending.any (fun l => decide (l.line < line) && l.phase != .departed)

/-- CE_OFFCORE_WRITE_PERFORM (R87, R290, R292): an off-core destination line performs at its home, after the lines before it and, at the host, after the
posted writes sent before it (R451); none after a line that faults does (R294) -/
def execCeOffcoreWritePerform (rope : RopeId) (id line : Nat) (s : State) : Host.Outcome State Fault Refusal :=
  match s.xfer rope.val id with
  | none => .next (s.dropPosted (id, line))
  | some (eng, x) =>
    match x.pending.find? (fun l => l.line == line && l.phase == .departed) with
    | none => .next (s.dropPosted (id, line))
    | some l =>
      if x.aheadOf line || s.postedWaits (id, line) then .next (s.schedule (s.cycle + 1) 0 (.ceOffcoreWritePerform rope id line)) else
      let s1 := (s.dropPortWait (fun w => w.what == 2 && w.farId == id && w.line == line)).dropPosted (id, line)
      match s.lineHome x l with
      | .inl c => .next (s1.xferFault rope.val eng id line c l.addr)
      | .inr k =>
        let s2 := match k with
          | some k => { s1 with mem := writeBytes s1.mem k l.data }
          | none => s1
        .next (if s.lineStands x line then (s2.lineLanded rope.val eng id).dropLine rope.val eng id line else s1.dropLine rope.val eng id line)

/-! ### Acceptance (R287, R289) -/

/-- The descriptor group as latched, or none where row 1 of R289 refuses it. -/
def State.latchXfer (s : State) (o : XferOp) (op : Nat) : Option XferDesc :=
  let x := o.x.toNat
  let reg (i : Nat) : W64 := s.bnd.lat.regs.sGet (x + i)
  let two := op == 4
  let aligned := if two then x % 8 == 0 && x != 0 else x % 4 == 0 && x != 0
  let len := bitsNat (reg 2) 31 0
  let rows := if two then bitsNat (reg 4) 15 0 else 1
  if !aligned || bitsNat (reg 2) 47 32 ≠ 0 || len = 0 || len % 64 ≠ 0 || (two && (2 ^ 16 ≤ (reg 4).toNat || rows = 0)) then none
  else some
    { op := op, src := reg 0, dst := reg 1, tag := (reg 2 >>> 48).setWidth 16, len := len, rows := rows,
      sstr := if two then (reg 5).toInt else 0, dstr := if two then (reg 6).toInt else 0, eng := o.e.toNat,
      root := (s.core s.bnd.core).csrGet 0x100 }

/-- Registers of the descriptor group. -/
def groupRegs (o : XferOp) (op : Nat) : List Nat :=
  (upTo (if op = 4 then 7 else if op = 3 then 4 else 3)).map (fun i => o.x.toNat + i)

/-- Whether every row from an offset stays inside a size (R287). -/
def rowsInside (off : Nat) (stride : Int) (rows len size : Nat) : Bool :=
  let last : Int := (off : Int) + stride * ((rows - 1 : Nat) : Int)
  decide (off + len ≤ size) && decide (0 ≤ last) && decide (last + len ≤ size)

/-- Code of a side of a transfer (R37, R287, R289). -/
def sideCode (members : BitVec 16) (allowed : List Nat) (a : W64) (stride : Int) (d : XferDesc) : Nat :=
  let c := addrCode members allowed a
  let sp := addrSpace a
  if c ≠ 0 then c
  else if (sp = 1 ∨ sp = 3) ∧ !rowsInside (bitsNat a 22 0) stride d.rows d.len (2 ^ 23) then 4
  else if sp = 2 ∧ !rowsInside (bitsNat a 24 0) stride d.rows d.len 0x1800000 then 4
  else 0

/-- Whether every destination line lies in a handle's range (R289). -/
def Handle.covers (h : Handle) (d : XferDesc) : Bool :=
  let lo := bitsNat d.dst 22 0
  let first : Int := (lo : Int) / 64
  let last : Int := (lo : Int) / 64 + d.dstr / 64 * ((d.rows - 1 : Nat) : Int)
  let top : Int := (h.base : Int) + h.len
  decide ((h.base : Int) ≤ first) && decide ((h.base : Int) ≤ last) && decide (first + (d.rowLines : Int) - 1 ≤ top) &&
    decide (last + (d.rowLines : Int) - 1 ≤ top)

/-- Put a transfer in its engine's buffer; its first pages are translated from here on, and the engine wakes at its start
cycle (R34, R289, R291). -/
def State.queueXfer (s : State) (rope core : Nat) (d : XferDesc) (s0 rank : Nat) (handle : Option Nat) (late : Bool) : State :=
  let n := s.fresh
  let c := s.core core
  let x : Xfer :=
    { id := n.1, desc := d, s0 := s0, handle := handle, core := core, rank := rank, order := n.1, farSeq := c.far.nextSeq, issued := s.cycle,
      began := false, nextLine := 0, written := 0, pending := [], cancelled := false, walking := [], bad := [],
      limit := none, fault := none, late := late }
  let s1 := (n.2.setCore core { c with far := { c.far with nextSeq := c.far.nextSeq + 1 } }).modEngine rope d.eng (fun e => { e with tsb := e.tsb ++ [x] })
  let free := ((s1.rope rope).engine d.eng).free
  (s1.walkFirst rope d.eng x).wakeEngine rope d.eng (max s0 free)

/-- Rows 3 to 5 of R289 and the acceptance. `start` is the start cycle named by the transfer. -/
def State.acceptXfer (s : State) (d : XferDesc) (handle : Option Nat) (start : Option Nat) : State :=
  let core := s.bnd.core
  let rope := ropeOf core
  let b := d.op = 2
  let sc := sideCode s.sec.members (if b then [1] else [0, 1, 3, 4, 5]) d.src d.sstr d
  let dc := sideCode s.sec.members (if b then [2] else [0, 1, 2, 3, 4, 5]) d.dst d.dstr d
  if sc ≠ 0 then s.addrFault sc d.src
  else if dc ≠ 0 then s.addrFault dc d.dst
  else
    let r := s.rope rope
    let bad := match handle with
      | some h => !s.handleOwned core h || (r.handle h).st != HandleState.free || (addrSpace d.dst == 1 && !(r.handle h).covers d)
      | none => false
    let early := match start with
      | some c => decide (c < s.cycle + 4)
      | none => false
    if bad then s.handleFault
    else if early || decide (32 ≤ ((r.engine d.eng).tsb.filter (fun x => x.rank == 2)).length) then s.timingFault 13
    else
      let s1 := match handle with
        | some h => s.modRope rope (fun r => r.setHandle h { r.handle h with st := .filling, filler := 0 })
        | none => s
      s1.queueXfer rope core d (start.getD (s.cycle + 4)) 2 handle false

/-- A transfer of the CE slot. -/
def State.xferSlot (s : State) (o : XferOp) (op : Nat) : State :=
  s.portOp (groupRegs o op) [] (fun t =>
    match t.latchXfer o op with
    | none => t.illegalOperand
    | some d =>
      if d.src.toNat % 64 ≠ 0 ∨ d.dst.toNat % 64 ≠ 0 ∨ d.sstr % 64 ≠ 0 ∨ d.dstr % 64 ≠ 0 then t.slotFault 12 0 true []
      else
        t.acceptXfer d (if o.h = 1#1 then some o.handle.toNat else none)
          (if op = 3 ∨ op = 4 then some (t.cycleOf (t.bnd.lat.regs.sGet (o.x.toNat + 3)).toNat) else none))

/-- CPY (R289) -/
def execCpy (o : XferOp) (s : State) : Host.Outcome State Fault Refusal := .next (s.xferSlot o 1)
/-- CPYB (R289): source in space 1, destination in space 2 -/
def execCpyb (o : XferOp) (s : State) : Host.Outcome State Fault Refusal := .next (s.xferSlot o 2)
/-- BXFER (R289): it starts at START -/
def execBxfer (o : XferOp) (s : State) : Host.Outcome State Fault Refusal := .next (s.xferSlot o 3)
/-- BXFER2 (R289): a two-dimensional transfer -/
def execBxfer2 (o : XferOp) (s : State) : Host.Outcome State Fault Refusal := .next (s.xferSlot o 4)

/-! ### Handle instructions (R66, R295–R298) -/

/-- HSET (R295) -/
def execHset (o : HsetOp) (s : State) : Host.Outcome State Fault Refusal :=
  let core := s.bnd.core
  let h := o.handle.toNat
  .next (s.portOp ([o.a.toNat, o.b.toNat] ++ (if o.wb = 1#1 then [o.c.toNat] else [])) [] (fun t =>
    let x := (t.rope (ropeOf core)).handle h
    let a := t.rdPlain o.a
    let b := (t.rdPlain o.b).toNat
    let c := t.rdPlain o.c
    let base := bitsNat a 22 6
    let wbBad := o.wb == 1#1 && (!([0, 4, 5].contains (addrSpace c)) || c.toNat % 64 != 0)
    if !t.handleOwned core h || x.st != .free then t.handleFault
    else if addrCode t.sec.members [1] a ≠ 0 || a.toNat % 64 ≠ 0 || b = 0 || b % 64 ≠ 0 || 131071 < base + b / 64 - 1 || wbBad then t.illegalOperand
    else t.modRope (ropeOf core) (fun r => r.setHandle h
      { x with base := base, len := b / 64 - 1, wb := o.wb == 1#1, tag := 0#16, chk := 0#4, wbAddr := if o.wb = 1#1 then c else x.wbAddr })))

/-- A handle released (R66, R297): freed, or draining with its write-back queued at + 4; none for any other state. -/
def State.releaseHandle (s : State) (core h : Nat) : Option State :=
  let rope := ropeOf core
  let x := (s.rope rope).handle h
  match x.st with
  | .full =>
    if x.wb then
      let d : XferDesc :=
        { op := 7, src := BitVec.ofNat 64 (2 ^ 60 + x.base * 64), dst := x.wbAddr, tag := x.tag, len := (x.len + 1) * 64, rows := 1, sstr := 0,
          dstr := 0, eng := h % 2, root := (s.core core).csrGet 0x100 }
      some ((s.modRope rope (fun r => r.setHandle h { x with st := .draining })).queueXfer rope core d (s.cycle + 4) 1 (some h) false)
    else some (s.modRope rope (fun r => r.setHandle h { x with st := .free }))
  | .faulted => some (s.modRope rope (fun r => r.setHandle h { x with st := .free, fcode := 0, faddr := 0#64 }))
  | _ => none

/-- HREL (R296): free, filling or draining is a handle fault -/
def execHrel (handle : BitVec 6) (s : State) : Host.Outcome State Fault Refusal :=
  .next (s.portOp [] [] (fun t =>
    if !t.handleOwned t.bnd.core handle.toNat then t.handleFault
    else match t.releaseHandle t.bnd.core handle.toNat with
      | some u => u
      | none => t.handleFault))

/-- The anchor fault of a slot: no slot of its bundle issues, and `eret` issues every present one (R338). -/
def State.anchorFault (s : State) (cause sub : Nat) (records : List (Nat × W64)) : State :=
  s.enterTrap s.bnd.core (s.bundleReq cause sub s.bnd.slot.num s.bnd.word (slotBit s.bnd.slot.num) s.bnd.present true records)

/-- Whether `hwait` is a handle fault: the handle is out of range or faulted (R296). -/
def State.hwaitBad (s : State) (core h : Nat) : Bool := !s.handleOwned core h || ((s.rope (ropeOf core)).handle h).st == .faulted

/-- HWAIT (R296): an anchor whose bundle issues once the handle is full or faulted -/
def execHwait (handle : BitVec 6) (s : State) : Host.Outcome State Fault Refusal :=
  .next (s.portOp [] [] (fun t => if t.hwaitBad t.bnd.core handle.toNat then t.anchorFault 9 0 [] else t))

/-- Whether a handle's state matches a condition (R288). -/
def handleCond (cond : Nat) (st : HandleState) : Bool :=
  match cond with
  | 0 => st == .full
  | 1 => st == .free
  | 2 => st == .filling
  | 3 => st == .draining
  | 4 => st == .faulted
  | _ => st == .full || st == .faulted

/-- HPROBE (R296) -/
def execHprobe (o : HprobeOp) (s : State) : Host.Outcome State Fault Refusal :=
  .next (s.portOp [] [] (fun t =>
    if !t.handleOwned t.bnd.core o.handle.toNat then t.handleFault
    else t.landRegs 1 [.p o.p.toNat (handleCond o.cond.toNat ((t.rope (ropeOf t.bnd.core)).handle o.handle.toNat).st)]))

/-- The refill record of a handle re-issued by a rollback: full returns to filling (R66, R298). -/
def State.refillHandle (s : State) (core h : Nat) : State :=
  let rope := ropeOf core
  let x := (s.rope rope).handle h
  match x.st, x.refill with
  | .full, some d => (s.modRope rope (fun r => r.setHandle h { x with st := .filling })).queueXfer rope core d (s.cycle + 4) 0 (some h) false
  | _, _ => s

/-! ### CELATE and CEFINFO (R291, R294) -/

/-- CEFINFO_CLEAR (R294, R350): every field of CEFINFO, and CEFADDR, read zero, but for a fault of the cycle -/
def execCefinfoClear (rope : RopeId) (s : State) : Host.Outcome State Fault Refusal :=
  .next (s.modRope rope.val (fun r => r.clearCef s.cycle))

/-! ### Collective commands (R144, R299) -/

/-- CCALL (R299): sA is the start cycle, sB the timetable number -/
def execCcall (o : CollOp) (s : State) : Host.Outcome State Fault Refusal :=
  .next (s.portOp [o.a.toNat, o.b.toNat] [o.d.toNat] (fun t =>
    if 2 ^ 16 ≤ (t.rdPlain o.b).toNat then t.illegalOperand
    else t.farIssue .ccall 0#64 (t.rdPlain o.a) (t.rdPlain o.b) o.d.toNat))

/-- CTRIG (R299): sA is the trigger entry, sB the address of its action descriptor -/
def execCtrig (o : CollOp) (s : State) : Host.Outcome State Fault Refusal :=
  .next (s.portOp [o.a.toNat, o.b.toNat] [o.d.toNat] (fun t =>
    if 2 ^ 16 ≤ (t.rdPlain o.a).toNat then t.illegalOperand
    else t.aligned (t.rdPlain o.b) 64 (fun u => u.farIssue .ctrig (u.rdPlain o.b) (u.rdPlain o.a) 0#64 o.d.toNat)))

/-- CKPT (R299): sA is the address of a state-class descriptor, sB the step number -/
def execCkpt (o : CollOp) (s : State) : Host.Outcome State Fault Refusal :=
  .next (s.portOp [o.a.toNat, o.b.toNat] [o.d.toNat] (fun t =>
    t.aligned (t.rdPlain o.a) 64 (fun u => u.farIssue .ckpt (u.rdPlain o.a) (u.rdPlain o.b) 0#64 o.d.toNat)))

/-! ### Holding and cancelling (R300, R320) -/

/-- Transfers of a core that have not begun leave their engine's buffer, and what waits behind them may begin (R291); those of a context that goes on
return to it (R300). -/
def State.holdXfers (s : State) (core : Nat) : State :=
  (upTo 2).foldl (fun acc e =>
    let g := (acc.rope (ropeOf core)).engine e
    ((acc.modEngine (ropeOf core) e (fun x => { x with tsb := x.tsb.filter (fun y => y.core != core) })).modCore core (fun c =>
      { c with heldXfers := c.heldXfers ++ g.tsb.filter (fun y => y.core == core) })).wakeEngine (ropeOf core) e s.cycle) s
def State.returnXfers (s : State) (core : Nat) : State :=
  let xs := (s.core core).heldXfers
  xs.foldl (fun acc x =>
    (acc.modEngine (ropeOf core) x.desc.eng (fun e => { e with tsb := e.tsb ++ [x] })).wakeEngine (ropeOf core) x.desc.eng s.cycle)
    (s.modCore core (fun c => { c with heldXfers := [] }))

/-- A context that waited at its landing point has not left: the transfers it held go on. -/
def State.unsave (s : State) (core : Nat) : State :=
  if (s.core core).save.isNone then s else (s.modCore core (fun c => { c with save := none })).returnXfers core

/-- Cancel the transfers without a handle that a core issued at or after a cycle: those not begun leave the buffer, those begun
perform no further beat (R320). -/
def State.cancelXfers (s : State) (core since : Nat) : State :=
  let mine (x : Xfer) : Bool := x.core == core && x.handle.isNone && decide (since ≤ x.issued)
  (upTo 2).foldl (fun acc e =>
    let g := (acc.rope (ropeOf core)).engine e
    let hit := (g.active.filter mine).map (·.id)
    let reading := g.active.any (fun x => mine x && decide (x.nextLine < x.stop))
    let acc1 := acc.modEngine (ropeOf core) e (fun g =>
      { g with
          tsb := g.tsb.filter (fun x => !mine x),
          active := listMod mine (fun x => { x with cancelled := true, pending := x.pending.filter (fun l => l.phase == .departed ||
            (l.phase == .booked && decide (l.w ≤ acc.cycle))) }) g.active,
          readBusy := g.readBusy && !reading,
          free := if g.readBusy && reading then acc.cycle + 1 else g.free })
    (hit.foldl (fun a id => a.settleXfer (ropeOf core) e id) acc1).wakeEngine (ropeOf core) e (acc.cycle + 1)) s

end Sys2Proof.Machine
end

