-- ==== Sys2Proof/Machine/Code.lean ====
section
/-!
DEFINITION. The instruction store of a core (R28, R29, R186, R356–R358): its blocks and their tags, fetches, slips, locks, and the
instruction translation buffer; and the walks of both sides with their completion and invalidation (R33–R36).
-/

namespace Sys2Proof.Machine

/-! ### Blocks (R356) -/

/-- The block that holds a bundle address. -/
def blockAddr (pc : BitVec 48) : BitVec 48 := BitVec.ofNat 48 (pc.toNat / 1024 * 1024)

/-- The image tags of a core's running image: object hash and section (R186, R356). -/
def Core.imageTag (c : Core) : List Byte × Nat :=
  match c.launch with
  | some l => (l.objHash, l.section_)
  | none => ([], 0)

/-- ASID of a core's instruction fetches (R30). -/
def Core.fetchAsid (c : Core) : Nat := rootAsid (c.csrGet 0x101)

/-- Whether a block belongs to the running image. -/
def Core.ownBlock (c : Core) (b : CodeBlock) : Bool := b.asid == c.fetchAsid && (b.objHash, b.section_) == c.imageTag

/-- The resident block of the running image that holds an address. -/
def Core.block (c : Core) (pc : BitVec 48) : Option CodeBlock := c.code.blocks.find? (fun b => b.addr == blockAddr pc && c.ownBlock b)

/-- The 64 bytes of a resident bundle. -/
def Core.bundleBytes (c : Core) (pc : BitVec 48) : Option (List Byte) :=
  (c.block pc).map (fun b => (cut 64 (cut (pc.toNat % 1024 / 64 * 64) b.bytes).2).1)

/-- The block issued from longest ago among those of a list. -/
def oldestBlock : List CodeBlock → Option CodeBlock
  | [] => none
  | b :: t => match oldestBlock t with
    | none => some b
    | some x => some (if x.lastIssue < b.lastIssue then x else b)

/-- The tags of a block's image, and of the running one. -/
def CodeBlock.tag (b : CodeBlock) : CodeTag := { asid := b.asid, objHash := b.objHash, section_ := b.section_ }
def Core.codeTag (c : Core) : CodeTag := { asid := c.fetchAsid, objHash := c.imageTag.1, section_ := c.imageTag.2 }

/-- The running image issues a bundle in this cycle: it is the one that ran last (R357). -/
def CodeStore.ran (x : CodeStore) (t : CodeTag) (now : Nat) : CodeStore := { x with runs := (t, now) :: x.runs.filter (fun e => e.1 != t) }

/-- The cycle in which the image of a block last ran, 0 where it has not run. -/
def Core.imageRun (c : Core) (b : CodeBlock) : Nat :=
  match c.code.runs.find? (fun e => e.1 == b.tag) with
  | some e => e.2
  | none => 0

/-- Among the locks of other images, those of the image that ran longest ago (R357). -/
def Core.foreignLocks (c : Core) : List CodeBlock :=
  let ls := c.code.blocks.filter (fun b => b.locked && !c.ownBlock b)
  match minimumOf (ls.map c.imageRun) with
  | some n => ls.filter (fun b => c.imageRun b == n)
  | none => []

/-- The block a full store replaces: the unlocked one issued from longest ago (R356); where every block is locked, a lock of the other image that ran
longest ago (R357). R357 says the latter of room for the running image's locks; of a fetch that finds every block locked it says nothing, and the
model makes room for it in the same way. DESIGN CHOICE, unsafe: log entry 86. -/
def Core.victim (c : Core) : Option CodeBlock :=
  (oldestBlock (c.code.blocks.filter (fun b => !b.locked))).or (oldestBlock c.foreignLocks)

/-- Bring a block in; one already resident gets the new bytes and keeps its lock. -/
def Core.insertBlock (c : Core) (b : CodeBlock) : Core :=
  let same (x : CodeBlock) : Bool := x.addr == b.addr && x.asid == b.asid && x.objHash == b.objHash && x.section_ == b.section_
  let rest := c.code.blocks.filter (fun x => !same x)
  let locked := b.locked || c.code.blocks.any (fun x => same x && x.locked)
  let keep :=
    if rest.length < 256 then rest
    else match { c with code := { c.code with blocks := rest } }.victim with
      | some v => rest.filter (fun x => !(x.addr == v.addr && x.asid == v.asid && x.objHash == v.objHash && x.section_ == v.section_))
      | none => rest
  { c with code := { c.code with blocks := { b with locked := locked } :: keep } }

/-- Blocks locked by the running image (R357). -/
def Core.lockedBlocks (c : Core) : List CodeBlock := c.code.blocks.filter (fun b => b.locked && c.ownBlock b)

/-- The block addresses that overlap a range of bundles (R357). -/
def rangeBlocks (start count : Nat) : List (BitVec 48) :=
  let first := start / 1024
  (upTo ((start + 64 * count + 1023) / 1024 - first)).map (fun i => BitVec.ofNat 48 ((first + i) * 1024))

/-! ### Fetches (R28, R29) -/

/-- The instruction translation of an address, if buffered: a physical address (R29). -/
def Core.itbFind (c : Core) (root : W64) (va : Nat) : Option Nat :=
  (c.code.itb.find? (fun e => e.asid == rootAsid root && e.page == va / 2 ^ 21)).map (fun e => e.ppn * 4096 + va % 2 ^ 21)

/-- Install an entry of the 64-entry buffer; a full buffer drops one that the spec does not name (R29). -/
def State.itbInstall (s : State) (core : Nat) (e : ItbEntry) : State :=
  let c := s.core core
  let keep := c.code.itb.filter (fun x => !(x.asid == e.asid && x.page == e.page))
  if keep.length < 64 then s.setCore core { c with code := { c.code with itb := e :: keep } }
  else
    let v := Config.dtbVictim (s.freeIndex (coreAgent core)) % 64
    (s.useFree (coreAgent core)).setCore core { c with code := { c.code with itb := e :: (keep.take v ++ keep.drop (v + 1)) } }

/-- A fetch changed. -/
def State.modFetch (s : State) (core id : Nat) (f : CodeFetch → CodeFetch) : State :=
  s.modCore core (fun c => { c with code := { c.code with fetches := listMod (fun x => x.id == id) f c.code.fetches } })

/-- Start the fetch of a block: through the instruction translation buffer, or by a walk (R29). A block already on its way for the
same use is not fetched twice. -/
def State.startFetch (s : State) (core : Nat) (addr : BitVec 48) (forIssue lock : Bool) : State :=
  let c := s.core core
  if c.code.fetches.any (fun f => f.addr == addr && f.forIssue == forIssue && f.fault == 0) then
    s.modCore core (fun c => { c with code := { c.code with
      fetches := listMod (fun f => f.addr == addr && f.forIssue == forIssue) (fun f => { f with lock := f.lock || lock }) c.code.fetches } })
  else
    let n := s.fresh
    let root := c.csrGet 0x101
    let f : CodeFetch := { id := n.1, addr := addr, forIssue := forIssue, lock := lock, root := root, found := false, phys := 0, fault := 0 }
    let s1 := n.2.setCore core { c with code := { c.code with fetches := c.code.fetches ++ [f] } }
    match c.itbFind root addr.toNat with
    | some phys => (s1.modFetch core n.1 (fun x => { x with found := true, phys := phys })).scheduleFree 0 (.instructionFetchComplete (coreId core) n.1)
    | none =>
      match s1.beginWalk (.code core n.1) (ropeOf core) true root addr.toNat with
      | some s2 => s2
      | none => s1

/-- An instruction-store slip: the core freezes with its results in flight, the slip is counted and the block of its next bundle is
fetched (R29, R77, R356). DEDUCED, unsafe: log entry 27. -/
def State.slip (s : State) (core : Nat) : State :=
  let c := s.core core
  let c1 := c.count s.cycle 0x009 1
  (s.setCore core { c1 with
    slip := some (s.cycle, c.inflight.filter (fun l => decide (s.cycle < l.at_))),
    inflight := c.inflight.filter (fun l => decide (l.at_ ≤ s.cycle)),
    seq := { c.seq with run := .slipped, idle := 0 } }).startFetch core (blockAddr c.seq.pc) true false

/-- INSTRUCTION_STORE_SLIP (R356) -/
def execInstructionStoreSlip (core : CoreId) (s : State) : Host.Outcome State Fault Refusal := .next (s.slip core.val)

/-- A slip ends: the core's results and queued operations go on from where they were frozen, and its bundle may issue in this cycle. The matrix array of a
frame's context is held by its trap already (R346). -/
def State.endSlip (s : State) (core : Nat) : State :=
  let c := s.core core
  match c.slip with
  | none => s
  | some w =>
    let k := s.cycle - w.1
    let ls := w.2.map (Landing.shift k)
    (s.setCore core { c with
      slip := none,
      inflight := c.inflight ++ ls,
      td := c.td.shift k,
      mx := if c.frame.isSome then c.mx else c.mx.delay w.1 k,
      seq := { c.seq with run := .running, nextIssue := s.cycle } }).thaw core k s.cycle c.frame.isSome ls

/-- An instruction-translation trap: no slot issues, RPL is empty, and `eret` fetches the bundle afresh (R29). -/
def State.fetchTrap (s : State) (core : Nat) : State :=
  let c := s.core core
  let s1 := s.enterTrap core
    { cause := 11, sub := 0, slot := 0, word := 0#32, pc := c.seq.pc, fslots := 0#12, rpl := 0#12, reported := none, goOn := false,
      whole := true, waits := false, refetch := true, retiring := false, latched := .reset, records := [(0x015, pcWord c.seq.pc)],
      nextIssue := s.cycle }
  s1

/-- A fetch has faulted: for issue the trap of R29, for `ilock` and `ipref` the block is dropped and FAULT is set (R357).
DESIGN CHOICE, safe: log entry 28. -/
def State.fetchFault (s : State) (core : Nat) (f : CodeFetch) : State :=
  let c := s.core core
  if f.forIssue then
    if c.seq.run == .slipped && blockAddr c.seq.pc == f.addr then s.fetchTrap core else s
  else s.setCore core (c.stick s.cycle 17)

/-- The partition check of every line of a block (R27): the code of the first that fails. -/
def State.blockCode (s : State) (tenant phys : Nat) : Nat :=
  match ((upTo 16).map (fun i => s.partitionCode tenant (phys + 64 * i))).find? (· != 0) with
  | some c => c
  | none => 0

/-- INSTRUCTION_FETCH_COMPLETE (R27, R29, R357): the block is resident, and a core that waits for it goes on -/
def execInstructionFetchComplete (core : CoreId) (id : Nat) (s : State) : Host.Outcome State Fault Refusal :=
  let c := s.core core.val
  match c.code.fetches.find? (fun f => f.id == id) with
  | none => .next s
  | some f =>
    let s1 := s.setCore core.val { c with code := { c.code with fetches := c.code.fetches.filter (fun x => x.id != id) } }
    let code := if f.fault ≠ 0 then f.fault else s.blockCode (s.tenantOf core.val) f.phys
    if code ≠ 0 then .next (s1.fetchFault core.val f)
    else
      let b : CodeBlock :=
        { addr := f.addr, asid := rootAsid f.root, objHash := c.imageTag.1, section_ := c.imageTag.2,
          bytes := readBytes s.mem (keyHbm Config.ownPackage f.phys) 1024, locked := f.lock, lastIssue := s.cycle }
      let s2 := s1.modCore core.val (fun x => x.insertBlock b)
      .next (if f.forIssue && c.seq.run == .slipped && blockAddr c.seq.pc == f.addr then s2.endSlip core.val else s2)

/-! ### Walks (R33, R34) -/

/-- Answer one requester that waited for a walk. DESIGN CHOICE, unsafe: log entry 36. -/
def State.answerWalk (s : State) (w : Walk) (r : WalkResult) (who : Walker) : State :=
  match who with
  | .farOp core id =>
    match (s.core core).farOp id, r with
    | some f, .page _ _ _ _ _ _ => (s.modFar core id (fun x => { x with phase := .queued })).farSend core f
    | some _, .fault c => s.farFault core id c
    | none, _ => s
  | .xfer rope eng id =>
    let page := w.va / 4096
    let s1 := s.modXfer rope eng id (fun x => { x with
      walking := x.walking.filter (· != page),
      bad := match r with
        | .fault c => x.bad ++ [(page, c)]
        | .page _ _ _ _ _ _ => x.bad })
    s1.wakeEngine rope eng s.cycle
  | .code core id =>
    match r with
    | .page vb _ pb _ _ _ =>
      ((s.itbInstall core { asid := w.asid, page := vb / 2 ^ 21, ppn := pb / 4096 }).modFetch core id (fun f =>
        { f with found := true, phys := pb + (f.addr.toNat - vb) })).scheduleFree 0 (.instructionFetchComplete (coreId core) id)
    | .fault c => (s.modFetch core id (fun f => { f with fault := c })).schedule s.cycle 6 (.instructionFetchComplete (coreId core) id)

/-- Transfers of a rope that wait for a walk to be free for them ask again, in the order in which they stand in their engines (R33, R34). -/
def State.retryFirst (s : State) (rope : Nat) : State :=
  (upTo 2).foldl (fun acc e => ((acc.rope rope).engine e).tsb.foldl (fun a x => a.walkFirst rope e x) acc) s

/-- TRANSLATION_WALK_COMPLETE (R22, R33): the walker reads the next entry, and the last one completes the walk. The page found is installed and answers its
requesters, and those of the rope's other walks that it covers, which are abandoned; a fault is reported to the requesters. -/
def execTranslationWalkComplete (die : DieId) (id : Nat) (s : State) : Host.Outcome State Fault Refusal :=
  let d := s.die die.val
  match d.walks.find? (fun w => w.id == id) with
  | none => .next s
  | some w =>
  match s.walkNext w with
  | .inl p =>
    .next ((s.setDie die.val { d with walks := listMod (fun x => x.id == id) (fun x => { x with at_ := some p }) d.walks }).scheduleFor w.agent 0
      (.translationWalkComplete die id))
  | .inr r =>
    let covered (x : Walk) : Bool :=
      match r with
      | .page vb size _ _ _ _ => !w.instr && !x.instr && x.rope == w.rope && x.asid == w.asid && decide (vb ≤ x.va) && decide (x.va < vb + size)
      | .fault _ => false
    let gone := d.walks.filter (fun x => x.id == id || covered x)
    let s1 := s.setDie die.val { d with walks := d.walks.filter (fun x => !(x.id == id || covered x)) }
    let s2 := match r with
      | .page vb size pb rd wr _ =>
        if w.instr then s1
        else s1.dtbInstall w.rope { asid := w.asid, window := false, vbase := vb, size := size, pbase := pb, r := rd, w := wr }
      | .fault _ => s1
    let s3 := gone.foldl (fun acc x => x.who.foldl (fun acc2 who => acc2.answerWalk x r who) acc) s2
    .next ((s3.startWalks die.val).retryFirst w.rope)

/-! ### Invalidation (R35, R36) -/

/-- Cores and ropes of a die. -/
def dieCores (d : Nat) : List Nat := (upTo 64).map (fun i => 64 * d + i)
def dieRopes (d : Nat) : List Nat := (upTo 16).map (fun i => 16 * d + i)

/-- Data entries dropped on every rope of a die. -/
def State.dropDtb (s : State) (die : Nat) (p : DtbEntry → Bool) : State :=
  { s with ropes := s.ropes.map (fun e =>
      if dieOfRope e.1 = die then (e.1, { e.2 with dtb := e.2.dtb.filter (fun x => !p x) }) else e) }

/-- Instruction entries dropped on every core of a die. -/
def State.dropItb (s : State) (die : Nat) (p : ItbEntry → Bool) : State :=
  { s with cores := s.cores.map (fun e =>
      if dieOf e.1 = die then (e.1, { e.2 with code := { e.2.code with itb := e.2.code.itb.filter (fun x => !p x) } }) else e) }

/-- The package's buffer of space 5 targets is emptied with every entry of the data side. DESIGN CHOICE, unsafe: log entry 38. -/
def State.dropTarget (s : State) (v : TbInval) : State := if v.kind = 2 then { s with sec := { s.sec with targetTb := [] } } else s

/-- Whether an entry has translated an access of an address space at an address. -/
def DtbEntry.serves (e : DtbEntry) (root a : W64) : Bool :=
  e.asid == rootAsid root && e.window == (addrSpace a == 4) && (addrSpace a == 0 || addrSpace a == 4) &&
    decide (e.vbase ≤ addrOffset a) && decide (addrOffset a < e.vbase + e.size)

/-- The accesses of a rope that the given entries have translated and that have still to perform (R36). -/
def State.dataUsers (s : State) (rope : Nat) (es : List DtbEntry) : List TbUser :=
  ((upTo 4).map (4 * rope + ·)).flatMap (fun c =>
    ((s.core c).far.ops.filter (fun f => f.unperformed && (f.phase == .waitingPort || f.phase == .sent) && es.any (·.serves f.root f.addr))).map (fun f =>
      TbUser.far c f.id)) ++
  (s.rope rope).engines.flatMap (fun g => g.2.active.flatMap (fun x =>
    (x.pending.filter (fun l => (l.phase == .requested || l.phase == .departed) && es.any (·.serves x.desc.root l.addr))).map (fun l =>
      TbUser.line rope x.id l.line l.phase)))

/-- The fetches of a core that the given entries have translated and that have still to perform (R36). -/
def State.codeUsers (s : State) (core : Nat) (es : List ItbEntry) : List TbUser :=
  ((s.core core).code.fetches.filter (fun f => f.found && es.any (fun e => e.asid == rootAsid f.root && e.page == f.addr.toNat / 2 ^ 21))).map (fun f =>
    TbUser.fetch core f.id)

/-- Walks of a die that may hold an entry read before an invalidation begin again: what they install is read after it (R36). DEDUCED, unsafe: log
entry 39. -/
def State.restartWalks (s : State) (die : Nat) (v : TbInval) : State :=
  s.modDie die (fun d => { d with walks := listMod (fun w => w.instr == v.side && (v.kind == 2 || w.asid == v.asid)) (fun w => { w with at_ := none }) d.walks })

/-- The selected entries are dropped; BUSY clears once the accesses that they have translated have performed (R36). -/
def State.invalidate (s : State) (core : Nat) (dp : TbInval → DtbEntry → Bool) (ip : TbInval → ItbEntry → Bool) : State :=
  let die := dieOf core
  match (s.die die).tbinv with
  | none => s
  | some v =>
    let users := if v.side then (dieCores die).flatMap (fun c => s.codeUsers c ((s.core c).code.itb.filter (ip v)))
      else (dieRopes die).flatMap (fun r => s.dataUsers r ((s.rope r).dtb.filter (dp v)))
    let s1 := if v.side then s.dropItb die (ip v) else (s.dropDtb die (dp v)).dropTarget v
    ((s1.restartWalks die v).modDie die (fun d => { d with tbinv := some { v with users := some users } })).schedule s.cycle 6 (.tbinvComplete (dieId die))

/-- TBINV_PAGE (R35): the page that holds the address in TBINVADDR -/
def execTbinvPage (core : CoreId) (s : State) : Host.Outcome State Fault Refusal :=
  .next (s.invalidate core.val
    (fun v e => e.asid == v.asid && e.window == (addrSpace (BitVec.ofNat 64 v.addr) == 4) &&
      decide (e.vbase ≤ addrOffset (BitVec.ofNat 64 v.addr)) && decide (addrOffset (BitVec.ofNat 64 v.addr) < e.vbase + e.size))
    (fun v e => e.asid == v.asid && e.page == v.addr % 2 ^ 48 / 2 ^ 21))

/-- TBINV_ASID (R35): every entry of an ASID -/
def execTbinvAsid (core : CoreId) (s : State) : Host.Outcome State Fault Refusal :=
  .next (s.invalidate core.val (fun v e => e.asid == v.asid) (fun v e => e.asid == v.asid))

/-- TBINV_ALL (R35): every entry of the side -/
def execTbinvAll (core : CoreId) (s : State) : Host.Outcome State Fault Refusal :=
  .next (s.invalidate core.val (fun _ _ => true) (fun _ _ => true))

/-- Whether a user of a dropped entry has still to perform. -/
def State.tbWaits (s : State) : TbUser → Bool
  | .far core id => match (s.core core).farOp id with
    | some f => f.unperformed
    | none => false
  | .line rope xfer line phase => match s.xfer rope xfer with
    | some x => x.2.pending.any (fun l => l.line == line && l.phase == phase)
    | none => false
  | .fetch core id => (s.core core).code.fetches.any (fun f => f.id == id)

/-- Whether an invalidation still runs: it has dropped nothing yet, or an access translated through a dropped entry has still to perform (R36). -/
def State.tbUsers (s : State) (v : TbInval) : Bool :=
  match v.users with
  | none => true
  | some us => us.any s.tbWaits

/-- TBINV_COMPLETE (R36): BUSY clears in the first cycle in which the users of the dropped entries have performed -/
def execTbinvComplete (die : DieId) (s : State) : Host.Outcome State Fault Refusal :=
  match (s.die die.val).tbinv with
  | none => .next s
  | some v =>
    if s.tbUsers v then .next (s.schedule (s.cycle + 1) 6 (.tbinvComplete die))
    else .next (s.modDie die.val (fun d => { d with tbinv := none }))

end Sys2Proof.Machine
end

