-- ==== Sys2Proof/Machine/Tables.lean ====
section
/-!
DEFINITION. Installing and swapping the slot table of a rope (R59–R62) and the memory-port slot table of a die (R63, R64).
-/

namespace Sys2Proof.Machine

/-! ### Slot tables (R59, R60) -/

/-- Row i of an image: `width` bytes, little-endian. -/
def imageRow (width : Nat) (image : List Byte) (i : Nat) : Nat := leNat (cut width (cut (width * i) image).2).1

/-- Entry k of a row. -/
def rowEntry (row k : Nat) : Nat := field row (5 * k) 5

/-- The grants and owners of a slot-table image, in the form of a rope's tables. -/
def imageGrants (image : List Byte) : Tbl Nat :=
  (upTo 64).flatMap (fun i => let row := imageRow 16 image i; ((upTo 16).map (fun k => (16 * i + k, rowEntry row k))).filter (fun e => e.2 != 31))
def imageOwners (image : List Byte) : Tbl Nat := let row := imageRow 16 image 64; ((upTo 16).map (fun k => (k, rowEntry row k))).filter (fun e => e.2 != 31)

/-- Whether an image is refused (R60): its size, a reserved field, a reserved grantee, a bad or doubled owner, a granted station 8–15
that owns no lane, or a grant or lane outside the installing tenant's partition. DESIGN CHOICE, unsafe: log entry 73. -/
def State.imageRefused (s : State) (rope tenant : Nat) (image : List Byte) : Bool :=
  let g := imageGrants image
  let o := imageOwners image
  let p := tblGet Machine.Partition.reset tenant s.sec.partitions
  let part := p.banks.find? (fun b => b.1 == rope)
  let banks := match part with
    | some b => b.2.1
    | none => 0
  let lanes := match part with
    | some b => b.2.2
    | none => 0
  image.length != 1040 ||
  (upTo 65).any (fun i => decide (2 ^ 80 ≤ imageRow 16 image i)) ||
  g.any (fun e => decide (16 ≤ e.2) && decide (e.2 ≤ 30)) ||
  o.any (fun e => e.2 != 31 && (decide (e.2 < 8) || decide (15 < e.2))) ||
  o.any (fun e => e.2 != 31 && o.any (fun f => f.1 != e.1 && f.2 == e.2)) ||
  g.any (fun e => decide (8 ≤ e.2) && decide (e.2 ≤ 15) && !o.any (fun f => f.2 == e.2)) ||
  g.any (fun e => e.2 != 31 && field banks (e.1 % 16) 1 == 0) ||
  o.any (fun e => e.2 != 31 && field lanes e.1 1 == 0)

/-- The first multiple of 64 after a cycle (R60). -/
def nextSwap (cycle : Nat) : Nat := (cycle / 64 + 1) * 64

/-- Install a slot table: a refused image leaves the old table in force with status 0x21 (R60). -/
def State.installSlots (s : State) (rope tenant : Nat) (image : List Byte) : State :=
  if s.imageRefused rope tenant image then s.modRope rope (fun r => { r with tableStatus := 0x21 })
  else
    (s.modRope rope (fun r =>
      { r with pendingTable := some (imageGrants image, imageOwners image, nextSwap s.cycle), tableStatus := 0 })).schedule (nextSwap s.cycle) 0
        (.slotTableSwap (ropeId rope))

/-- SLOT_TABLE_INSTALL (R60) -/
def execSlotTableInstall (rope : RopeId) (tenant : Nat) (image : List Byte) (s : State) : Host.Outcome State Fault Refusal :=
  .next (s.installSlots rope.val tenant image)

/-- The first bank cycle of an access that the table in force forbids (R60). -/
def Rope.forbidden (r : Rope) (now : Nat) (a : Access) : Option (Nat × Nat) :=
  let late := a.banks.filter (fun b => decide (now ≤ b.2) && r.grantee b.1 b.2 != a.station)
  match minimumOf (late.map (·.2)) with
  | none => none
  | some c => late.find? (fun b => b.2 == c)

/-- The new table takes effect: accesses that it forbids perform nothing more. Engine and port lines test their grants at their bank cycles, so they
wait for those of the new table (R60). -/
def State.swapTable (s : State) (rope : Nat) (g o : Tbl Nat) : State :=
  s.modRope rope (fun r =>
    let r1 := { r with grants := g, owners := o, pendingTable := none }
    { r1 with accs := r1.accs.map (fun a => if (r1.forbidden s.cycle a).isSome then { a with dead := true } else a) })

/-- The access of a core, among those a swap forbade, that was issued first. -/
def earliestAccess : List Access → Option Access
  | [] => none
  | a :: t => match earliestAccess t with
    | none => some a
    | some b => some (if b.issue < a.issue ∨ (b.issue = a.issue ∧ b.slot < a.slot) then b else a)

/-- Each core with a forbidden access takes one late bank-conflict trap, against the access it issued first (R60, R62).
DEDUCED, unsafe: log entry 25. -/
def State.swapTraps (s : State) (rope : Nat) : State :=
  let r := s.rope rope
  let dead := r.accs.filter (·.dead)
  let s1 := s.setRope rope { r with accs := r.accs.filter (fun a => !a.dead) }
  (upTo 4).foldl (fun acc i =>
    match earliestAccess (dead.filter (fun a => posOf a.core == i)) with
    | none => acc
    | some a =>
      match r.forbidden s.cycle a with
      | none => acc
      | some b => acc.accessCause a 7 0 [(0x011, bkconfWord 2 b.1 b.2 a.station (r.grantee b.1 b.2))]) s1

/-- SLOT_TABLE_SWAP (R60): the accepted table at the start of its cycle, then, once the bundles of the cycle have issued, the traps -/
def execSlotTableSwap (rope : RopeId) (s : State) : Host.Outcome State Fault Refusal :=
  match (s.rope rope.val).pendingTable with
  | some t => .next (if t.2.2 ≤ s.cycle then (s.swapTable rope.val t.1 t.2.1).schedule s.cycle 6 (.slotTableSwap rope) else s)
  | none => .next (s.swapTraps rope.val)

/-! ### Memory-port tables (R63, R64) -/

/-- The grants of a memory-port image. -/
def imagePorts (image : List Byte) : Tbl Nat :=
  (upTo 64).flatMap (fun i => let row := imageRow 32 image i; ((upTo 32).map (fun k => (32 * i + k, rowEntry row k))).filter (fun e => e.2 != 31))

/-- Whether two grants of one channel stand closer than 3 cycles apart, over the rows as a ring (R64). -/
def portsClose (g : Tbl Nat) : Bool :=
  g.any (fun e => e.2 != 31 && [1, 2].any (fun d => tblGet 31 ((e.1 + 32 * d) % 2048) g != 31))

/-- Why a memory-port image is refused, or 0 (R60, R63, R64). -/
def State.portImageStatus (s : State) (die tenant : Nat) (image : List Byte) : Nat :=
  let g := imagePorts image
  let p := tblGet Machine.Partition.reset tenant s.sec.partitions
  let chans := match p.ports.find? (fun e => e.1 == die) with
    | some e => e.2
    | none => 0
  if image.length ≠ 2048 || (upTo 64).any (fun i => decide (2 ^ 160 ≤ imageRow 32 image i)) ||
      g.any (fun e => decide (20 ≤ e.2) && decide (e.2 ≤ 29)) || g.any (fun e => e.2 != 31 && field chans (e.1 % 32) 1 == 0) then 0x21
  else if portsClose g then 0x22 else 0

/-- Install a memory-port table (R64). -/
def State.installPorts (s : State) (die tenant : Nat) (image : List Byte) : State :=
  let st := s.portImageStatus die tenant image
  if st ≠ 0 then s.modDie die (fun d => { d with portStatus := st })
  else
    (s.modDie die (fun d => { d with pendingPorts := some (imagePorts image, nextSwap s.cycle), portStatus := 0 })).schedule
      (nextSwap s.cycle) 0 (.memoryPortTableSwap (dieId die))

/-- MEMORY_PORT_TABLE_INSTALL (R64) -/
def execMemoryPortTableInstall (die : DieId) (tenant : Nat) (image : List Byte) (s : State) : Host.Outcome State Fault Refusal :=
  .next (s.installPorts die.val tenant image)

/-- MEMORY_PORT_TABLE_SWAP (R64): the accepted table as a whole -/
def execMemoryPortTableSwap (die : DieId) (s : State) : Host.Outcome State Fault Refusal :=
  match (s.die die.val).pendingPorts with
  | some t => .next (if t.2 ≤ s.cycle then s.modDie die.val (fun d => { d with portGrants := t.1, pendingPorts := none }) else s)
  | none => .next s

end Sys2Proof.Machine
end

