-- ==== Sys2Proof/Machine/Sync.lean ====
section
/-!
DEFINITION. The SY slot (R302–R307, R312–R318): anchors, `end`, time, belay regions with their keep sets, and `cmpt`.
-/

namespace Sys2Proof.Machine

/-! ### Anchors, end and time (R304–R307) -/

/-- ANCHOR (R304): its bundle is an anchor, and nothing more -/
def execAnchor (s : State) : Host.Outcome State Fault Refusal := .next s

/-- END (R201, R304): fetch stops after its bundle and a pending transfer is dropped; with a region open an illegal operand -/
def execEndOp (s : State) : Host.Outcome State Fault Refusal :=
  .next (
    if !(s.core s.bnd.core).belay.regions.isEmpty then s.illegalOperand
    else { s with bnd := { s.bnd with ctl := { s.bnd.ctl with ended := true } } })

/-- CLK (R305): the counter's value in the issue cycle, a latched operand -/
def execClk (d : BitVec 5) (s : State) : Host.Outcome State Fault Refusal :=
  .next (s.portOp [] [d.toNat] (fun t => t.landRegs 1 [.s d.toNat (BitVec.ofNat 64 t.bnd.lat.clk)]))

/-- WAITC (R306): an anchor; the predicate says whether the target lies before the cycle in which the bundle issues -/
def execWaitc (a : BitVec 5) (p : BitVec 3) (s : State) : Host.Outcome State Fault Refusal :=
  .next (s.portOp [a.toNat] [] (fun t => t.landRegs 1 [.p p.toNat (decide ((t.rdPlain a).toNat < t.counter))]))

/-- Whether a `wfar` still waits: a far operation or status is outstanding, or an `mrd` has not landed (R307). -/
def Core.farWaits (c : Core) : Bool := c.outstanding != 0 || c.inflight.any (fun l => l.slot == 7 && l.eff.exposed) || !c.mx.pendingV.isEmpty

/-- WFAR (R38, R307): an anchor; a fault in the far-fault record is reported in its place -/
def execWfar (s : State) : Host.Outcome State Fault Refusal :=
  match (s.core s.bnd.core).far.fault with
  | some f => .next ((s.modCore s.bnd.core Core.farReported).anchorFault 10 0 f.records)
  | none => .next s

/-! ### Regions (R312, R313, R316) -/

/-- The region that `belay.begin` pushes (R312): the sequencer, the predicates and `RNDSEQ` as its bundle found them, for the other slots of that bundle
issue again at H′ (R321). DEDUCED, unsafe: log entry 34. -/
def State.newRegion (s : State) (pitch : Bool) (hIn hOut : Nat) : Region :=
  let c := s.core s.bnd.core
  let q := s.bnd.seq0
  { pitch := pitch, hIn := hIn, hOut := hOut, h := s.cycle, first := s.bnd.id0, restart := s.bnd.lat.pc, time := s.bnd.lat.time,
    beside := { s.bnd.lat with words := s.bnd.lat.words.filter (fun w => w.1 != 11) }, rets := q.rets,
    loops := q.loops, rrb := q.rrb, p := s.bnd.p0, rndseq := s.bnd.rnd0, fpflags := c.csrGet 0x001, fpfirst := c.csrGet 0x002,
    retry := 0, unprotected := false, keptS := [], keptV := [], keptQ := [], keptVregs := [], keptPreds := false, shadow := [], movedLines := 0 }

/-- Snapshot words (R39, R41): an s register is its own number; lanes, lane predicates and the scalar predicates follow. -/
def snapV (c reg lane : Nat) : Nat := 32 + (c * 32 + reg) * 16 + lane
def snapQ (c q : Nat) : Nat := 4128 + c * 8 + q
def snapP : Nat := 4192

/-- The snapshot words of a core that a keep writes anew. -/
def snapHit (core : Nat) (js : List Nat) : StorageLoc → Bool
  | .snapshot c n => c.val == core && js.contains n.val
  | _ => false

/-- A region pushed with its copy of the predicates, and its keep window opened (R312, R314). -/
def State.pushRegion (s : State) (r : Region) : State :=
  (s.modCore s.bnd.core (fun c =>
    { c with belay := { c.belay with regions := r :: c.belay.regions }, seq := { c.seq with keepWindow := true } })).overwrite
      (snapHit s.bnd.core [snapP])

/-- Whether the bundle is a delay bundle (R201). -/
def State.inDelay (s : State) : Bool := (s.core s.bnd.core).seq.inDelay

/-- BELAY_BEGIN (R201, R312): a fifth region is a call-depth trap -/
def execBelayBegin (s : State) : Host.Outcome State Fault Refusal :=
  .next (
    if s.inDelay then s.illegalInstruction
    else if 4 ≤ (s.core s.bnd.core).belay.regions.length then s.slotFault 22 0 true []
    else s.pushRegion (s.newRegion false 0 0))

/-- Whether `belay.begin.pitch` names bad handles: equal, or outside the tenant's range (R313). -/
def State.pitchBad (s : State) (core hIn hOut : Nat) : Bool := hIn == hOut || !s.handleOwned core hIn || !s.handleOwned core hOut

/-- Whether hIn and hOut make `belay.begin.pitch` a handle fault once hIn is full or faulted (R313). -/
def State.pitchFault (s : State) (core hIn hOut : Nat) : Bool :=
  let r := s.rope (ropeOf core)
  (r.handle hIn).st == .faulted || (r.handle hIn).refill.isNone || (r.handle hOut).st != .free

/-- BELAY_BEGIN_PITCH (R313): an anchor that waits for hIn; hOut moves to filling -/
def execBelayBeginPitch (hIn hOut : BitVec 6) (s : State) : Host.Outcome State Fault Refusal :=
  let core := s.bnd.core
  .next (
    if s.inDelay then s.illegalInstruction
    else if s.pitchBad core hIn.toNat hOut.toNat then s.illegalOperand
    else if 4 ≤ (s.core core).belay.regions.length then s.slotFault 22 0 true []
    else if s.pitchFault core hIn.toNat hOut.toNat then s.anchorFault 9 0 []
    else
      (s.pushRegion (s.newRegion true hIn.toNat hOut.toNat)).modRope (ropeOf core) (fun r =>
        r.setHandle hOut.toNat { r.handle hOut.toNat with st := .filling, filler := 1 + posOf core }))

/-- Entries of a committed region pass to the next enclosing region that is not a pitch, unless it holds the line (R316). -/
def Belay.commitJournal (b : Belay) (depth : Nat) : List JournalEntry :=
  let n := b.regions.length
  let outer := maximumOf ((upTo n).flatMap (fun i => match b.regions[i]? with
    | some g => if !g.pitch && decide (n - i < depth) then [n - i] else []
    | none => []))
  b.journal.flatMap (fun e =>
    if e.depth ≠ depth then [e]
    else if outer = 0 || b.journal.any (fun f => f.depth == outer && f.line == e.line) then []
    else [{ e with depth := outer }])

/-- The innermost region popped with its journal passed outward; its shadow tiles and moved copies are freed (R316). -/
def Core.popRegion (c : Core) : Core :=
  { c with belay := { c.belay with regions := c.belay.regions.drop 1, journal := c.belay.commitJournal c.belay.regions.length } }

/-- The handles of a committed pitch: hIn released as by `hrel`, hOut full with its tag; none where the states do not allow it
(R66, R316). -/
def State.commitPitch (s : State) (core : Nat) (g : Region) : Option State :=
  let r := s.rope (ropeOf core)
  let tag := (r.handle g.hIn).tag
  if (r.handle g.hIn).st ≠ .full ∨ (r.handle g.hOut).st ≠ .filling then none
  else
    (s.releaseHandle core g.hIn).map (fun t => t.modRope (ropeOf core) (fun r =>
      r.setHandle g.hOut { r.handle g.hOut with st := .full, tag := tag, chk := 0#4, refill := none, filler := 0 }))

/-- BELAY_END (R201, R316): commits and pops the innermost region -/
def execBelayEnd (s : State) : Host.Outcome State Fault Refusal :=
  let core := s.bnd.core
  .next (
    if s.inDelay then s.illegalInstruction
    else match (s.core core).belay.regions with
      | [] => s.illegalOperand
      | g :: _ =>
        if g.pitch then
          match s.commitPitch core g with
          | none => s.anchorFault 9 0 []
          | some t => t.modCore core Core.popRegion
        else s.modCore core Core.popRegion)

/-! ### Keep sets (R314, R323) -/

/-- A keep is legal only in the keep window of the innermost region, in a bundle with no other slot (R314). -/
def State.keepLegal (s : State) : Bool :=
  let c := s.core s.bnd.core
  c.seq.keepWindow && !c.belay.regions.isEmpty && s.bnd.present == slotBit 11

/-- The innermost region changed. -/
def Core.modRegion (c : Core) (f : Region → Region) : Core :=
  { c with belay := { c.belay with regions := match c.belay.regions with
      | [] => []
      | g :: t => f g :: t } }

/-- The registers a literal mask names, without number 0 for the scalar kind. -/
def maskList (lo : Nat) (w : W32) : List Nat := (upTo 32).filter (fun j => decide (lo ≤ j) && bitAt w j)

/-- Registers that an enclosing region holds and this one does not: their copies move into the journal (R314). -/
def movedBy (regions : List Region) (held : Region → List Nat) (js : List Nat) : List Nat :=
  match regions with
  | [] => []
  | g :: outer => js.filter (fun j => !(held g).contains j && outer.any (fun o => (held o).contains j))

/-- A keep of registers into the given snapshot words: with room in the journal for the copies that move, the region takes its own; without room it
becomes unprotected and saves none (R314, R323). DEDUCED, unsafe: log entry 30. -/
def State.keep (s : State) (core lines : Nat) (words : List Nat) (save : Region → Region) : State :=
  if 1024 < (s.core core).belay.used + lines then s.modCore core (fun c => c.modRegion (fun g => { g with unprotected := true }))
  else (s.modCore core (fun c => c.modRegion (fun g => let h := save g; { h with movedLines := h.movedLines + lines }))).overwrite (snapHit core words)

/-- The snapshot words of kept vector registers and of q1–q7, in all eight logical clusters (R41, R314). -/
def keptWords (regs : List Nat) (preds : Bool) : List Nat :=
  (upTo 8).flatMap (fun c => regs.flatMap (fun r => (upTo 16).map (fun i => snapV c r i)) ++
    (if preds then (upTo 7).map (fun q => snapQ c (q + 1)) else []))

/-- BELAY_KEEP_S (R314) -/
def execBelayKeepS (lit : BitVec 4) (s : State) : Host.Outcome State Fault Refusal :=
  let js := maskList 1 (s.lit lit.toNat)
  .next (
    if !s.keepLegal then s.illegalOperand
    else s.portOp js [] (fun t =>
      let c := t.core t.bnd.core
      let moved := movedBy c.belay.regions (fun g => g.keptS.map (·.1)) js
      t.keep t.bnd.core moved.length js (fun g =>
        { g with keptS := js.foldl (fun acc j => tblSet j (t.bnd.lat.regs.sGet j) acc) g.keptS })))

/-- Key of a kept lane by logical cluster. -/
def keptKey (c reg lane : Nat) : Nat := (c * 32 + reg) * 16 + lane

/-- BELAY_KEEP_V (R163, R314): the named registers of all eight logical clusters, with q1–q7 -/
def execBelayKeepV (lit : BitVec 4) (s : State) : Host.Outcome State Fault Refusal :=
  let regs := (maskList 0 (s.lit lit.toNat)).map s.vreg
  let m := s.bm
  let ps := (upTo 8).map m.phys
  let reads := ps.flatMap (fun p => regs.map (vRegKey p) ++ (upTo 7).map (fun q => 10000 + qKey p (q + 1)))
  .next (
    if !s.keepLegal then s.illegalOperand
    else s.portOp reads [] (fun t =>
      let c := t.core t.bnd.core
      let moved := movedBy c.belay.regions (·.keptVregs) regs
      let lanes := (upTo 8).flatMap (fun k => regs.flatMap (fun r => (upTo 16).map (fun i => (keptKey k r i, t.vAt (m.phys k) r i))))
      let qs := (upTo 8).flatMap (fun k => (upTo 7).map (fun q => (qKey k (q + 1), t.qAt (m.phys k) (q + 1))))
      t.keep t.bnd.core (8 * moved.length) (keptWords regs true) (fun g =>
        { g with
            keptV := tblPutAll 0#32 lanes g.keptV,
            keptQ := tblPutAll 0#16 qs g.keptQ,
            keptPreds := true,
            keptVregs := g.keptVregs ++ regs.filter (fun r => !g.keptVregs.contains r) })))

/-- The elements of a tile. -/
def Core.tileElems (c : Core) (tile : Nat) : Tbl W32 :=
  c.mx.tiles.filter (fun e => decide (tile * 4096 ≤ e.1) && decide (e.1 < (tile + 1) * 4096))

/-- BELAY_KEEP_A (R42, R44, R314, R323): tiles into the shadow pool of sixteen -/
def execBelayKeepA (o : KeepAOp) (s : State) : Host.Outcome State Fault Refusal :=
  let t := o.tile.toNat
  let n := o.nm1.toNat + 1
  let core := s.bnd.core
  let c := s.core core
  let tiles := (upTo n).map (fun i => t + i)
  .next (
    if !s.keepLegal || decide (192 < t + n) then s.illegalOperand
    else if c.tilesBusy t n then s.timingFault 6
    else
      let mine := match c.belay.regions with
        | g :: _ => g.shadow.map (fun (x : Nat × Tbl W32 × Bool) => x.1)
        | [] => []
      let fresh := tiles.filter (fun i => !mine.contains i)
      let used := (c.belay.regions.map (fun g => g.shadow.length)).foldl (· + ·) 0
      if 16 < used + fresh.length then s.setCore core (c.modRegion (fun g => { g with unprotected := true }))
      else
        (s.consume core (fun loc => match loc with
          | .tile x i _ _ => x.val == core && tiles.contains i.val
          | _ => false)).modCore core (fun c => c.modRegion (fun g =>
            { g with shadow := g.shadow.filter (fun x => !tiles.contains x.1) ++ tiles.map (fun i => (i, c.tileElems i, bitAt c.mx.ovf i)) })))

/-! ### cmpt (R317, R318) -/

/-- The registers a `cmpt` reads. -/
def State.cmptReads (s : State) (o : CmptOp) : List Nat :=
  if o.v = 0#1 then [o.a.toNat, o.b.toNat]
  else ((upTo 8).map s.bm.phys).flatMap (fun p => [vRegKey p (s.vreg o.a.toNat), vRegKey p (s.vreg o.b.toNat)])

/-- Whether the compared values differ, on latched operands. -/
def State.cmptDiffers (s : State) (o : CmptOp) : Bool :=
  if o.v = 0#1 then s.rdPlain o.a != s.rdPlain o.b
  else ((upTo 8).map s.bm.phys).any (fun p =>
    (upTo 16).any (fun i => s.vAt p (s.vreg o.a.toNat) i != s.vAt p (s.vreg o.b.toNat) i))

/-- CMPT (R317, R318): a difference is a detected error of the core -/
def execCmpt (o : CmptOp) (s : State) : Host.Outcome State Fault Refusal :=
  .next (s.portOp (s.cmptReads o) [] (fun t => if t.cmptDiffers o then t.detect t.bnd.core else t))

end Sys2Proof.Machine
end

