-- ==== Sys2Proof/Machine/System.lean ====
section
/-!
DEFINITION. System forms of the SY slot (R347–R358): `trap` and `sys`, the CSR forms and what a CSR reads as, `yield` and `wfi`,
self-tests, and the locks of the instruction store.
-/

namespace Sys2Proof.Machine

/-! ### trap, sys, yield, wfi (R349, R351, R352) -/

/-- TRAP (R349): cause 23; the slot is complete -/
def execTrap (_code : BitVec 16) (s : State) : Host.Outcome State Fault Refusal := .next (s.slotFault 23 0 false [])

/-- SYS (R349): cause 24; the slot is complete -/
def execSys (_code : BitVec 16) (s : State) : Host.Outcome State Fault Refusal := .next (s.slotFault 24 0 false [])

/-- YIELD (R351): the context may have left its core before this bundle issues; in trap mode an illegal instruction -/
def execYield (s : State) : Host.Outcome State Fault Refusal := .next (if s.bnd.handler then s.illegalInstruction else s)

/-- WFI (R352): with WAKE alone it clears WAKE; in trap mode an illegal instruction -/
def execWfi (s : State) : Host.Outcome State Fault Refusal :=
  .next (
    if s.bnd.handler then s.illegalInstruction
    else
      let v := (s.core s.bnd.core).csrGet 0x103
      if bitAt v 0 || bitAt v 1 then s else s.modCore s.bnd.core (fun c => c.csrSet 0x103 (setBit v 2 false)))

/-! ### What CSRs read as (R363) -/

/-- User and privileged CSR numbers, and those with no writable field (R363). -/
def csrUser : List Nat :=
  [0x001, 0x002, 0x003, 0x004, 0x005, 0x006, 0x007, 0x008, 0x009, 0x00A, 0x00B, 0x010, 0x011, 0x012, 0x013, 0x014, 0x015, 0x200, 0x201, 0x202]
def csrPrivileged : List Nat :=
  [0x040, 0x041, 0x042, 0x043, 0x044, 0x045, 0x100, 0x101, 0x102, 0x103, 0x104, 0x300, 0x301, 0x380, 0x381]
def csrReadOnly : List Nat := [0x00B, 0x010, 0x011, 0x012, 0x013, 0x014, 0x015, 0x040, 0x042, 0x043, 0x202]

/-- A field of each open region, outermost first, from a bit up. -/
def regionField (base width : Nat) (f : Region → Nat) : List Region → Nat
  | [] => 0
  | g :: t => f g % 2 ^ width * 2 ^ base + regionField (base + width) width f t

/-- BELAYSTAT (R324). -/
def Core.belaystat (c : Core) : W64 :=
  let rs := c.belay.regions.reverse
  BitVec.ofNat 64 (bitsNat (c.csrGet 0x006) 63 32 * 2 ^ 32 + rs.length % 8 * 2 ^ 24 + regionField 20 1 (fun g => if g.pitch then 1 else 0) rs +
    regionField 16 1 (fun g => if g.unprotected then 1 else 0) rs + regionField 0 4 (·.retry) rs)

/-- Fetches of `ilock` and `ipref` still to come, and the addresses of blocks locked or to be locked (R357). -/
def Core.prefetches (c : Core) : List CodeFetch := c.code.fetches.filter (fun f => !f.forIssue)
def Core.lockAddrs (c : Core) : List (BitVec 48) :=
  (c.prefetches.filter (·.lock)).foldl (fun acc f => if acc.contains f.addr then acc else acc ++ [f.addr]) (c.lockedBlocks.map (·.addr))

/-- ILOCKSTAT (R358). -/
def Core.ilockstat (c : Core) : W64 :=
  BitVec.ofNat 64 (bitsNat (c.csrGet 0x00A) 17 16 * 2 ^ 16 + c.prefetches.length % 256 * 2 ^ 8 + c.lockAddrs.length % 256)

/-- TBINV (R35): the fields last written, and BUSY. -/
def Die.tbinvRead (d : Die) : W64 := d.tbinvVal ||| (if d.tbinv.isSome then 0x80000000#64 else 0#64)

/-- What a CSR reads as on a core (R363). -/
def State.csrRead (s : State) (core num : Nat) : W64 :=
  let c := s.core core
  let r := s.rope (ropeOf core)
  let d := s.die (dieOf core)
  if num = 0x005 then c.mxstat
  else if num = 0x006 then c.belaystat
  else if num = 0x00A then c.ilockstat
  else if num = 0x200 then r.celate.setWidth 64
  else if num = 0x201 then r.cefinfo
  else if num = 0x202 then r.cefaddr
  else if num = 0x300 then d.tbinvAddr
  else if num = 0x301 then d.tbinvRead
  else if num = 0x380 then d.vmargin
  else if num = 0x381 then d.linkmargin
  else c.csrGet num

/-! ### The CSR forms (R350) -/

/-- The four CSR forms. -/
inductive CsrForm where
  | read | write | set | clear
  deriving DecidableEq, Repr

/-- The value a form writes (R350). -/
def CsrForm.new (f : CsrForm) (old a : W64) : W64 :=
  match f with
  | .read => old
  | .write => a
  | .set => old ||| a
  | .clear => old &&& ~~~a

/-- Whether a form writes its CSR: only `csrc` in trap mode writes MXSTAT (R259, R350). -/
def State.csrWrites (s : State) (o : CsrOp) (f : CsrForm) : Bool :=
  f != .read && o.a != 0#5 && (o.num != 0x005#12 || (f == .clear && s.bnd.handler))

/-- A CSR form: the old value lands in sD at +1, and the CSR is written at +1 (R350). -/
def State.csrSlot (s : State) (o : CsrOp) (f : CsrForm) : State :=
  let n := o.num.toNat
  if !csrUser.contains n && !csrPrivileged.contains n then s.illegalInstruction
  else if csrPrivileged.contains n && !s.bnd.handler then s.slotFault 4 0 true []
  else if f != .read && o.a != 0#5 && csrReadOnly.contains n then s.illegalInstruction
  else
    s.portOp (if f = .read then [] else [s.sIdx o.a]) [s.sIdx o.d] (fun t =>
      let old := t.csrRead t.bnd.core n
      let t1 := t.landRegs 1 [.s (t.sIdx o.d) old]
      if t.csrWrites o f then t1.land 1 (.csr n (f.new old (t.rdS o.a))) 0#6 0 0 0 0 else t1)

/-- CSRR (R350) -/
def execCsrr (o : CsrOp) (s : State) : Host.Outcome State Fault Refusal := .next (s.csrSlot o .read)
/-- CSRW (R350) -/
def execCsrw (o : CsrOp) (s : State) : Host.Outcome State Fault Refusal := .next (s.csrSlot o .write)
/-- CSRS (R350) -/
def execCsrs (o : CsrOp) (s : State) : Host.Outcome State Fault Refusal := .next (s.csrSlot o .set)
/-- CSRC (R350) -/
def execCsrc (o : CsrOp) (s : State) : Host.Outcome State Fault Refusal := .next (s.csrSlot o .clear)

/-! ### bist (R354, R355) -/

/-- Cycles of a group's test (R354). -/
def bistCycles : List Nat := [2048, 8192, 8192, 2048, 32768, 98304, 786432, 4096, 8192]

/-- Cycles of the tests a mask asks for. -/
def bistTime (mask : Nat) : Nat := ((upTo 9).map (fun i => if field mask i 1 = 1 then nth 0 bistCycles i else 0)).foldl (· + ·) 0

/-- The units of a group that the map names (R354). -/
def bistUnits (group : Nat) : List Nat :=
  match group with
  | 0 => upTo 3
  | 1 => (upTo 54).map (· + 3)
  | 2 => (upTo 9).map (· + 57)
  | 3 => (upTo 9).map (· + 66)
  | 4 => [arrayKey]
  | _ => []

/-- How many units a group names in UNIT; none for groups 4, 7 and 8 (R355). -/
def bistUnitCount : List Nat := [3, 54, 9, 9, 0, 192, 32, 0, 0]

/-- BISTSTAT from what the patterns found (R355): `found` is a free value. -/
def biststatWord (mask : Nat) (found : W64) : W64 :=
  let fail := Nat.land (bitsNat found 56 48) mask
  match (upTo 9).find? (fun i => field fail i 1 == 1) with
  | none => BitVec.ofNat 64 (mask * 2 ^ 32 + 15)
  | some g =>
    let n := nth 0 bistUnitCount g
    BitVec.ofNat 64 (fail * 2 ^ 48 + mask * 2 ^ 32 + (if n = 0 then 0 else bitsNat found 23 16 % n) * 2 ^ 16 + g)

/-- The core stops in this cycle with its results in flight, as in a trap (R354). -/
def Core.stopForTest (c : Core) (now : Nat) (mask : W64) : Core :=
  { c with
    slip := some (now, c.inflight.filter (fun l => decide (now < l.at_))),
    inflight := c.inflight.filter (fun l => decide (l.at_ ≤ now)),
    test := some (mask, now),
    seq := { c.seq with run := .testing, idle := 0 } }

/-- BIST (R354): a mask above bit 8, or an open region, is an illegal operand; a zero mask tests nothing. DEDUCED, unsafe: log entry 45. -/
def execBist (a : BitVec 5) (s : State) : Host.Outcome State Fault Refusal :=
  .next (s.portOp [a.toNat] [] (fun t =>
    let core := t.bnd.core
    let mask := t.rdPlain a
    if 2 ^ 9 ≤ mask.toNat ∨ !(t.core core).belay.regions.isEmpty then t.illegalOperand
    else if mask = 0#64 then t.modCore core (fun c => c.csrSet 0x00B (biststatWord 0 0#64))
    else (t.modCore core (fun c => c.stopForTest t.cycle mask)).schedule (resumeCycle t.cycle (t.cycle + bistTime mask.toNat)) 0
      (.bistComplete (coreId core))))

/-- A group's state after its test (R354). -/
def Core.wipeGroup (c : Core) (group : Nat) : Core :=
  match group with
  | 3 => { c with xt := c.xt.map (fun e => (e.1, { Transposer.reset with esize := e.2.esize })) }
  | 4 => { c with mx := { c.mx with rowBuf := [], scaleQ := [], scaleIssue := [], run := .reset } }
  | 5 => { c with mx := { c.mx with tiles := [], ovf := 0#192 } }
  | 7 => { c with regs := { s := c.regs.s.filter (fun e => decide (32 ≤ e.1)), p := 0#8, v := [], q := [] } }
  | _ => c

/-- Whether a group's test writes a stored word of the core. -/
def groupHit (core group : Nat) : StorageLoc → Bool
  | .scalarReg c n => group == 7 && c.val == core && decide (n.val < 32)
  | .vectorLane c _ _ _ => group == 7 && c.val == core
  | .lanePred c _ _ => group == 7 && c.val == core
  | .scalarPreds c => group == 7 && c.val == core
  | .loopIndex _ _ => false
  | .snapshot c _ => group == 7 && c.val == core
  | .tile c _ _ _ => group == 5 && c.val == core
  | .bstore c _ => group == 6 && c.val == core
  | .scratch _ _ => false
  | .laneWord _ _ _ => false
  | .hbm _ => false

/-- The state a group's test destroys (R354). -/
def State.wipeTested (s : State) (core group : Nat) : State :=
  let s1 := (s.modCore core (fun c => c.wipeGroup group)).overwrite (groupHit core group)
  if group = 6 then { s1 with mem := wipeRange s1.mem (keyB core 0) (keyB core 0x17FFFFF) } else s1

/-- BIST_COMPLETE (R354, R355): the tested groups are wiped, BISTSTAT tells what failed, units that passed no longer count as used since
their last passing test (R317), and the core goes on with its results as R346 gives -/
def execBistComplete (core : CoreId) (s : State) : Host.Outcome State Fault Refusal :=
  let c := s.core core.val
  match c.test, c.slip with
  | some t, some w =>
    let mask := t.1.toNat
    let groups := (upTo 9).filter (fun i => field mask i 1 == 1)
    let stat := biststatWord mask (Config.bistResult (s.freeIndex (coreAgent core.val)))
    let passed := (groups.filter (fun g => !bitAt stat (48 + g))).flatMap bistUnits
    let s1 := groups.foldl (fun acc g => acc.wipeTested core.val g) (s.useFree (coreAgent core.val))
    let k := s.cycle - w.1
    let ls := w.2.map (Landing.shift k)
    .next ((s1.modCore core.val (fun c =>
      { c.csrSet 0x00B stat with
          slip := none,
          test := none,
          used := c.used.filter (fun u => !passed.contains u),
          owedAt := if c.owed.isEmpty then c.owedAt else s.cycle,
          inflight := c.inflight ++ ls,
          td := c.td.shift k,
          mx := if c.frame.isSome then c.mx else c.mx.delay w.1 k,
          seq := { c.seq with run := .running, nextIssue := c.seq.nextIssue + k } })).thaw core.val k s.cycle c.frame.isSome ls)
  | _, _ => .next s

/-! ### ilock, iunlock, ipref (R357) -/

/-- The operands of a lock form: a start address and a bundle count (R357). -/
def State.lockSlot (s : State) (a b : BitVec 5) (all : Bool) (body : Nat → Nat → State → State) : State :=
  s.portOp [a.toNat, b.toNat] [] (fun t =>
    let v := t.rdPlain a
    let n := (t.rdPlain b).toNat
    if all && n == 0 then body v.toNat 0 t
    else if bitsNat v 63 48 ≠ 0 ∨ bitsNat v 5 0 ≠ 0 ∨ n = 0 ∨ 4096 < n then t.illegalOperand
    else body v.toNat n t)

/-- Fetch a block for `ilock` or `ipref` unless it is resident (R357). -/
def State.prefetch (s : State) (core : Nat) (lock : Bool) (addr : BitVec 48) : State :=
  if ((s.core core).block addr).isSome then s else s.startFetch core addr false lock

/-- Lock state of the running image's resident blocks in a range, and of those on their way. -/
def Core.setLocks (c : Core) (hit : BitVec 48 → Bool) (on : Bool) : Core :=
  { c with code := { c.code with
      blocks := listMod (fun b => c.ownBlock b && hit b.addr) (fun b => { b with locked := on }) c.code.blocks,
      fetches := listMod (fun f => !f.forIssue && hit f.addr) (fun f => { f with lock := on }) c.code.fetches } }

/-- ILOCK (R357): at most 128 blocks of the running image; beyond that OVER is set and nothing is locked -/
def execIlock (a b : BitVec 5) (s : State) : Host.Outcome State Fault Refusal :=
  .next (s.lockSlot a b false (fun v n t =>
    let core := t.bnd.core
    let c := t.core core
    let blocks := rangeBlocks v n
    let fresh := blocks.filter (fun x => !c.lockAddrs.contains x)
    if 128 < c.lockAddrs.length + fresh.length then t.setCore core (c.stick t.cycle 16)
    else blocks.foldl (fun acc x => acc.prefetch core true x) (t.setCore core (c.setLocks (fun x => blocks.contains x) true))))

/-- IUNLOCK (R357): the range's blocks, or with a zero count every block of the running image; they stay resident -/
def execIunlock (a b : BitVec 5) (s : State) : Host.Outcome State Fault Refusal :=
  .next (s.lockSlot a b true (fun v n t =>
    let blocks := rangeBlocks v n
    t.modCore t.bnd.core (fun c => c.setLocks (fun x => n == 0 || blocks.contains x) false)))

/-- IPREF (R357) -/
def execIpref (a b : BitVec 5) (s : State) : Host.Outcome State Fault Refusal :=
  .next (s.lockSlot a b false (fun v n t => (rangeBlocks v n).foldl (fun acc x => acc.prefetch t.bnd.core false x) t))

end Sys2Proof.Machine
end

