-- ==== Sys2Proof/Machine/Maps.lean ====
section
/-!
DEFINITION. Die maps (R364–R379): their bytes and class keys, what an image matches, health samples and retests, and the publication of a
new version.
-/

namespace Sys2Proof.Machine

/-! ### Bits and fields (R370–R374) -/

/-- Fields of one width packed into a natural, the first lowest. -/
def packFields (width : Nat) : List Nat → Nat
  | [] => 0
  | x :: t => x % 2 ^ width + 2 ^ width * packFields width t

/-- The pairs c < c′ of eight clusters, in the order of R372. -/
def clusterPairs : List (Nat × Nat) := (upTo 8).flatMap (fun i => ((upTo 8).filter (fun j => decide (i < j))).map (fun j => (i, j)))

/-- The projection of a core: 64 bytes that fix its code-visible timing (R374). -/
def projection (c : CoreMap) (r : RopeMap) : List Byte :=
  let ps := (upTo 8).map c.phys
  leBytes 1 c.scal.toNat ++ leBytes 1 (packFields 2 (c.arrayAdd :: (upTo 3).map c.scalAdd)) ++
    leBytes 2 (packFields 2 ((upTo 6).map c.effCol)) ++ leBytes 2 (packFields 2 ((upTo 6).map c.effAdd)) ++
    leBytes 2 (packFields 2 (ps.map c.xfSt)) ++ leBytes 2 (packFields 2 (ps.map c.xtSt)) ++
    leBytes 2 (packFields 2 (ps.map c.xfAdd)) ++ leBytes 2 (packFields 2 (ps.map c.xtAdd)) ++
    leBytes 14 (packFields 4 (clusterPairs.map (fun p => c.distance (c.phys p.1) (c.phys p.2)))) ++
    leBytes 4 r.hop.toNat ++ leBytes 2 r.deadln.toNat ++ copies 30 0#8

/-- A core's class key (R374). -/
def classKey (c : CoreMap) (r : RopeMap) : List Byte := hash128 (projection c r)

/-- Class keys of the 64 cores of a map, and the class table (R374). -/
def DieMap.keys (m : DieMap) : List (List Byte) := (upTo 64).map (fun k => classKey (m.core k) (m.rope (k / 4)))
def classTable (keys : List (List Byte)) : List (List Byte) := keys.foldl (fun acc k => if acc.contains k then acc else acc ++ [k]) []

/-- A core record (R372). -/
def coreRecord (c : CoreMap) (cls : Nat) : List Byte :=
  leBytes 2 cls ++ leBytes 1 c.scal.toNat ++ [0#8] ++ leBytes 4 c.bind.toNat ++ leBytes 16 c.colst.toNat ++ leBytes 8 c.xst.toNat ++
    leBytes 16 c.coladd.toNat ++ leBytes 8 c.xadd.toNat ++ leBytes 24 c.dist.toNat ++ leBytes 24 c.spared.toNat ++ leBytes 4 c.brep.toNat ++
    leBytes 4 c.csince ++ copies 16 0#8

/-- A rope record (R373). -/
def ropeRecord (r : RopeMap) : List Byte := leBytes 4 r.hop.toNat ++ leBytes 2 r.deadln.toNat ++ leBytes 2 r.bankrep.toNat ++ copies 8 0#8

/-- Index of an element in a list. -/
def indexOf {α : Type} [DecidableEq α] (a : α) : List α → Nat
  | [] => 0
  | x :: t => if x = a then 0 else 1 + indexOf a t

/-- The map's bytes without the signature (R370, R371). -/
def DieMap.unsigned (m : DieMap) (die : Nat) : List Byte :=
  let keys := m.keys
  let table := classTable keys
  let classes := table.flatten
  let size := 0x2180 + roundUp classes.length 64 + 512
  leBytes 8 0x000000014B444D41 ++ leBytes 16 (Config.specimen die).toNat ++ leBytes 4 m.version ++ leBytes 1 die ++ [1#8] ++
    leBytes 2 table.length ++ leBytes 8 m.pubCyc ++ leBytes 4 size ++ copies 4 0#8 ++ (m.prev ++ copies (16 - m.prev.length) 0#8) ++
    (upTo 64).flatMap (fun k => coreRecord (m.core k) (indexOf (nth [] keys k) table)) ++
    (upTo 16).flatMap (fun k => ropeRecord (m.rope k)) ++
    leBytes 2 m.latW.toNat ++ leBytes 2 m.latE.toNat ++ leBytes 2 m.latC.toNat ++ copies 58 0#8 ++
    classes ++ copies (roundUp classes.length 64 - classes.length) 0#8

/-- The key id of a die's identity key: the first 128 bits of the hash of the public key, as the certificate lists it (R398, R452, R453). -/
def dieKey (die : Nat) : List Byte := hash128 (leBytes 512 (Config.dieModulus die).toNat)

/-- The signed map (R370): signed with the die's identity key. -/
def DieMap.signed (m : DieMap) (die : Nat) : List Byte :=
  let b := m.unsigned die
  b ++ leBytes 512 (Config.rsaSign (dieKey die) b).toNat

/-- The bytes of a published map. -/
def DieMap.content (m : DieMap) (die : Nat) : List Byte := if m.bytes.isEmpty then m.signed die else m.bytes

/-- The package map digest: the first 128 bits of the hash of the 32 current maps in die order (R181). -/
def State.packageDigest (s : State) : List Byte := hash128 ((upTo 32).flatMap (fun d => ((s.die d).mapAt s.cycle).content d))

/-! ### Matching and choosing images (R375, R410) -/

/-- Whether an image matches a core under the map in force (R375). -/
def State.imageMatches (s : State) (i : Image) (core : Nat) : Bool :=
  let m := (s.die (dieOf core)).mapAt s.cycle
  let c := m.core core
  i.specimen == leBytes 16 (Config.specimen (dieOf core)).toNat && i.classes.contains (classKey c (m.rope (ropeOf core))) &&
    decide (c.csince ≤ i.mapver) && decide (i.mapver ≤ m.version)

/-- Whether a core's next launch can take an image's dispatch mode: a `DISPMODE` write by software, which takes effect there, must name it (R164,
R384). -/
def State.modeFits (s : State) (i : Image) (core : Nat) : Bool :=
  match (s.core core).dispNext with
  | some v => v.toNat % 2 == i.mode
  | none => true

/-- The loader's status for an image on a core: 0x3A, map mismatch, or 0 (R384). -/
def State.loaderStatus (s : State) (i : Image) (core : Nat) : Nat := if s.imageMatches i core && s.modeFits i core then 0 else 0x3A

/-- Whether an image is eligible on a core: no masked feature, the right kernel and size, and not refused, at upload or for this core (R384, R402,
R410). -/
def State.imageEligible (s : State) (o : BuzilObject) (kernel ncore : Nat) (i : Image) (core : Nat) : Bool :=
  i.kernel == kernel && i.ncore == ncore && !o.badSections.contains i.index &&
    Nat.land i.featreq (64 - 1 - (s.partition o.tenant).policy.toNat % 64) == 0 && s.loaderStatus i core == 0

/-- Whether an image is an exact match for a core's die (R410). -/
def State.imageExact (s : State) (i : Image) (core : Nat) : Bool := i.mapver == ((s.die (dieOf core)).mapAt s.cycle).version

/-- Whether an image ranks before another on a core: exact match, feature level, section index (R410). -/
def State.imageBefore (s : State) (core : Nat) (a b : Image) : Bool :=
  let ea := s.imageExact a core
  let eb := s.imageExact b core
  if ea != eb then ea
  else if a.featlvl ≠ b.featlvl then decide (b.featlvl < a.featlvl)
  else decide (a.index < b.index)

/-- The best of a list in an order. -/
def bestOf {α : Type} (before : α → α → Bool) : List α → Option α
  | [] => none
  | x :: t => match bestOf before t with
    | none => some x
    | some y => some (if before y x then y else x)

/-- The native image chosen for a core (R410). -/
def State.chooseImage (s : State) (o : BuzilObject) (kernel ncore core : Nat) : Option Image :=
  bestOf (s.imageBefore core) ((objImages o.bytes).filter (fun i => s.imageEligible o kernel ncore i core))

/-- The first section number of translated images: above it comes the number of the translation. -/
def translatedSection : Nat := 256

/-- Whether an ok unit of a unit's kind serves a core: an ALU, a vector column under R369; of the others there is one for each cluster or core. -/
def CoreMap.kindOk (m : CoreMap) (key : Nat) : Bool :=
  if key < 3 then (upTo 3).any (fun n => m.scalSt n == 0) else if key < 57 then (upTo 6).any (fun e => m.effCol e == 0) else false

/-- Whether a translation may use a unit: an ok one; a half one where no ok one of its kind serves; never a retiring or a dead one (R418). -/
def CoreMap.mayUse (m : CoreMap) (key : Nat) : Bool :=
  let st := if 3 ≤ key ∧ key < 57 then m.effCol ((key - 3) % 6) else m.keyState key
  st == 0 || (st == 1 && !m.kindOk key)

/-- Whether an image is one that R412 and R418 allow as the translation of a kernel: it has the kernel's resume points, well formed, and its bundles
use such units only. -/
def translationOk (k : List Byte) (m : CoreMap) (i : Image) : Bool :=
  i.resumes.map (·.desc) == prikorResume k &&
    (upTo i.nrp).all (fun n =>
      let e := resumeEntry i.resume n
      e.wf && e.desc.rpid == n && decide (e.bundle < i.nbundle) && decide (e.ref + e.nrefp ≤ i.nref)) &&
    decide (1 ≤ i.nbundle) && decide (64 * i.nbundle ≤ i.body.length) && i.launch.length == 64 &&
    (upTo i.nbundle).all (fun n => (unitsReached m (bundleWord (octets i.body (64 * n) 64))).all m.mayUse)

/-- The translated image of a key on a core of its class (R418, R419): a lockstep image of the kernel for the key's specimen, class and map version, the
first of the translator's answers that is one R412 and R418 allow; none where the object has no Prikor section (R413), the kernel's body is refused
(R416), or translation fails. What it computes for the kernel is `prikorResult` (R419). -/
def translateKey (o : BuzilObject) (t : TransKey) (m : CoreMap) : Option Image :=
  match ((objPrikor o.bytes).getD []).find? (fun k => natAt k 0 4 == t.kernel) with
  | none => none
  | some k =>
    if !prikorAccepted k then none
    else (upTo 65536).findSome? (fun n =>
      let b := Config.prikorTranslate t.objHash t.kernel t.specimen t.classKey t.mapVersion t.policy n
      let i : Image :=
        { imageOf (translatedSection + t.num) b with
            kernel := t.kernel, mode := 0, specimen := leBytes 16 t.specimen.toNat, classes := [t.classKey], mapver := t.mapVersion,
            ncore := match objKernel o.bytes t.kernel with
              | some g => g.ncore
              | none => 0 }
      if translationOk k m i then some i else none)

/-- The key under which a kernel is translated for a core: that of a translation the loader holds which still matches the core (R375, R380, R395), else a
new one at the map in force. -/
def State.transKey (s : State) (o : BuzilObject) (kernel core : Nat) : TransKey :=
  let m := (s.die (dieOf core)).mapAt s.cycle
  let c := m.core core
  let t : TransKey :=
    { num := s.nextId, objHash := objTag o.bytes, kernel := kernel, specimen := Config.specimen (dieOf core),
      classKey := classKey c (m.rope (ropeOf core)), mapVersion := m.version, policy := (s.partition o.tenant).policy }
  (s.disp.cache.find? (fun e => { e with num := t.num, mapVersion := t.mapVersion } == t && decide (c.csince ≤ e.mapVersion) &&
    decide (e.mapVersion ≤ m.version))).getD t

/-- The translated image for a core under the map in force, with its key. -/
def State.translate (s : State) (o : BuzilObject) (kernel core : Nat) : Option (TransKey × Image) :=
  let t := s.transKey o kernel core
  (translateKey o t (((s.die (dieOf core)).mapAt s.cycle).core core)).map (fun i => (t, i))

/-- The image a core runs: the best native image that matches it, or a translation, with its key (R410). A translation is a lockstep image: a core whose next
launch takes no such mode has none (R384). -/
def State.imageChoice (s : State) (o : BuzilObject) (kernel ncore core : Nat) : Option (Option TransKey × Image) :=
  ((s.chooseImage o kernel ncore core).map (fun i => (none, i))).or
    (((s.translate o kernel core).filter (fun p => s.modeFits p.2 core)).map (fun p => (some p.1, p.2)))
def State.imageFor (s : State) (o : BuzilObject) (kernel ncore core : Nat) : Option Image := (s.imageChoice o kernel ncore core).map (·.2)

/-- The loader holds the translation that a core gets (R419). -/
def State.cacheImage (s : State) (t : Option TransKey) : State :=
  match t with
  | none => s
  | some t => if s.disp.cache.contains t then s
    else { s with nextId := max s.nextId (t.num + 1), disp := { s.disp with cache := s.disp.cache ++ [t] } }

/-- The object and image that a core's launch runs. -/
def State.objectOf (s : State) (tag : List Byte) : Option BuzilObject := s.disp.objects.find? (fun o => o.status != 0x39 && objTag o.bytes == tag)
def State.imageRunning (s : State) (core : Nat) : Option Image :=
  match (s.core core).launch with
  | none => none
  | some l => match s.objectOf l.objHash, l.trans with
    | none, _ => none
    | some o, some t => translateKey o t ((s.bindMap core).core core)
    | some o, none => (objImages o.bytes).find? (fun i => i.index == l.section_)

/-- The resume point of the running image at a bundle under a return stack (R478). -/
def State.resumePoint (s : State) (core : Nat) (pc : BitVec 48) : Option ResumeEntry :=
  match (s.core core).launch, s.imageRunning core with
  | some l, some i =>
    i.resumes.find? (fun e => pc == l.ib + BitVec.ofNat 48 (64 * e.bundle) &&
      (s.core core).seq.rets.reverse == e.rets.map (fun k => l.ib + BitVec.ofNat 48 (64 * k)))
  | _, _ => none

/-! ### Measured records (R364–R367) -/

/-- The record of a core or rope of a die as last measured: that of the map in force until something changed. -/
def State.measuredCore (s : State) (die k : Nat) : CoreMap := tblGet (((s.die die).mapAt s.cycle).core k) k (s.die die).measuredCores
def State.measuredRope (s : State) (die k : Nat) : RopeMap := tblGet (((s.die die).mapAt s.cycle).rope k) k (s.die die).measuredRopes

/-- Key of a unit within its core. -/
def unitKey : UnitRef → Option (Nat × Nat)
  | .scalar c n => some (c.val, n.val)
  | .column c p e => some (c.val, colKey p.val e.val)
  | .xf c p => some (c.val, xfKey p.val)
  | .xt c p => some (c.val, xtKey p.val)
  | .matrix c => some (c.val, arrayKey)
  | .segment _ _ => none
  | .lane _ _ => none

/-- A field of a bit vector replaced. -/
def putField {n : Nat} (w : BitVec n) (l k v : Nat) : BitVec n := BitVec.ofNat n (setField w.toNat l k v)

/-- A core record with a unit's state bits set (R372). -/
def CoreMap.stateBits (m : CoreMap) (key st : Nat) : CoreMap :=
  if key < 3 then { m with scal := putField m.scal (2 * key) 2 st }
  else if key < 57 then { m with colst := putField m.colst (12 * ((key - 3) / 6) + 2 * ((key - 3) % 6)) 2 st }
  else if key < 66 then { m with xst := putField m.xst (2 * (key - 57)) 2 st }
  else if key < 75 then { m with xst := putField m.xst (2 * (key - 66) + 18) 2 st }
  else { m with scal := putField m.scal 6 2 st }

/-- A core record with a unit's state set: a half unit that becomes retiring keeps its rate (R367). -/
def CoreMap.withState (m : CoreMap) (key st : Nat) : CoreMap :=
  { m.stateBits key st with slow := if st = 2 ∧ m.keyState key = 1 then m.slow ++ [key] else m.slow }

/-- A unit's adder, and a core record with it set (R372). -/
def CoreMap.keyAdd (m : CoreMap) (key : Nat) : Nat :=
  if key < 3 then m.scalAdd key
  else if key < 57 then m.colAdd ((key - 3) / 6) ((key - 3) % 6)
  else if key < 66 then m.xfAdd (key - 57)
  else if key < 75 then m.xtAdd (key - 66)
  else m.arrayAdd
def CoreMap.withAdd (m : CoreMap) (key a : Nat) : CoreMap :=
  if key < 3 then { m with xadd := putField m.xadd (36 + 2 * key) 2 a }
  else if key < 57 then { m with coladd := putField m.coladd (12 * ((key - 3) / 6) + 2 * ((key - 3) % 6)) 2 a }
  else if key < 66 then { m with xadd := putField m.xadd (2 * (key - 57)) 2 a }
  else if key < 75 then { m with xadd := putField m.xadd (2 * (key - 66) + 18) 2 a }
  else { m with xadd := putField m.xadd 42 2 a }

/-- A changed record waits for the next publication; the first one asks for it (R378). -/
def State.recordCore (s : State) (die k : Nat) (m : CoreMap) : State :=
  if m = s.measuredCore die k then s
  else
    let d := s.die die
    let s1 := s.setDie die { d with measuredCores := tblSet k m d.measuredCores, dirty := true }
    if d.dirty then s1 else s1.scheduleFree 6 (.mapPublication (dieId die))
def State.recordRope (s : State) (die k : Nat) (m : RopeMap) : State :=
  if m = s.measuredRope die k then s
  else
    let d := s.die die
    let s1 := s.setDie die { d with measuredRopes := tblSet k m d.measuredRopes, dirty := true }
    if d.dirty then s1 else s1.scheduleFree 6 (.mapPublication (dieId die))

/-- Whether a unit of a core is bound: one of the spare cluster is not. -/
def CoreMap.bindsKey (m : CoreMap) (key : Nat) : Bool :=
  let bound (p : Nat) : Bool := ((upTo 8).map m.phys).contains p
  if key < 3 then true else if key < 57 then bound ((key - 3) / 6) else if key < 66 then bound (key - 57) else if key < 75 then bound (key - 66) else true

/-- A unit is declared dead: a unit-failure event for the core that has used it since its last passing test, unless the context is at its landing point
or no longer has the unit bound: it does not use the unit then (R317, R365, R381, R395). -/
def State.unitDies (s : State) (die core key : Nat) (u : UnitRef) : State :=
  let c := 64 * die + core
  let s1 := (s.recordCore die core ((s.measuredCore die core).withState key 3)).modDie die (fun d =>
    if d.failed.any (·.1 == u) then d else { d with failed := d.failed ++ [(u, s.cycle)] })
  if (s.core c).used.contains key && (s.core c).launch.isSome && (s.core c).seq.run != .saving && ((s.bindMap c).core c).bindsKey key then (s1.modCore c (fun x => { x with evacuate := true })).detect c else s1

/-- HEALTH_SAMPLE (R365): the margin of a unit or a segment; the health engine of a die in reset does not run (R452). DESIGN CHOICE, safe: log entry 74. -/
def execHealthSample (die : DieId) (unit : UnitRef) (margin : Nat) (s : State) : Host.Outcome State Fault Refusal :=
  if (s.die die.val).inReset then .next s else
  match unitKey unit with
  | some (core, key) =>
    let m := s.measuredCore die.val core
    let st := m.keyState key
    .next (
      if 8 ≤ margin ∨ st = 3 then s
      else if margin < 2 then s.unitDies die.val core key unit
      else if st ≤ 1 then s.recordCore die.val core (m.withState key 2)
      else s)
  | none =>
    match unit with
    | .segment rope seg =>
      let r := s.measuredRope die.val rope.val
      let k := 32 * rope.val + seg.val
      if margin < 8 && !bitAt r.hop seg.val && !(s.die die.val).marked.contains k then
        .next (s.modDie die.val (fun d => { d with marked := d.marked ++ [k] }))
      else .next s
    | _ => .next s

/-- Whether no launch can reach a unit: its core holds none, or it belongs to the spare cluster of its core (R366). -/
def State.unitFree (s : State) (core key : Nat) : Bool :=
  (s.core core).launch.isNone ||
    (let spare := ((s.bindMap core).core core).spare
     (decide (3 ≤ key) && decide (key < 57) && (key - 3) / 6 == spare) || key == xfKey spare || key == xtKey spare)

/-- Whether the four cores of a rope are free (R366). -/
def State.ropeFree (s : State) (rope : Nat) : Bool := (upTo 4).all (fun k => (s.core (4 * rope + k)).launch.isNone)

/-- UNIT_RETEST (R366, R367): a unit that no launch can reach is measured; states and adders only move forward; none is in a die in reset (R452).
DESIGN CHOICE, unsafe: log entry 42. -/
def execUnitRetest (die : DieId) (unit : UnitRef) (res : RetestResult) (s : State) : Host.Outcome State Fault Refusal :=
  if (s.die die.val).inReset then .next s else
  match unitKey unit with
  | some (core, key) =>
    let c := 64 * die.val + core
    if !s.unitFree c key then .next s
    else
      let m := s.measuredCore die.val core
      let m1 := m.withAdd key (max (m.keyAdd key) res.adder.toNat)
      let found := if res.passFull then 0 else if res.passHalf then 1 else 3
      if found = 3 then .next (if m.keyState key = 3 then s else s.unitDies die.val core key unit)
      else
        .next ((s.recordCore die.val core (m1.withState key (max (m.keyState key) found))).modCore c (fun x =>
          { x with used := x.used.filter (· != key) }))
  | none =>
    match unit with
    | .segment rope seg =>
      let k := 16 * die.val + rope.val
      let r := s.measuredRope die.val rope.val
      if !s.ropeFree k then .next s
      else
        let slow := bitAt r.hop seg.val || !res.passFull || (s.die die.val).marked.contains (32 * rope.val + seg.val)
        .next ((s.recordRope die.val rope.val { r with hop := setBit r.hop seg.val slow }).modDie die.val (fun d =>
          { d with marked := d.marked.filter (· != 32 * rope.val + seg.val) }))
    | .lane rope lane =>
      let k := 16 * die.val + rope.val
      let r := s.measuredRope die.val rope.val
      if !s.ropeFree k || res.passFull then .next s
      else .next (s.recordRope die.val rope.val { r with deadln := setBit r.deadln lane.val true })
    | _ => .next s

/-! ### Publication (R368, R374, R378–R380, R383) -/

/-- Whether every unit of a physical cluster is ok or half, and the worst state of its units. -/
def CoreMap.clusterStates (m : CoreMap) (p : Nat) : List Nat := (upTo 6).map (m.colSt p) ++ [m.xfSt p, m.xtSt p]

/-- The binding after a publication: one logical cluster moves to the spare, if every unit of the spare is ok or half (R368). -/
def CoreMap.rebound (m : CoreMap) : CoreMap :=
  let has (st c : Nat) : Bool := (m.clusterStates (m.phys c)).contains st
  let spare := m.spare
  if (m.clusterStates spare).any (fun st => decide (2 ≤ st)) then m
  else match ((upTo 8).find? (has 3)).or ((upTo 8).find? (has 2)) with
    | none => m
    | some c => { m with bind := putField m.bind (4 * c) 4 spare }

/-- A core record as published: rebound where one of its clusters has newly lost a unit, and CSINCE set where its class key changes
(R368, R374). -/
def publishedCore (old new : CoreMap) (oldRope newRope : RopeMap) (version : Nat) : CoreMap :=
  let m := new.rebound
  if classKey m newRope = classKey old oldRope then { m with csince := old.csince } else { m with csince := version }

/-- The next version of a die's map. -/
def State.nextMap (s : State) (die : Nat) : DieMap :=
  let old := (s.die die).mapAt s.cycle
  let ropes := (upTo 16).map (s.measuredRope die)
  let cores := (upTo 64).map (fun k =>
    (k, publishedCore (old.core k) (s.measuredCore die k) (old.rope (k / 4)) (nth RopeMap.reset ropes (k / 4)) (old.version + 1)))
  let m : DieMap :=
    { old with
        version := old.version + 1,
        pubCyc := s.cycle,
        cores := cores,
        ropes := (upTo 16).map (fun k => (k, nth RopeMap.reset ropes k)),
        prev := hash128 (old.content die),
        bytes := [] }
  { m with bytes := m.signed die }

/-- Whether a translation matches a core under the map in force (R375, R419). -/
def State.transMatches (s : State) (t : TransKey) (core : Nat) : Bool :=
  let m := (s.die (dieOf core)).mapAt s.cycle
  let c := m.core core
  t.specimen == Config.specimen (dieOf core) && t.classKey == classKey c (m.rope (ropeOf core)) && decide (c.csince ≤ t.mapVersion) &&
    decide (t.mapVersion ≤ m.version)

/-- Whether a resident block's image still matches its core (R375, R380). -/
def State.blockMatches (s : State) (core : Nat) (b : CodeBlock) : Bool :=
  match s.objectOf b.objHash with
  | none => false
  | some o =>
    if translatedSection ≤ b.section_ then s.disp.cache.any (fun t => translatedSection + t.num == b.section_ && s.transMatches t core)
    else (objImages o.bytes).any (fun i => i.index == b.section_ && s.imageMatches i core)

/-- Translations for a die that no core of it matches any more leave the loader's cache (R380, R419). -/
def State.dropTranslations (s : State) (die : Nat) : State :=
  { s with disp := { s.disp with cache := s.disp.cache.filter (fun t => t.specimen != Config.specimen die || (upTo 64).any (fun k => s.transMatches t (64 * die + k))) } }

/-- Blocks of images that no longer match a core are dropped, with their tags and locks (R380). -/
def State.dropStale (s : State) (core : Nat) : State :=
  s.modCore core (fun c => { c with code := { c.code with blocks := c.code.blocks.filter (fun b => s.blockMatches core b) } })

/-- What a publication does on one core: a running context gets MAPEV where its class or binding changes; on a core that holds no launch
stale blocks go (R379, R380). -/
def State.mapChange (s : State) (die : Nat) (old new : DieMap) (k : Nat) : State :=
  let core := 64 * die + k
  let cls := classKey (old.core k) (old.rope (k / 4)) != classKey (new.core k) (new.rope (k / 4))
  let bind := (old.core k).bind != (new.core k).bind
  if (s.core core).launch.isSome then (if cls || bind then s.modCore core (fun c => c.request s.cycle 1) else s)
  else if cls then s.dropStale core else s

/-- Append a record to the broadcast stream with the sender's digest; its id is its place in the stream (R181). -/
def State.emit (s : State) (k : StreamKind) : State :=
  let id := s.disp.stream.length
  let s1 := { s with disp := { s.disp with stream := s.disp.stream ++ [({ kind := k, digest := s.disp.digest } : StreamRec)] } }
  match k with
  | .launch _ => s1.scheduleFree 6 (.launchRecord id)
  | .retirement _ _ => s1.scheduleFree 6 (.retirementRecord id)
  | .preemption _ _ => s1.scheduleFree 6 (.preemptionRecord id)
  | .map d => ({ s1 with disp := { s1.disp with digest := d } } : State).scheduleFree 6 (.mapRecord id)

/-- Ropes of a die whose hop times or dead lanes a publication changes. -/
def changedRopes (die : Nat) (old new : DieMap) : List Nat :=
  ((upTo 16).filter (fun k => (old.rope k).hop != (new.rope k).hop || (old.rope k).deadln != (new.rope k).deadln)).map (fun k => 16 * die + k)

/-- The links of a die whose latency a publication changes: west, east, or the package link (R371, R383). -/
def DieMap.linkChange (old new : DieMap) : List Nat :=
  (upTo 3).filter (fun k => nth 0#16 [old.latW, old.latE, old.latC] k != nth 0#16 [new.latW, new.latE, new.latC] k)

/-- Whether a timetable names a rope as an endpoint, or uses a link of a die (R383). -/
def Endpoint.onRope (e : Endpoint) (ropes : List Nat) : Bool := e.kind == 0 && e.mem == Config.ownPackage && ropes.contains (16 * e.die + e.rope)
def Timetable.touches (t : Timetable) (ropes : List Nat) : Bool := t.entries.any (fun e => e.src.onRope ropes || e.dst.onRope ropes)

/-- Whether a timetable uses a link of a die: its member dies are reached over theirs. DEDUCED, safe: log entry 73. -/
def Timetable.usesDie (t : Timetable) (die : Nat) : Bool := t.members.getLsbD (32 * Config.ownPackage + die)

/-- The timetables that a change concerns are marked for re-validation (R383). -/
def State.markTimetables (s : State) (hit : Timetable → Bool) : State :=
  { s with coll := { s.coll with timetables := listMod hit (fun t => { t with marked := true }) s.coll.timetables } }

/-- What a new map of a die marks: the timetables that use a changed link, or a changed rope as an endpoint (R383). -/
def State.markChanged (s : State) (die : Nat) (old new : DieMap) : State :=
  s.markTimetables (fun t => t.touches (changedRopes die old new) || (!(old.linkChange new).isEmpty && t.usesDie die))

/-- MAP_PUBLICATION (R378, R379): nothing is published while a supply offset is applied (R459), or by a die that has not left reset (R452) -/
def execMapPublication (die : DieId) (s : State) : Host.Outcome State Fault Refusal :=
  let d := s.die die.val
  if d.inReset then .next s
  else if bitAt d.vmargin 0 then .next (s.scheduleFree 6 (.mapPublication die))
  else if !d.dirty then .next s
  else
    let old := d.mapAt s.cycle
    let new := s.nextMap die.val
    let s1 := s.setDie die.val { d with maps := new :: d.maps, measuredCores := [], measuredRopes := [], failed := [], dirty := false }
    let s2 := (upTo 64).foldl (fun acc k => acc.mapChange die.val old new k) s1
    let s3 := (s2.markChanged die.val old new).dropTranslations die.val
    .next (s3.emit (.map s3.packageDigest))

end Sys2Proof.Machine
end

