-- ==== Sys2Proof/Machine/Queue.lean ====
section
/-!
DEFINITION. Queues and packets (R171–R180, R377): reading and starting packets, their completion, the packets that run no code, and the
queue operations of firmware and host.
-/

namespace Sys2Proof.Machine

/-! ### Packets (R174, R175, R178, R377, R425, R447) -/

/-- Word i of a packet. -/
def pw (w : List W64) (i : Nat) : W64 := nth 0#64 w i
/-- The packet's KIND, and whether it carries BAR (R174). -/
def packetKind (w : List W64) : Nat := bitsNat (pw w 0) 7 0
def packetBar (w : List W64) : Bool := bitAt (pw w 0) 8

/-- Whether the words from i on are zero. -/
def tailZero (w : List W64) (i : Nat) : Bool := (w.drop i).all (· == 0#64)

/-- Whether KIND is known and every reserved field is zero (R174, R175, R178, R377, R425, R447). DESIGN CHOICE, unsafe: log entry 40. -/
def packetValid (w : List W64) : Bool :=
  bitsNat (pw w 0) 31 9 == 0 &&
  (match packetKind w with
    | 1 => bitsNat (pw w 2) 63 48 == 0
    | 2 => tailZero w 5 && bitsNat (pw w 3) 5 0 == 0 && decide ((pw w 3).toNat ≤ 2 ^ 40)
    | 3 => tailZero w 5 && decide ((pw w 4).toNat < 4)
    | 4 => tailZero w 5 && decide ((pw w 3).toNat < 2)
    | 5 => tailZero w 5 && decide ((pw w 2).toNat < 2 ^ 32) && decide ((pw w 3).toNat < 2)
    | 6 => tailZero w 5 && decide ((pw w 3).toNat < 2)
    | 7 => tailZero w 5 && (decide ((pw w 1).toNat < 32) || pw w 1 == 0xFF#64) && decide ((pw w 3).toNat < 2 ^ 32)
    | _ => false)

/-- The event that starts a packet. -/
def packetEvent (q : QueueId) (seq : BitVec 32) (w : List W64) : Instr :=
  if !packetValid w then .packetInvalid q seq
  else match packetKind w with
    | 1 => .launchSelection
    | 2 => .packetBulkCopy q seq
    | 3 => .packetWaitOnValue q seq
    | 4 => .packetSignal q seq
    | 5 => if bitAt (pw w 3) 0 then .packetTimetableRemove q seq else .packetTimetableInstall q seq
    | 6 => if bitAt (pw w 3) 0 then .packetCheckpointRestore q seq else .packetCheckpointSave q seq
    | _ => .packetMapQuery q seq

/-- The address of a packet's completion record (R175, R178). -/
def packetCmpl (w : List W64) : W64 :=
  match packetKind w with
  | 1 => pw w 3
  | 3 => 0#64
  | _ => pw w 4

/-- Packets of a queue in sequence order: the list holds them so. -/
def State.packetsOf (s : State) (q : Nat) : List Packet := s.disp.packets.filter (fun p => p.queue == q)
def State.packet (s : State) (q : Nat) (seq : BitVec 32) : Option Packet := s.disp.packets.find? (fun p => p.queue == q && p.seq == seq)
def State.modPacket (s : State) (q : Nat) (seq : BitVec 32) (f : Packet → Packet) : State :=
  { s with disp := { s.disp with packets := listMod (fun p => p.queue == q && p.seq == seq) f s.disp.packets } }

/-! ### Reading and starting (R171, R173, R179) -/

/-- Whether firmware and device read packets of a queue. -/
def Queue.reads (x : Queue) : Bool := x.en && x.res && !x.stopped && !x.leaving

/-- FREC (R171). -/
def frecWord (kind status : Nat) (seq : BitVec 32) : BitVec 32 := BitVec.ofNat 32 (kind % 256 * 2 ^ 24 + status % 256 * 2 ^ 16 + seq.toNat % 2 ^ 16)

/-- Where an address of a queue's packets lies (R171). -/
def State.queueLocate (s : State) (q : Nat) (a : W64) (kind : OffKind) : Option Nat :=
  let x := s.queue q
  s.locate x.tenant x.asid (s.rootsOf x.tenant x.asid).1 a kind

/-- Memory keys of the lines from an address on whose accesses wait (R20, R63). -/
def State.homeLines (s : State) (q n : Nat) (a : W64) (kind : OffKind) : List Nat :=
  let x := s.queue q
  s.lineKeys x.tenant x.asid (s.rootsOf x.tenant x.asid).1 n a kind

/-- The address of the packet at FETCH (R171). -/
def Queue.slot (x : Queue) : W64 := x.ring + BitVec.ofNat 64 (64 * (x.fetch.toNat % 2 ^ x.log2n))

/-- Read the packet at FETCH; a ring address that faults stops the queue. DESIGN CHOICE, unsafe: log entry 20. -/
def State.readPacket (s : State) (q : Nat) : State :=
  let x := s.queue q
  match s.queueLocate q x.slot .read with
  | none => s.modQueue q (fun x => { x with stopped := true, frec := frecWord 0 0x36 x.fetch })
  | some k =>
    let p : Packet :=
      { queue := q, seq := x.fetch, words := (upTo 8).map (fun i => readWord64 s.mem (k + 8 * i)), phase := .read, status := 0#16,
        readAt := s.cycle, word1 := none, answer := [] }
    (({ s with disp := { s.disp with packets := s.disp.packets ++ [p] } } : State).modQueue q (fun x => { x with fetch := x.fetch + 1#32 })).schedule
      (s.cycle + s.disp.qage.toNat + 1) 6 (.queueAging (queueId q))

/-- Read what the host has written, `n` packets at most: each is asked for at its home, over the chiplet's link, and read once that access has started
(R63, R64). -/
def State.readPackets (q : Nat) : Nat → State → State
  | 0, s => s
  | n + 1, s =>
    let x := s.queue q
    if !x.reads || x.fetch == x.tail then s
    else match x.asking with
      | some g => if s.groupWaits g then s else State.readPackets q n ((s.modQueue q (fun x => { x with asking := none })).readPacket q)
      | none =>
        let keys := s.homeLines q 1 x.slot .read
        if keys.isEmpty then State.readPackets q n (s.readPacket q)
        else
          let r := s.askPorts 16 keys (.queueAging (queueId q))
          r.2.modQueue q (fun x => { x with asking := some r.1 })

/-- The packet of a queue that would start next, if it may start now: every earlier packet has started, every earlier wait has completed,
and with BAR every earlier packet has (R179). -/
def startable : List Packet → Bool → Bool → Option Packet
  | [], _, _ => none
  | p :: t, waits, open_ =>
    match p.phase with
    | .read => if waits || (packetBar p.words && open_) then none else some p
    | .started => startable t (waits || packetKind p.words == 3) true
    | .done => startable t waits open_

/-- The package record (R377). -/
def State.packageRecord (s : State) : List Byte :=
  s.packageDigest ++ (upTo 32).flatMap (fun d => leBytes 4 ((s.die d).mapAt s.cycle).version) ++ copies 48 0#8

/-- The answer to a map query: the map in force, or the package record; too little room gives the first 64 bytes (R377). -/
def State.queryBytes (s : State) (w : List W64) : List Byte :=
  let d := (pw w 1).toNat
  let all := if d = 0xFF then s.packageRecord else ((s.die d).mapAt s.cycle).content d
  if (pw w 3).toNat < all.length then (cut 64 all).1 else all

/-- The lines of memory that a packet's event reads and writes first, as the command processor asks for them (R63, R178, R377, R425, R447). -/
def State.packetLines (s : State) (q : Nat) (w : List W64) : List Nat :=
  match packetKind w with
  | 2 =>
    let n := (pw w 3).toNat / 64
    s.homeLines q n (pw w 1) .read ++ s.homeLines q n (pw w 2) .write
  | 4 => s.homeLines q 1 (pw w 1) .write
  | 5 => s.homeLines q (if bitAt (pw w 3) 0 then 1 else ((pw w 2).toNat + 63) / 64) (pw w 1) .read
  | 7 => s.homeLines q ((s.queryBytes w).length / 64) (pw w 2) .write
  | _ => s.homeLines q 1 (pw w 1) .read

/-- A packet has started: what a map query answers is the map in force in this cycle (R377, R379). -/
def State.startPacket (s : State) (q : Nat) (p : Packet) : State :=
  s.modPacket q p.seq (fun x => { x with phase := .started, answer := if packetKind p.words = 7 then s.queryBytes p.words else [] })

/-- Start the packets of a queue that may start: a launch waits for its selection, and an invalid one lets none after it start (R174, R179). -/
def State.startPackets (q : Nat) : Nat → State → State
  | 0, s => s
  | n + 1, s =>
    if !(s.queue q).reads then s
    else match startable (s.packetsOf q) false false with
      | none => s
      | some p =>
        if !packetValid p.words then s.scheduleFree 6 (.packetInvalid (queueId q) p.seq)
        else if packetKind p.words == 1 then s.scheduleFree 6 .launchSelection
        else
          State.startPackets q n ((s.startPacket q p).afterPorts 19 (s.packetLines q p.words)
            (packetEvent (queueId q) p.seq p.words))

/-- Whether tenants run in the lifecycle state (R454). -/
def State.lifeRuns (s : State) : Bool := s.sec.life != 0#3 && s.sec.life != 4#3

/-- Whether packets may start: tenants run, and every die has ended its wipe and training (R454, R457, R463). -/
def State.packetsRun (s : State) : Bool := s.lifeRuns && s.dies.all (fun e => decide (e.2.readyAt ≤ s.cycle))

/-- Read and start what can be. -/
def State.pump (s : State) (q : Nat) : State :=
  let x := s.queue q
  if !s.packetsRun then s else
  let s1 := State.readPackets q ((x.tail - x.fetch).toNat) s
  State.startPackets q (s1.packetsOf q).length s1

/-! ### Completion (R177, R179) -/

/-- The line of a packet's completion record. -/
def State.cmplLines (s : State) (q : Nat) (seq : BitVec 32) : List Nat :=
  match s.packet q seq with
  | some p => if packetCmpl p.words = 0#64 then [] else s.homeLines q 1 (packetCmpl p.words) .write
  | none => []

/-- A packet ends with a status: its completion follows. -/
def State.finishPacket (s : State) (q : Nat) (seq : BitVec 32) (status : Nat) (word1 : Option W64) : State :=
  (s.modPacket q seq (fun p => { p with status := BitVec.ofNat 16 status, word1 := word1 })).afterPorts 19 (s.cmplLines q seq)
    (.packetComplete (queueId q) seq)

/-- The completion record at its address, if one is asked for (R177): of an address that faults, or of space 5, no record is written. DESIGN CHOICE, unsafe:
log entries 46 and 103. -/
def State.completionRecord (s : State) (q : Nat) (p : Packet) : State :=
  let a := packetCmpl p.words
  let w0 := BitVec.ofNat 64 (bitsNat (pw p.words 0) 63 32 * 2 ^ 32 + p.status.toNat)
  let w1 := p.word1.getD (BitVec.ofNat 64 s.cycle)
  if a = 0#64 ∨ a.toNat % 16 ≠ 0 ∨ addrSpace a = 5 then s
  else match s.queueLocate q a .write with
    | none => s
    | some k => s.putKey k (leBytes 8 w0.toNat ++ leBytes 8 w1.toNat)

/-- PROGRESS passes the packets that have completed (R179). -/
def passed : List Packet → BitVec 32 → BitVec 32
  | [], seq => seq
  | p :: t, seq => if p.phase = .done then passed t (p.seq + 1#32) else seq

/-- PACKET_COMPLETE (R177, R179): no packet of a switched-out queue completes (R173); a record in host memory follows the posted writes sent before it
(R451) -/
def execPacketComplete (queue : QueueId) (seq : BitVec 32) (s : State) : Host.Outcome State Fault Refusal :=
  let q := queue.val
  match s.packet q seq with
  | none => .next s
  | some p =>
    if p.phase = .done then .next s
    else if !(s.queue q).res then .next (s.scheduleFree 6 (.packetComplete queue seq))
    else if s.postsWait (packetCmpl p.words) then .next (s.schedule (s.cycle + 1) 6 (.packetComplete queue seq))
    else
      let s1 := (s.completionRecord q p).modPacket q seq (fun x => { x with phase := .done })
      let prog := passed (s1.packetsOf q) (s1.queue q).progress
      let s2 := s1.modQueue q (fun x => { x with progress := prog })
      let s3 := { s2 with disp := { s2.disp with
        packets := s2.disp.packets.filter (fun x => !(x.queue == q && decide ((x.seq - (s1.queue q).progress).toNat < (prog - (s1.queue q).progress).toNat))) } }
      .next (s3.pump q)

/-- PACKET_INVALID (R174): the queue stops with FREC status 0x31, and the packet does not start -/
def execPacketInvalid (queue : QueueId) (seq : BitVec 32) (s : State) : Host.Outcome State Fault Refusal :=
  match s.packet queue.val seq with
  | none => .next s
  | some p => .next (s.modQueue queue.val (fun x => { x with stopped := true, frec := frecWord (packetKind p.words) 0x31 seq }))

/-! ### Packets that run no code (R178, R377) -/

/-- Copy 64-byte lines from one place to another: none where an address faults. Each line is located by its first byte, and no alignment is checked, which
R178 does not state. DESIGN CHOICE, unsafe: log entry 102. -/
def State.copyLines (s : State) (q : Nat) : Nat → W64 → W64 → Option State
  | 0, _, _ => some s
  | n + 1, src, dst =>
    match s.queueLocate q src .read, s.queueLocate q dst .write with
    | some a, some b => (s.putKey b (readBytes s.mem a 64)).copyLines q n (src + 64#64) (dst + 64#64)
    | _, _ => none

/-- PACKET_BULK_COPY (R178) -/
def execPacketBulkCopy (queue : QueueId) (seq : BitVec 32) (s : State) : Host.Outcome State Fault Refusal :=
  match s.packet queue.val seq with
  | none => .next s
  | some p =>
    if s.postsWait (pw p.words 2) then .next (s.schedule (s.cycle + 1) 6 (.packetBulkCopy queue seq)) else
    match s.copyLines queue.val ((pw p.words 3).toNat / 64) (pw p.words 1) (pw p.words 2) with
    | some t => .next (t.finishPacket queue.val seq 0 none)
    | none => .next (s.finishPacket queue.val seq 0x36 none)

/-- The condition of a wait (R178). -/
def waitHolds (cmp : Nat) (a b : W64) : Bool :=
  match cmp with
  | 0 => a == b
  | 1 => a != b
  | 2 => decide (b.toNat ≤ a.toNat)
  | _ => decide (a.toNat < b.toNat)

/-- A wait reads its address: it completes, or reads again within 1,024 cycles (R178). -/
def State.pollWait (s : State) (q : Nat) (p : Packet) : State :=
  let a := pw p.words 1
  match if a.toNat % 8 ≠ 0 ∨ addrSpace a = 5 then none else s.queueLocate q a .read with
  | none => s.finishPacket q p.seq 0x36 none
  | some k =>
    if waitHolds (pw p.words 4).toNat (readWord64 s.mem k &&& pw p.words 3) (pw p.words 2) then s.finishPacket q p.seq 0 none
    else
      (s.useFree (queueAgent q)).schedule (s.cycle + 1 + Config.freeDelay (s.freeIndex (queueAgent q)) % 1024) 6 (.waitValuePoll (queueId q) p.seq)

/-- PACKET_WAIT_ON_VALUE (R178) -/
def execPacketWaitOnValue (queue : QueueId) (seq : BitVec 32) (s : State) : Host.Outcome State Fault Refusal :=
  match s.packet queue.val seq with
  | none => .next s
  | some p => .next (s.pollWait queue.val p)

/-- WAIT_VALUE_POLL (R178) -/
def execWaitValuePoll (queue : QueueId) (seq : BitVec 32) (s : State) : Host.Outcome State Fault Refusal :=
  match s.packet queue.val seq with
  | none => .next s
  | some p => .next (s.pollWait queue.val p)

/-- PACKET_SIGNAL (R178): a write, or in space 0 an atomic add -/
def execPacketSignal (queue : QueueId) (seq : BitVec 32) (s : State) : Host.Outcome State Fault Refusal :=
  match s.packet queue.val seq with
  | none => .next s
  | some p =>
    let a := pw p.words 1
    let add := bitAt (pw p.words 3) 0
    if s.postsWait a then .next (s.schedule (s.cycle + 1) 6 (.packetSignal queue seq)) else
    match if a.toNat % 8 ≠ 0 ∨ addrSpace a = 5 ∨ (add ∧ addrSpace a ≠ 0) then none else s.queueLocate queue.val a .write with
    | none => .next (s.finishPacket queue.val seq 0x36 none)
    | some k =>
      let v := if add then readWord64 s.mem k + pw p.words 2 else pw p.words 2
      .next ((s.putKey k (leBytes 8 v.toNat)).finishPacket queue.val seq 0 none)

/-- PACKET_MAP_QUERY (R377): the map in force in the cycle in which the packet started, or the package record; too little room gives the first 64 bytes -/
def execPacketMapQuery (queue : QueueId) (seq : BitVec 32) (s : State) : Host.Outcome State Fault Refusal :=
  match s.packet queue.val seq with
  | none => .next s
  | some p =>
    let x := s.queue queue.val
    let b := p.answer
    let dst := pw p.words 2
    if s.postsWait dst then .next (s.schedule (s.cycle + 1) 6 (.packetMapQuery queue seq)) else
    match if dst.toNat % 64 ≠ 0 ∨ addrSpace dst = 5 then none
        else s.writeLines x.tenant x.asid (s.rootsOf x.tenant x.asid).1 (b.length / 64) dst b with
    | none => .next (s.finishPacket queue.val seq 0x36 none)
    | some t => .next (t.finishPacket queue.val seq 0 none)

/-! ### Selecting launches (R175, R177, R180) -/

/-- Whether a launch of the queue is still unplaced. -/
def State.queueUnplaced (s : State) (q : Nat) : Bool :=
  s.disp.launches.any (fun l => l.queue == q && (l.phase == .selected || l.phase == .unplaced || l.phase == .preempted))

/-- The launch packet of a queue that may start now (R180). -/
def State.nextLaunch (s : State) (q : Nat) : Option Packet :=
  if !(s.queue q).reads || s.queueUnplaced q then none
  else match startable (s.packetsOf q) false false with
    | some p => if packetValid p.words && packetKind p.words == 1 then some p else none
    | none => none

/-- The effective priority of a queue whose next launch is a packet (R180). -/
def State.effPrio (s : State) (q : Nat) (p : Packet) : Nat :=
  let x := s.queue q
  min 3 (x.prio + if x.aged || decide (p.readAt + s.disp.qage.toNat < s.cycle) then 1 else 0)

/-- The queue after `last` in a cyclic order of queue numbers. -/
def nextAround (last : Option Nat) (qs : List Nat) : Option Nat :=
  let low (l : List Nat) : Option Nat := minimumOf l
  match last with
  | none => low qs
  | some k => (low (qs.filter (fun q => decide (k < q)))).or (low qs)

/-- The choice of a launch (R180): the highest effective priority, then the next queue in turn. -/
def State.selectLaunch (s : State) : State :=
  let cands := (s.disp.queues.map (·.1)).filterMap (fun q => (s.nextLaunch q).map (fun p => (q, p)))
  let top := maximumOf (cands.map (fun c => s.effPrio c.1 c.2))
  let qs := (cands.filter (fun c => s.effPrio c.1 c.2 == top)).map (·.1)
  let last := (s.disp.lastChosen.find? (fun e => e.1 == top)).map (·.2)
  if s.disp.halted || !s.packetsRun then s
  else match nextAround last qs with
    | none => s
    | some q =>
      match cands.find? (fun c => c.1 == q) with
      | none => s
      | some c =>
        let p := c.2
        let n := s.fresh
        let l : Launch :=
          { id := n.1, queue := q, seq := p.seq, tenant := (s.queue q).tenant, prio := top, obj := pw p.words 1,
            kernel := bitsNat (pw p.words 2) 31 0, ncore := bitsNat (pw p.words 2) 47 32, args := (upTo 4).map (fun i => pw p.words (4 + i)),
            cmpl := pw p.words 3, phase := .selected, ropes := [], retiredDies := [], savedDies := [], status := 0, records := [], locked := [],
            refilled := false }
        let s1 := (n.2.modPacket q p.seq (fun x => { x with phase := .started })).modQueue q (fun x => { x with aged := false })
        let s2 := { s1 with disp := { s1.disp with launches := s1.disp.launches ++ [l], lastChosen := tblSet top q s1.disp.lastChosen } }
        let s3 := (State.startPackets q (s2.packetsOf q).length s2).scheduleFree 6 (.packetLaunch (queueId q) p.seq)
        if cands.length ≤ 1 then s3 else s3.scheduleFree 6 .launchSelection

/-- LAUNCH_SELECTION (R180, R399): the loader ends the uploads whose bytes have come, and the next launch is chosen -/
def execLaunchSelection (s : State) : Host.Outcome State Fault Refusal := .next s.finishUploads.selectLaunch

/-- A launch changed. -/
def State.modLaunch (s : State) (id : Nat) (f : Launch → Launch) : State :=
  { s with disp := { s.disp with launches := listMod (fun l => l.id == id) f s.disp.launches } }
def State.launch (s : State) (id : Nat) : Option Launch := s.disp.launches.find? (fun l => l.id == id)

/-- The object that a launch names (R175). -/
def State.launchObject (s : State) (l : Launch) : Option BuzilObject := s.disp.objects.find? (fun o => o.addr == l.obj && o.tenant == l.tenant)

/-- Whether the cores of a tenant allow a binding of a launch, whatever runs on them, and none of those has images: then the launch cannot run (R410,
R413). -/
def State.imageless (s : State) (l : Launch) (o : BuzilObject) (g : GraphRec) : Bool :=
  let own := (s.partition l.tenant).cores
  let bind (ok : Nat → Bool) : Option (List Nat) :=
    g.bindFrom (fun i r => (g.positions i).all (fun k => own.contains (4 * r + k) && ok (4 * r + k))) g.pos.length []
  (bind (fun _ => true)).isSome && (bind (fun c => (s.imageFor o l.kernel l.ncore c).isSome)).isNone

/-- Why a launch completes at once, or 0 (R175, R177, R410, R413). The spec orders no two statuses that both apply, and names none for a kernel id that the
object lacks or an NCORE that is not the kernel's: 0x39 comes before 0x35, then 0x33, also for those, then 0x36. DESIGN CHOICE, unsafe: log entry 41. -/
def State.launchStatus (s : State) (l : Launch) : Nat :=
  let cores := (s.partition l.tenant).cores
  match s.launchObject l with
  | none => 0x39
  | some o =>
    if o.status = 0x39 then 0x39
    else if cores.length < l.ncore then 0x35
    else if (match objKernel o.bytes l.kernel with
        | some g => g.ncore != l.ncore || s.imageless l o g
        | none => true) then 0x33
    else if l.cmpl ≠ 0#64 ∧ (l.cmpl.toNat % 16 ≠ 0 ∨ addrSpace l.cmpl = 5 ∨ (s.queueLocate l.queue l.cmpl .write).isNone) then 0x36
    else 0

/-- Whether a launch has its record in the stream. -/
def State.emitted (s : State) (id : Nat) : Bool := s.disp.stream.any (fun r => r.kind == .launch id)

/-- PACKET_LAUNCH (R175, R177, R181): a launch that cannot run completes at once; any other goes into the stream, while tenants run (R454) -/
def execPacketLaunch (queue : QueueId) (seq : BitVec 32) (s : State) : Host.Outcome State Fault Refusal :=
  match s.disp.launches.find? (fun l => l.queue == queue.val && l.seq == seq && l.phase == .selected && !s.emitted l.id) with
  | none => .next s
  | some l =>
    if !s.lifeRuns then .next s else
    let st := s.launchStatus l
    if st ≠ 0 then
      .next (({ s with disp := { s.disp with launches := s.disp.launches.filter (fun x => x.id != l.id) } } : State).finishPacket queue.val seq st none)
    else .next (s.emit (.launch l.id))

/-- QUEUE_AGING (R180): a head packet that has waited more than QAGE; the queue is looked at again, as after a wipe (R457) -/
def execQueueAging (queue : QueueId) (s : State) : Host.Outcome State Fault Refusal :=
  match (s.packetsOf queue.val).find? (fun p => p.phase == .read) with
  | some p =>
    let s1 := if p.readAt + s.disp.qage.toNat < s.cycle then s.modQueue queue.val (fun x => { x with aged := true }) else s
    .next (s1.pump queue.val)
  | none => .next (s.pump queue.val)

/-! ### The queue table (R171–R174) -/

/-- A queue-table entry from its 256 bits (R171). -/
def Queue.ofEntry (e : BitVec 256) : Queue :=
  let f (hi lo : Nat) : Nat := bitsNat e hi lo
  { frec := BitVec.ofNat 32 (f 255 224), savedProg := BitVec.ofNat 32 (f 223 192), fetch := BitVec.ofNat 32 (f 191 160),
    progress := BitVec.ofNat 32 (f 159 128), tail := BitVec.ofNat 32 (f 127 96), tenant := f 95 90, prio := f 89 88, en := f 87 87 == 1,
    res := f 86 86 == 1, log2n := f 85 81, asid := f 80 69, ring := BitVec.ofNat 64 (f 63 0), stopped := false, aged := false, leaving := false,
    asking := none }

/-- QUEUE_TABLE_WRITE (R171): a LOG2N outside 6–16 is refused, and no such entry is written; a nonzero reserved field [68:64] is refused likewise, as
R8 has it in general and R171 does not say: DESIGN CHOICE, unsafe: log entry 87. -/
def execQueueTableWrite (queue : QueueId) (entry : BitVec 256) (s : State) : Host.Outcome State Fault Refusal :=
  let x := Queue.ofEntry entry
  if x.log2n < 6 ∨ 16 < x.log2n ∨ bitsNat entry 68 64 ≠ 0 then .next s
  else .next ((s.modQueue queue.val (fun _ => x)).pump queue.val)

/-- A doorbell's value (R172): more than a ring ahead of PROGRESS is ignored and recorded with status 0x34. R172 gives FREC no kind and no sequence number
there: it holds kind 0 and the low bits of the value. DESIGN CHOICE, unsafe: log entry 88. -/
def State.setTail (s : State) (q : Nat) (v : BitVec 32) : State :=
  let x := s.queue q
  if 2 ^ x.log2n < (v - x.progress).toNat then s.modQueue q (fun x => { x with frec := frecWord 0 0x34 v })
  else (s.modQueue q (fun x => { x with tail := v })).pump q

/-- What QPROG reads as (R172). -/
def Queue.qprog (x : Queue) : BitVec 32 := if x.res then x.progress else x.savedProg

/-- QUEUE_RESET (R174): a stopped queue starts again with every sequence number zero. DESIGN CHOICE, unsafe: log entry 21. -/
def execQueueReset (queue : QueueId) (s : State) : Host.Outcome State Fault Refusal :=
  let s1 := { s with disp := { s.disp with packets := s.disp.packets.filter (fun p => p.queue != queue.val) } }
  .next (s1.modQueue queue.val (fun x =>
    { x with frec := 0#32, savedProg := 0#32, fetch := 0#32, progress := 0#32, tail := 0#32, stopped := false, aged := false, asking := none }))

/-- Launches of a queue that still hold cores. -/
def State.queueRuns (s : State) (q : Nat) : Bool := s.disp.launches.any (fun l => l.queue == q && (l.phase == .running || l.phase == .preempting))

/-- A queue being switched out leaves once its launches are pre-empted or retired (R173). -/
def State.finishSwitchOut (s : State) (q : Nat) : State :=
  let x := s.queue q
  if x.leaving && !s.queueRuns q then s.modQueue q (fun x => { x with savedProg := x.progress, res := false, leaving := false }) else s

/-- Whether a core of a launch has left it: saved, retired or halted. -/
def Core.left (c : Core) : Bool := c.seq.run == .idle || c.seq.run == .halted

/-- REQ is set on every core of a launch (R183, R359). -/
def State.requestCores (s : State) (launch : Nat) : State :=
  ((s.coresOf launch).filter (fun c => !(s.core c).left)).foldl (fun acc c =>
    acc.modCore c (fun x => x.request s.cycle 0)) s

/-- A running launch is asked to leave (R183). -/
def State.preempt (s : State) (launch : Nat) : State := (s.requestCores launch).modLaunch launch (fun l => { l with phase := .preempting })

/-- QUEUE_SWITCH_OUT (R173): reading stops and every running launch is pre-empted -/
def execQueueSwitchOut (queue : QueueId) (s : State) : Host.Outcome State Fault Refusal :=
  let q := queue.val
  if !(s.queue q).res then .next s
  else
    let run := (s.disp.launches.filter (fun l => l.queue == q && l.phase == .running)).map (·.id)
    .next ((run.foldl State.preempt (s.modQueue q (fun x => { x with leaving := true }))).finishSwitchOut q)

end Sys2Proof.Machine
end

