-- ==== Sys2Proof/Machine/Landing.lean ====
section
/-!
DEFINITION. Results as they land (R40, R42, R147, R218–R220, R256–R258, R266–R272), the write rules of the control registers (R350,
R363, R459, R460), and the flips of stored bits (R41, R44, R47, R55).
-/

namespace Sys2Proof.Machine

/-! ### Control registers as they are written (R8, R350, R363) -/

/-- Bits [h:l] taken from a new value. -/
def takeBits (h l : Nat) (old new : W64) : W64 := BitVec.ofNat 64 (setField old.toNat l (h + 1 - l) (bitsNat new h l))

/-- Bits [h:l] cleared where the new value has them clear; none is set. DEDUCED, unsafe: log entry 43. -/
def clearBits (h l : Nat) (old new : W64) : W64 := takeBits h l old (old &&& new)

/-- The stored value of a per-core CSR after a write: reserved and read-only fields keep theirs (R8). -/
def csrStore (num : Nat) (old new : W64) : W64 :=
  match num with
  | 0x001 => takeBits 53 48 (takeBits 41 0 old new) new
  | 0x002 => if bitAt new 63 then old else takeBits 62 50 (takeBits 47 6 (takeBits 3 0 (setBit old 63 false) new) new) new
  | 0x003 => new
  | 0x004 => takeBits 31 0 old new
  | 0x006 => takeBits 63 32 old new
  | 0x007 => if bitsNat new 3 0 = 0 then old else takeBits 3 0 old new
  | 0x008 => takeBits 31 0 old new
  | 0x009 => takeBits 31 0 old new
  | 0x00A => clearBits 17 16 old new
  | 0x041 => clearBits 11 0 old new
  | 0x044 => takeBits 47 6 old new
  | 0x045 => takeBits 31 0 old new
  | 0x100 => takeBits 59 12 old new
  | 0x101 => takeBits 59 12 old new
  | 0x103 => clearBits 2 0 old new
  | 0x104 => takeBits 63 12 old new
  | _ => old

/-- The stored fields of TBINV. -/
def tbinvStore (v : W64) : W64 := takeBits 27 16 (takeBits 2 0 0#64 v) v

/-- A TBINV write starts its invalidation, unless one is in progress or KIND is 3 (R35). -/
def State.tbinvWrite (s : State) (core : Nat) (v : W64) : State :=
  let d := s.die (dieOf core)
  let kind := bitsNat v 1 0
  if d.tbinv.isSome || kind == 3 then s
  else
    let inv : TbInval := { side := bitAt v 2, kind := kind, asid := bitsNat v 27 16, addr := d.tbinvAddr.toNat, users := none }
    (s.setDie (dieOf core) { d with tbinv := some inv, tbinvVal := tbinvStore v }).scheduleFree 6
      (if kind = 0 then .tbinvPage (coreId core) else if kind = 1 then .tbinvAsid (coreId core) else .tbinvAll (coreId core))

/-- A VMARGIN write (R459): the ignored writes, else the fields are stored and BUSY is 1 until the offset settles, at most 50 µs later. -/
def State.vmarginPut (s : State) (die : Nat) (v : W64) : State :=
  let d := s.die die
  let off := signedOf 8 (bitsNat v 15 8)
  let held := (dieCores die).any (fun c => (s.core c).launch.isSome)
  if 3 < bitsNat v 39 32 ∨ off < -20 ∨ 20 < off ∨ bitAt d.vmargin 63 ∨ (bitAt v 0 ∧ held) then s
  else
    ((s.useFree (dieAgent die)).setDie die
      { d with vmargin := setBit (takeBits 39 32 (takeBits 15 8 (takeBits 0 0 0#64 v) v) v) 63 true }).schedule
        (s.cycle + 1 + Config.freeDelay (s.freeIndex (dieAgent die)) % 95000) 6 (.vmarginSettled (dieId die))

/-- Whether a die has a link, and the lanes it has (R460). -/
def linkLaneOk (die link lane : Nat) : Bool :=
  if link = 0 then decide (lane < 64)
  else if link = 1 then die % 16 != 0 && decide (lane < 64)
  else if link = 2 then die % 16 != 15 && decide (lane < 64)
  else if link = 3 then decide (lane < 72)
  else link == 4 && die == 0

/-- Cycles of a scan, rounded up (R460): 2^(16 + DWELL) unit intervals, of 112 GBd on scale-up SerDes and of 32 GT/s on UCIe; R450 states that rate of the
host link only. DEDUCED, unsafe: log entry 110. -/
def scanCycles (link dwell : Nat) : Nat :=
  let rate := if link = 3 then 1120 else 320
  (2 ^ (16 + dwell) * 19 + rate - 1) / rate

/-- A LINKMARGIN write (R460): the ignored writes, else the fields are stored and START begins a scan. -/
def State.linkmarginPut (s : State) (die : Nat) (v : W64) : State :=
  let d := s.die die
  let off := signedOf 8 (bitsNat v 23 16)
  let start := bitAt v 62
  if (start ∧ bitAt d.linkmargin 63) ∨ !linkLaneOk die (bitsNat v 3 0) (bitsNat v 15 8) ∨ off < -32 ∨ 31 < off then s
  else
    let kept := takeBits 35 8 (takeBits 3 0 d.linkmargin v) v
    if start then
      (s.setDie die { d with linkmargin := setBit kept 63 true }).schedule (s.cycle + scanCycles (bitsNat v 3 0) (bitsNat v 35 32)) 6
        (.linkmarginScanDone (dieId die))
    else s.setDie die { d with linkmargin := kept }

/-- A CSR form's write (R350, R363): each register's own write rule; what the hardware has added to the register in this cycle comes after it. -/
def State.csrPut (s : State) (core num : Nat) (v : W64) : State :=
  let rope := ropeOf core
  let die := dieOf core
  match num with
  | 0x005 => if bitAt v 11 then s else s.modCore core (fun c => { c with mx := { c.mx with run := { c.mx.run with ovf := false } } })
  | 0x102 => s.modCore core (fun c => { c with dispNext := some (takeBits 0 0 0#64 v) })
  | 0x200 => s.modRope rope (fun r =>
    { r with celate := v.setWidth 32 + (if r.celateHw.1 = s.cycle then BitVec.ofNat 32 r.celateHw.2 else 0#32) })
  | 0x201 => if v = 0#64 then s.schedule s.cycle 2 (.cefinfoClear (ropeId rope)) else s
  | 0x300 => s.modDie die (fun d => { d with tbinvAddr := v })
  | 0x301 => s.tbinvWrite core v
  | 0x380 => s.vmarginPut die v
  | 0x381 => s.linkmarginPut die v
  | _ => s.modCore core (fun c => (c.csrSet num (csrStore num (c.csrGet num) v)).renote s.cycle num)

/-- VMARGIN_WRITE (R459) -/
def execVmarginWrite (die : DieId) (v : W64) (s : State) : Host.Outcome State Fault Refusal := .next (s.vmarginPut die.val v)

/-- VMARGIN_SETTLED (R459) -/
def execVmarginSettled (die : DieId) (s : State) : Host.Outcome State Fault Refusal :=
  .next (s.modDie die.val (fun d => { d with vmargin := setBit d.vmargin 63 false }))

/-- LINKMARGIN_SCAN_START (R460) -/
def execLinkmarginScanStart (die : DieId) (v : W64) (s : State) : Host.Outcome State Fault Refusal :=
  .next (s.linkmarginPut die.val (setBit v 62 true))

/-- LINKMARGIN_SCAN_DONE (R460): ERRS is what the scan counted, a free value, saturated -/
def execLinkmarginScanDone (die : DieId) (s : State) : Host.Outcome State Fault Refusal :=
  let errs := min (Config.eyeErrors (s.freeIndex (dieAgent die.val))) (2 ^ 26 - 1)
  .next ((s.useFree (dieAgent die.val)).modDie die.val (fun d =>
    { d with linkmargin := setBit (takeBits 61 36 d.linkmargin (BitVec.ofNat 64 (errs * 2 ^ 36))) 63 false }))

/-! ### The effects of landing results -/

/-- Whether a location is a register word that a write replaces as a whole (R41). -/
def RegWrite.replaces (core : Nat) (w : RegWrite) : StorageLoc → Bool
  | .scalarReg c n => c.val == core && (match w with
    | .s k _ => k == n.val
    | _ => false)
  | .vectorLane c u r l => c.val == core && (match w with
    | .v k _ => k == vKey u.val r.val l.val
    | _ => false)
  | .lanePred c u n => c.val == core && (match w with
    | .q k m _ => k == qKey u.val n.val && m == 0xFFFF#16
    | _ => false)
  | _ => false

/-- Whether a location is an element of the listed tile keys. -/
def elemHit (core : Nat) (keys : List Nat) : StorageLoc → Bool
  | .tile c t r k => c.val == core && keys.contains (tileKey t.val r.val k.val)
  | _ => false

/-- Registers of a landed `mrd` are no longer pending (R262). -/
def Core.unpend (c : Core) (slot : Nat) (ws : List RegWrite) : Core :=
  if slot = 7 then
    let keys := ws.map RegWrite.key
    { c with mx := { c.mx with pendingV := c.mx.pendingV.filter (fun k => !keys.contains (1000 + k)) } }
  else c

/-- A scale entry lands in the queue, unless an `mscq` has discarded it (R147, R269). -/
def Core.landScale (c : Core) (id issue : Nat) (b : List Byte) : Core :=
  if c.mx.discard.contains id then { c with mx := { c.mx with discard := c.mx.discard.filter (· != id) } }
  else { c with mx := { c.mx with scaleQ := c.mx.scaleQ ++ [b], scaleIssue := c.mx.scaleIssue ++ [issue] } }

/-- Overflow bits of a tile group cleared. -/
def clearOvf (ovf : BitVec 192) (t n : Nat) : BitVec 192 := (upTo n).foldl (fun acc i => setBit acc (t + i) false) ovf

/-- Tiles cleared to zero, with their overflow bits (R42, R268). -/
def Core.landClear (c : Core) (t n : Nat) : Core :=
  { c with mx := { c.mx with
      tiles := c.mx.tiles.filter (fun e => decide (e.1 < t * 4096) || decide ((t + n) * 4096 ≤ e.1)),
      ovf := clearOvf c.mx.ovf t n } }

/-- A row of a tile written; its overflow bit is cleared (R42, R268). -/
def Core.landWriteRow (c : Core) (t r : Nat) (vals : List W32) : Core :=
  { c with mx := { c.mx with
      tiles := tblPutAll 0#32 ((upTo 32).map (fun k => (tileKey t r k, nth 0#32 vals k))) c.mx.tiles,
      ovf := setBit c.mx.ovf t false } }

/-- Promoted elements land; a promotion without overflow clears the group's overflow bits (R42, R258). -/
def Core.landPromote (c : Core) (t n : Nat) (vals : Tbl W32) (overflowed : Bool) : Core :=
  { c with mx := { c.mx with
      tiles := tblPutAll 0#32 vals c.mx.tiles,
      ovf := if overflowed then c.mx.ovf else clearOvf c.mx.ovf t n } }

/-- What a result does in its landing cycle. -/
def State.landEffect (s : State) (core : Nat) (l : Landing) : State :=
  match l.eff with
  | .regs ws =>
    (s.modCore core (fun c => { c with regs := c.regs.writeAll ws }.unpend l.slot ws)).overwrite (fun x => ws.any (fun w => w.replaces core x))
  | .scale b => s.modCore core (fun c => c.landScale l.id l.issue b)
  | .csr n v => s.csrPut core n v
  | .rowBuffer r b => s.modCore core (fun c => { c with mx := { c.mx with rowBuf := tblPut (copies 96 0#8) r b c.mx.rowBuf } })
  | .format i v => s.modCore core (fun c => { c with mx := { c.mx with fmt := tblPut 0#64 i v c.mx.fmt } })
  | .binding lv b => s.modCore core (fun c => { c with mx := { c.mx with bind := some (lv, b) } })
  | .discardScales n => s.landDiscard core l.issue n
  | .clearTiles t n => (s.modCore core (fun c => c.landClear t n)).overwrite (fun x => (upTo 128).any (fun r => tileHit core t n r x))
  | .writeRow t r vals => (s.modCore core (fun c => c.landWriteRow t r vals)).overwrite (tileHit core t 1 r)
  | .promote t n vals o => (s.modCore core (fun c => c.landPromote t n vals o)).overwrite (elemHit core (vals.map (·.1)))
  | .mmacRow r => s.modCore core (fun c => c.landRow r)
  | .xtRow i rows => s.modCore core (fun c => c.landXtRow i rows)
  | .xtClear ps e => s.modCore core (fun c => c.landXtClear ps e)
  | .marker => s

/-- Results of a core that land in this cycle after a given one, with their flags. -/
def Core.landingNow (c : Core) (now : Nat) : List (Landing × FpFlags) := (c.inflight.filter (fun l => l.at_ == now)).map (fun l => (l, c.landFlags l))

/-- A result lands: a second one in its register is a late timing fault, its flags are set, and its effect takes place (R40, R218). -/
def State.landResult (s : State) (core : Nat) (l : Landing) : State :=
  let c := s.core core
  let fl := c.landFlags l
  let clash := c.collision s.cycle l
  let s1 := s.modCore core (fun x => { x with inflight := x.inflight.filter (fun m => m.id != l.id) })
  let s2 := s1.modCore core (fun x => x.raise l fl (x.landingNow s.cycle))
  let s3 := s2.landEffect core l
  match clash with
  | some m => s3.lateCause core (collisionCause m) m.handler
  | none => s3

/-- The result of a core with an id that lands in this cycle. -/
def State.dueResult (s : State) (core id : Nat) : Option Landing :=
  (s.core core).inflight.find? (fun l => l.id == id && l.at_ == s.cycle)

/-- RESULT_LANDING (R40) -/
def execResultLanding (core : CoreId) (id : Nat) (s : State) : Host.Outcome State Fault Refusal :=
  match s.dueResult core.val id with
  | some l => .next (s.landResult core.val l)
  | none => .next s

/-- TILE_ROW_LANDING (R256, R257): an `mmac` row is read at issue + 1 + m and lands later; a block-scaled row consumes the tile words it
adds to and overwrites them (R41, R44) -/
def execTileRowLanding (core : CoreId) (id : Nat) (s : State) : Host.Outcome State Fault Refusal :=
  match ((s.core core.val).flying s.cycle).find? (fun l => l.id == id) with
  | none => .next s
  | some l =>
    match l.eff with
    | .mmacRow r =>
      if r.arow.isNone && r.capAt == s.cycle then .next (s.readRow core.val l r)
      else if l.at_ ≠ s.cycle then .next s
      else
        let s1 := s.landResult core.val l
        let hit := tileHit core.val r.tile (fmtTiles r.entry) r.m
        .next (if r.run then s1 else (s1.consume core.val hit).overwrite hit)
    | _ => .next s

/-! ### Flips of stored bits and wake requests -/

/-- STORAGE_BIT_FLIP (R41, R44, R47, R55): bits of a stored word flip; a word already uncorrectable stays so, and a second flip makes a
correctable one uncorrectable -/
def execStorageBitFlip (loc : StorageLoc) (uncorrectable : Bool) (s : State) : Host.Outcome State Fault Refusal :=
  let rest := s.flips.filter (fun f => f.loc != loc)
  .next { s with flips := rest ++ [{ loc := loc, bad := uncorrectable || decide (rest.length < s.flips.length) }] }

/-- WFI_WAKE_REQUEST (R352): the command processor sets WAKE -/
def execWfiWakeRequest (core : CoreId) (s : State) : Host.Outcome State Fault Refusal :=
  .next (s.modCore core.val (fun c => c.request s.cycle 2))

end Sys2Proof.Machine
end

