-- ==== Sys2Proof/Machine/Issue.lean ====
section
/-!
DEFINITION. How bundles issue (R106–R116, R128, R129, R157, R160–R168, R200–R202, R339, R341, R346, R351–R353, R384): fetching and checking a
bundle, anchors and waits, lockstep and timed dispatch, replay after `eret`, and the end of a bundle with its control effects.
-/

namespace Sys2Proof.Machine

/-! ### Illegal bundles (R115) -/

/-- The literal an operation refers to: its index, and whether it is a pair (R108, R118, R121). -/
def literalOf (slot : Nat) (w : W32) (i : Instr) : Option (Nat × Bool) :=
  if slot ≤ 1 then (if bitAt w 6 then some (bitsNat w 10 7, bitAt w 11) else none)
  else if slot ≤ 4 then (if bitAt w 3 then some (bitsNat w 7 4, false) else none)
  else match i with
    | .belayKeepS l => some (l.toNat, false)
    | .belayKeepV l => some (l.toNat, false)
    | _ => none

/-- The unit that an operation of SA, SB or a vector slot names (R114). -/
def namedUnit (slot : Nat) (w : W32) : Option Nat :=
  if slot ≤ 1 then some (bitsNat w 23 22) else if slot ≤ 4 then some (4 + bitsNat w 21 19) else none

/-- Whether a list names something twice. -/
def repeats : List Nat → Bool
  | [] => false
  | x :: t => t.contains x || repeats t

/-- The SY forms that exclude a control form in SA (R115). -/
def stopsSa : Instr → Bool
  | .endOp => true
  | .eret => true
  | .trap _ => true
  | .sys _ => true
  | .yield => true
  | .wfi => true
  | _ => false

/-- The illegal-bundle conditions (R115). -/
def bundleIllegal (words : List (Nat × W32)) (pool : List W32) (cmask : BitVec 8) (handler il : Bool) : Bool :=
  let ops := opsOf words
  let has (ks : List Nat) : Bool := words.any (fun w => ks.contains w.1)
  words.any (fun w => ops.any (fun o => o.1 == w.1 && (match literalOf w.1 w.2 o.2 with
    | some (i, pair) => decide (pool.length ≤ i + if pair then 1 else 0)
    | none => false))) ||
  (cmask == 0#8 && has [2, 3, 4, 5, 6]) ||
  repeats ((words.filter (fun w => ops.any (fun o => o.1 == w.1))).filterMap (fun w => namedUnit w.1 w.2)) ||
  (ops.any (fun o => o.1 == 0 && o.2.isControl) && ops.any (fun o => o.1 == 11 && stopsSa o.2)) ||
  (handler && has [2, 3, 4, 5, 6, 7, 10]) ||
  (il && (has [7, 6, 10] || words.any (fun w => (w.1 == 8 || w.1 == 9) && !ilWord w.1 w.2 && ops.any (fun o => o.1 == w.1))))

/-! ### Anchors and waits (R165–R168) -/

/-- The forms that make their bundle an anchor (R166, R352). -/
def anchorOp : Instr → Bool
  | .anchor => true
  | .hwait _ => true
  | .barWait _ => true
  | .waitc _ _ => true
  | .wfar => true
  | .belayBegin => true
  | .belayBeginPitch _ _ => true
  | .belayEnd => true
  | .yield => true
  | .wfi => true
  | _ => false

/-- Whether an access returns a result to a register or the scale queue (R165). -/
def AccKind.returns : AccKind → Bool
  | .ld _ _ => true
  | .vld => true
  | .vlds => true
  | .vgat => true
  | .ldsc => true
  | .atomic _ _ => true
  | .st => false
  | .vst => false
  | .vsts => false
  | .vsct => false
  | .barInit => false
  | .barArrive _ => false
  | .barFini => false

/-- Whether an access has an exposed result still to come: a value for s0 is discarded (R39, R165). -/
def Access.exposed (a : Access) : Bool :=
  match a.kind with
  | .ld _ _ => a.dest != 0
  | .atomic _ _ => a.dest != 0
  | k => k.returns

/-- Accesses of the context that issues. -/
def State.ownAccesses (s : State) (core : Nat) : List Access :=
  (s.rope (ropeOf core)).accs.filter (fun a => a.core == core && !a.dead && !a.discarded && a.handler == (s.core core).frame.isSome)

/-- Whether an exposed result of the core has still to land (R165). -/
def State.exposedLeft (s : State) (core : Nat) : Bool :=
  (s.core core).inflight.any (fun l => l.exposed && decide (s.cycle ≤ l.at_)) || (s.ownAccesses core).any Access.exposed

/-- Register keys with a result in flight (R168). -/
def State.flightKeys (s : State) (core : Nat) : List Nat :=
  ((s.core core).inflight.filter (fun l => decide (s.cycle ≤ l.at_))).flatMap (fun l => l.eff.regKeys) ++
    (s.ownAccesses core).filterMap (fun a => match a.kind with
      | .ld _ _ => some a.dest
      | .atomic _ _ => some a.dest
      | .vld => some (vRegKey a.phys a.dest)
      | .vlds => some (vRegKey a.phys a.dest)
      | .vgat => some (vRegKey a.phys a.dest)
      | _ => none)

/-- The predicates that the slots of SA, SB and SY name, as register keys (R119, R120, R306). -/
def predKeys (words : List (Nat × W32)) : List Nat :=
  (words.filter (fun w => decide (w.1 ≤ 1))).flatMap (fun w =>
    (64 + bitsNat w.2 5 3) :: (if bitsNat w.2 31 24 = 32 ∨ bitsNat w.2 31 24 = 39 then [64 + bitsNat w.2 19 17] else [])) ++
  (opsOf words).filterMap (fun o => match o.2 with
    | .waitc _ p => some (64 + p.toNat)
    | _ => none)

/-- Whether an access of an interlocked loop has not landed or performed (R157). -/
def State.ilLeft (s : State) (core : Nat) : Bool :=
  (s.ownAccesses core).any (fun a => ilWord a.slot a.word) ||
    (s.core core).inflight.any (fun l => ilWord l.slot l.word && decide (s.cycle ≤ l.at_))

/-- Whether an operation of a bundle still waits for its event (R296, R306, R307, R311, R313, R352). -/
def State.opWaits (s : State) (core : Nat) (lat : Latched) (i : Instr) : Bool :=
  let c := s.core core
  let st (h : Nat) : HandleState := ((s.rope (ropeOf core)).handle h).st
  match i with
  | .hwait h => s.handleOwned core h.toNat && st h.toNat != .full && st h.toNat != .faulted
  | .barWait a => !c.barWaitBad (lat.regs.sGet a.toNat) && !c.barReady s.cycle
  | .waitc a _ => decide (s.counter < (lat.regs.sGet a.toNat).toNat)
  | .wfar => c.farWaits
  | .wfi => c.frame.isNone && bitsNat (c.csrGet 0x103) 2 0 == 0
  | .belayBeginPitch a b =>
    !s.pitchBad core a.toNat b.toNat && decide (c.belay.regions.length < 4) && st a.toNat != .full && st a.toNat != .faulted
  | _ => false

/-- The handle fault of an anchor whose wait is over (R296, R313, R316). -/
def State.anchorBad (s : State) (core : Nat) (i : Instr) : Bool :=
  match i with
  | .hwait h => s.hwaitBad core h.toNat
  | .belayBeginPitch a b =>
    !s.pitchBad core a.toNat b.toNat && decide ((s.core core).belay.regions.length < 4) && s.pitchFault core a.toNat b.toNat
  | .belayEnd => match (s.core core).belay.regions with
    | g :: _ => g.pitch && (s.commitPitch core g).isNone
    | [] => false
  | _ => false

/-! ### Traps of a bundle that does not issue (R166, R338, R346) -/

/-- The trap request of a whole bundle: every present slot is issued again, and its control effects follow. -/
def wholeReq (cause sub slot : Nat) (lat : Latched) (waits : Bool) (records : List (Nat × W64)) (nextIssue : Nat) : TrapReq :=
  let word := match lat.words.find? (fun w => w.1 == slot) with
    | some w => w.2
    | none => 0#32
  { cause := cause, sub := sub, slot := slot, word := word, pc := lat.pc, fslots := if word = 0#32 then 0#12 else slotBit slot,
    rpl := presentOf lat.words, reported := none, goOn := false, whole := true, waits := waits, refetch := false, retiring := false,
    latched := lat, records := records, nextIssue := nextIssue }

/-- The slot that a trap of an anchor reports: the anchor's own where it has one. -/
def anchorSlot (ops : List (Nat × Instr)) : Nat :=
  match ops.find? (fun o => anchorOp o.2) with
  | some o => o.1
  | none => 0

/-- A bundle that is about to issue: fresh, replayed, or released by timed dispatch. -/
structure Candidate where
  lat : Latched
  /-- its operands were latched by an earlier issue: it is no new read of registers -/
  replaying : Bool
  /-- it has been checked as an anchor before, or waits again after `eret` -/
  checked : Bool
  /-- the timed-dispatch entry it comes from -/
  entry : Option Nat
  ctl : Ctl
  deriving DecidableEq, Repr

/-- Latch a bundle's operands (R339, R346). -/
def State.latch (s : State) (core : Nat) (pc : BitVec 48) (w : BundleWord) : Latched :=
  let c := s.core core
  { pc := pc, cmask := w.cmask, time := w.time, pool := w.pool, words := w.words, regs := c.regs, rrb := c.seq.rrb, loops := c.seq.loops,
    il := c.interlocked, clk := s.cycle, sq := [], cmptFail := false }

/-- The bundle at a core's pc, if it is resident. -/
def State.bundleAt (s : State) (core : Nat) : Option BundleWord := ((s.core core).bundleBytes (s.core core).seq.pc).map bundleWord

/-! ### FP events and held causes (R220, R341) -/

/-- Trap enables as they stand for the results of this cycle: a CSR write of this cycle comes first (R350). -/
def Core.enablesNow (c : Core) (now : Nat) : FpFlags :=
  match c.inflight.find? (fun l => l.at_ == now && (match l.eff with
    | .csr n _ => n == 0x001
    | _ => false)) with
  | some l => (match l.eff with
    | .csr _ v => trapEnables v
    | _ => 0#6)
  | none => trapEnables (c.csrGet 0x001)

/-- Whether a result that lands in this cycle raises an enabled flag (R220). -/
def Core.fpDue (c : Core) (now : Nat) : Bool :=
  let en := c.enablesNow now
  en != 0#6 && (c.landingNow now).any (fun l => l.2 &&& en != 0#6)

/-- The slots to be issued again now: those of a frozen context wait for its handler (R346). -/
def Core.replayNow (c : Core) : Option Replay := if c.frame.isSome then none else c.replay

/-- Whether an FP event is to be raised in this cycle: one that lands, or one held for E (R220, R341, R346). -/
def Core.fpNow (c : Core) (now : Nat) : Bool := c.fpDue now || (c.frame.isNone && c.owedFpe && decide (c.owedAt ≤ now))

/-- An FP event of a core is no longer owed. -/
def State.fpTaken (s : State) (core : Nat) : State := s.modCore core (fun x => { x with owedFpe := false })

/-- The FP-event trap in a cycle in which no bundle would issue: the next bundle, or the slots to be issued again, keep their distance
(R220, R338). DEDUCED, unsafe: log entry 15. -/
def State.fpGoOn (s : State) (core : Nat) : State :=
  let c := s.core core
  (s.fpTaken core).enterTrap core
    { cause := 14, sub := 0, slot := 0, word := 0#32, pc := (match c.replayNow with
        | some r => r.lat.pc
        | none => c.seq.pc), fslots := 0#12, rpl := 0#12, reported := none, goOn := true, whole := false,
      waits := false, refetch := false, retiring := c.seq.run == .retiring, latched := .reset, records := [], nextIssue := c.firstIssue s.cycle }

/-- A held late cause to be raised in this cycle, after an FP event and before any slot issues (R341, R346). -/
def Core.owedNow (c : Core) (now : Nat) : Bool := c.frame.isNone && !c.owed.isEmpty && decide (c.owedAt ≤ now)

/-- The first held late cause is raised (R341). DESIGN CHOICE, unsafe: log entry 72. -/
def State.raiseOwed (s : State) (core : Nat) : State :=
  let c := s.core core
  match c.owed with
  | h :: rest => (s.modCore core (fun x => { x with owed := rest })).enterTrap core (lateReq h (c.seq.run == .retiring) c.seq.nextIssue)
  | [] => s

/-! ### Waiting (R353) -/

/-- A cycle of waiting: the idle count goes on, and at LIMIT the watchdog expires at the waiting bundle. `since` is the cycle from which the
bundle waits. -/
def State.waits (s : State) (core : Nat) (counts : Bool) (since : Option Nat) : State :=
  let c := s.core core
  let n := if counts && c.seq.lastIssue != s.cycle then c.seq.idle + 1 else 0
  let limit := bitsNat (c.csrGet 0x045) 31 0
  let s1 := s.modCore core (fun x => { x with seq := { x.seq with idle := n, waitFrom := x.seq.waitFrom.or since } })
  if counts && limit != 0 && decide (limit ≤ n) then s1.schedule s.cycle 0 (.watchdogExpiry (coreId core)) else s1

/-- A candidate waits and tries again in the next cycle. `board`: the scoreboard of an interlocked loop holds it, and everything queued with
it moves one cycle (R168); else it waits for an event, a released bundle alone. Where an FP event falls in this cycle, no bundle issues (R220). -/
def State.waitOn (s : State) (core : Nat) (k : Candidate) (counts board : Bool) : State :=
  if (s.core core).fpNow s.cycle then s.fpGoOn core
  else
    (s.modCore core (fun c => { c with
      seq := { c.seq with waitEntry := k.entry, nextIssue := if board && k.entry.isNone then s.cycle + 1 else c.seq.nextIssue },
      td := if board then c.td.shift 1
        else { c.td with entries := listMod (fun e => k.entry == some e.id) (fun e => { e with release := s.cycle + 1 }) c.td.entries } })).waits
          core counts (if board then none else some s.cycle)

/-! ### Issuing (R109, R111, R129, R150) -/

/-- A candidate is no longer queued or to be replayed. -/
def State.dropCandidate (s : State) (core : Nat) (k : Candidate) : State :=
  s.modCore core (fun c =>
    { c with
      replay := if c.frame.isSome then c.replay else none,
      td := match k.entry with
        | some id => { c.td with entries := c.td.entries.filter (fun e => e.id != id) }
        | none => c.td })

/-- Key of the port that the operations of LD, ST, CE and SY occupy (R114), beside those of the map's units. -/
def portKey (slot : Nat) : Option Nat := if 8 ≤ slot ∧ slot ≤ 11 then some (69 + slot) else none

/-- The slots whose port has accepted an operation in this cycle (R114, R116). -/
def Core.busyPorts (c : Core) (now : Nat) : BitVec 12 :=
  presentOf (([8, 9, 10, 11].filter (fun k => tblGet 0 (69 + k) c.units / 2 == now + 1)).map (fun k => (k, 0#32)))

/-- A bundle starts to issue: its slots follow one by one. -/
def State.openBundle (s : State) (core : Nat) (k : Candidate) : State :=
  let lat := k.lat
  let portKeys := (opsOf lat.words).filterMap (fun o => portKey o.1)
  let c0 := s.core core
  let s1 := (s.dropCandidate core k).modCore core (fun c =>
    { c with
      code := { c.code with blocks := listMod (fun b => b.addr == blockAddr lat.pc && c.ownBlock b) (fun b => { b with lastIssue := s.cycle }) c.code.blocks }.ran
        c.codeTag s.cycle,
      seq := { c.seq with idle := 0, waitFrom := none, waitEntry := none, preBoundary := false, ilDrain := false, ilLeave := false },
      leaving := c0.leaving && (c0.replay.isSome || c0.frame.isSome),
      units := portKeys.foldl (fun acc x => tblSet x (2 * (s.cycle + 1)) acc) c.units })
  let b : Bundle :=
    { Bundle.reset with
      active := true, core := core, lat := lat, present := presentOf lat.words, rest := lat.words.map (fun w => slotOf w.1), replaying := k.replaying,
      handler := c0.frame.isSome, ctl := k.ctl,
      seq0 := c0.seq, p0 := c0.regs.p, rnd0 := c0.csrGet 0x004, id0 := s.nextId, busy := c0.busyPorts s.cycle }
  let s2 := { s1 with bnd := b }
  let fail := (opsOf lat.words).any (fun o => match o.2 with
    | .cmpt q => s2.cmptDiffers q
    | _ => false)
  { s2 with bnd := { b with lat := { lat with cmptFail := lat.cmptFail || fail } } }

/-- Whether a context may leave its core at a bundle: at the first bundle after a `.pre` boundary, at a `yield` or `wfi` outside a delay
bundle (R201, R351, R352, R360), or at the restart point of a rollback that a dead unit forced (R381), with a request pending and a resume point
there (R478). A bundle that is both a delay bundle and the first after a `.pre` boundary is such a place. DESIGN CHOICE, unsafe: log entry 98. -/
def State.landsAt (s : State) (core : Nat) (lat : Latched) (ops : List (Nat × Instr)) : Bool :=
  let c := s.core core
  let at_ := c.seq.preBoundary || (c.leaving && c.replayNow.isNone) || ops.any (fun o => match o.2 with
    | .yield => !c.seq.inDelay
    | .wfi => !c.seq.inDelay
    | _ => false)
  at_ && c.frame.isNone && bitsNat (c.csrGet 0x103) 1 0 != 0 && (s.resumePoint core lat.pc).isSome

/-- Slots that can be asked for the registers they name without acting: the others name none. -/
def askable : Instr → Bool
  | .anchor => false
  | .endOp => false
  | .eret => false
  | .wfar => false
  | .yield => false
  | .wfi => false
  | .belayBegin => false
  | .belayBeginPitch _ _ => false
  | .belayEnd => false
  | .belayKeepA _ => false
  | .fence _ => false
  | _ => true

/-- Ask the slots of a candidate for the registers they name: its slots are run, one by one, with nothing but their registers noted (R168). -/
def State.askBundle (s : State) (core : Nat) (k : Candidate) : State :=
  { s with bnd :=
    { Bundle.reset with
      active := true, probing := true, core := core, lat := k.lat, present := presentOf k.lat.words,
      rest := ((opsOf k.lat.words).filter (fun o => askable o.2)).map (fun o => slotOf o.1), handler := (s.core core).frame.isSome, ctl := k.ctl,
      entry := k.entry, checked := k.checked } }

/-- Whether the scoreboard of an interlocked loop holds a bundle back that names these registers (R168). DEDUCED, unsafe: log entry 49. -/
def State.scoreboardHolds (s : State) (core : Nat) (keys : List Nat) : Bool :=
  let fly := s.flightKeys core
  let pend := (s.core core).pendingKeys
  keys.any (fun x => x != 0 && x != 64 && (fly.contains x || pend.contains x))

/-- Whether a bundle waits before its registers are looked at: the first of an interlocked loop body, and in an interlocked loop the first after a
`.pre` boundary, until the scoreboard has drained (R168). -/
def State.drains (s : State) (core : Nat) (k : Candidate) : Bool :=
  let q := (s.core core).seq
  (q.ilDrain && s.exposedLeft core) || (k.lat.il && q.preBoundary && s.exposedLeft core)

/-- The faults that an anchor or an `end` raises before any wait: a copy-engine fault owed at an anchor (R294), a far fault at `wfar` or `end`
(R38); so also in a trap handler, for a fault of the frozen context that is still held, which makes it a double trap. DESIGN CHOICE, unsafe: log
entry 95. -/
def State.heldFault (s : State) (core : Nat) (ops : List (Nat × Instr)) (anchor : Bool) : Option (State × Nat × List (Nat × W64)) :=
  let c := s.core core
  let r := s.rope (ropeOf core)
  let far := ops.find? (fun o => match o.2 with
    | .wfar => true
    | .endOp => true
    | _ => false)
  if anchor && r.cefOwed.contains (posOf core) then some (s.modRope (ropeOf core) (fun x => x.cefTaken core), anchorSlot ops, r.cefRecords)
  else match far, c.far.fault with
    | some o, some f => some (s.modCore core Core.farReported, o.1, f.records)
    | _, _ => none

/-- A trap of a candidate that does not issue: it is no longer queued or to be replayed. An FP event of this cycle comes first: the bundle
would issue now, so it is issued again as a whole, and examined in full unless it was waiting already (R220, R338, R341). DEDUCED, unsafe: log entry 15. -/
def State.candTrap (s : State) (core : Nat) (k : Candidate) (t : TrapReq) : State :=
  let t1 := if (s.core core).fpNow s.cycle then
      { wholeReq 14 0 0 k.lat k.checked [] s.cycle with
          word := 0#32, fslots := 0#12 }
    else t
  ((s.dropCandidate core k).fpTaken core).enterTrap core { t1 with ctl := k.ctl }

/-- A fault of a candidate as a whole. -/
def State.candFault (s : State) (core : Nat) (k : Candidate) (cause sub slot : Nat) (waits : Bool) (records : List (Nat × W64)) : State :=
  s.candTrap core k (wholeReq cause sub slot k.lat waits records s.cycle)

/-- A candidate issues, unless an FP event falls in this cycle (R220). -/
def State.openOr (s : State) (core : Nat) (k : Candidate) : State :=
  if (s.core core).fpNow s.cycle then s.candFault core k 14 0 0 false [] else s.openBundle core k

/-- A candidate whose registers are free: it leaves its core where a request lands (R296, R360), waits for the events its slots name, or issues; of an
anchor with a handle fault that slot alone runs, and raises it. -/
def State.issueReady (s : State) (core : Nat) (k : Candidate) : State :=
  let ops := opsOf k.lat.words
  if s.landsAt core k.lat ops && !(s.core core).fpNow s.cycle then
    (s.dropCandidate core k).schedule s.cycle 0 (.preemptionLanding (coreId core))
  else if ops.any (fun o => s.opWaits core k.lat o.2) then s.waitOn core k (!ops.any (fun o => o.2 == .wfi)) false
  else match ops.find? (fun o => s.anchorBad core o.2) with
    | some o =>
      if (s.core core).fpNow s.cycle then s.openOr core k
      else let t := s.openBundle core k; { t with bnd := { t.bnd with rest := [slotOf o.1] } }
    | none => s.openOr core k

/-- Whether a bundle released earlier in program order is still queued (R166). -/
def TimedDispatch.behind (t : TimedDispatch) : Option Nat → Bool
  | some id => t.entries.any (fun e => decide (e.id < id))
  | none => false

/-- Try to issue a candidate in this cycle: after the wait of a bundle that follows an interlocked loop (R157), the anchor's check of exposed results and
unreleased operations (R166) and held faults come before any other wait; an illegal bundle comes first. In an interlocked loop the scoreboard comes before an anchor's check (R168). -/
def State.tryIssue (s0 : State) (core : Nat) (k0 : Candidate) : State :=
  let s := s0.releaseHeld core
  let c := s.core core
  let k := { k0 with checked := k0.checked || c.seq.waitFrom.isSome }
  let ops := opsOf k.lat.words
  let anchor := ops.any (fun o => anchorOp o.2) || c.seq.preBoundary
  if k.replaying then s.openBundle core k
  else if bundleIllegal k.lat.words k.lat.pool k.lat.cmask c.frame.isSome k.lat.il then s.candFault core k 1 0 0 false []
  else if c.seq.ilLeave && s.ilLeft core then s.waitOn core k true true
  else if anchor && !k.checked && ((!k.lat.il && s.exposedLeft core) || c.td.behind k.entry) then s.candFault core k 5 3 (anchorSlot ops) true []
  else if !k.checked && !k.lat.il && ops.any (fun o => match o.2 with
      | .waitc a _ => c.pendingKeys.contains a.toNat && a != 0#5
      | _ => false) then s.candFault core k 5 2 (anchorSlot ops) true []
  else match s.heldFault core ops anchor with
    | some f => f.1.candFault core k 10 0 f.2.1 true f.2.2
    | none =>
      if s.drains core k then s.waitOn core k true true
      else if k.lat.il && !(opsOf k.lat.words).isEmpty then s.askBundle core k
      else s.issueReady core k

/-- The slots have named their registers: the bundle waits for them; then an explicit anchor is checked for exposed results (R166), and the
bundle issues or waits for its events (R168). -/
def State.asked (s : State) : State :=
  let b := s.bnd
  let k : Candidate := { lat := b.lat, replaying := false, checked := b.checked, entry := b.entry, ctl := b.ctl }
  let ops := opsOf b.lat.words
  let s1 := { s with bnd := { Bundle.reset with core := b.core } }
  if s.scoreboardHolds b.core (b.uses ++ predKeys b.lat.words) then s1.waitOn b.core k true true
  else if !b.checked && ops.any (fun o => anchorOp o.2) && s1.exposedLeft b.core then s1.candFault b.core k 5 3 (anchorSlot ops) true []
  else s1.issueReady b.core k

/-! ### The turn of a core -/

/-- The image check at the first bundle of a launch or of a restored context (R164, R384): whether it fails. -/
def State.imageCheckFails (s : State) (core : Nat) (l : CoreLaunch) : Bool :=
  l.imageMode != ((s.core core).csrGet 0x102).setWidth 1 || !(match s.imageRunning core with
    | some i => s.imageMatches i core
    | none => false)

/-- The map-mismatch trap of the image check: RPL empty and TINFO zero (R384). -/
def State.imageTrap (s : State) (core : Nat) (lat : Latched) : State :=
  (if (s.core core).fpNow s.cycle then s
    else s.modCore core (fun c => { c with launch := c.launch.map (fun l => { l with checkDue := false }) })).candTrap core
      { lat := lat, replaying := false, checked := false, entry := none, ctl := .reset }
      { wholeReq 19 0 0 lat false [] s.cycle with word := 0#32, fslots := 0#12, rpl := 0#12 }

/-- Whether the image check is due and fails. -/
def State.imageCheck (s : State) (core : Nat) : Bool :=
  match (s.core core).launch with
  | some l => l.checkDue && s.imageCheckFails core l
  | none => false

/-- The check has passed. -/
def Core.imageChecked (c : Core) : Core := { c with launch := c.launch.map (fun l => { l with checkDue := false }) }

/-- The next bundle of a core in lockstep, or of a trap handler. -/
def State.freshTurn (s : State) (core : Nat) : State :=
  let c := s.core core
  match s.bundleAt core with
  | none =>
    if c.fpNow s.cycle then
      (s.fpTaken core).enterTrap core
        { wholeReq 14 0 0 { Latched.reset with pc := c.seq.pc } false [] s.cycle with refetch := true }
    else s.schedule s.cycle 0 (.instructionStoreSlip (coreId core))
  | some w =>
    let lat := s.latch core c.seq.pc w
    if s.imageCheck core then s.imageTrap core lat
    else (s.modCore core Core.imageChecked).tryIssue core { lat := lat, replaying := false, checked := false, entry := none, ctl := .reset }

/-- The bundle that `eret` brings back (R346). DEDUCED, unsafe: log entry 76. -/
def State.replayTurn (s : State) (core : Nat) (r : Replay) : State :=
  s.tryIssue core { lat := r.lat, replaying := !r.whole && !r.waits, checked := r.waits, entry := none, ctl := r.ctl }

/-! ### Timed dispatch (R111–R113) -/

/-- Whether the decoder may take one more bundle. -/
def TimedDispatch.mayDecode : List TdEntry → Bool
  | [] => true
  | e :: t => (match e.allow with
    | some a => decide (t.length < a)
    | none => true) && TimedDispatch.mayDecode t

/-- How far the decoder may run ahead of a bundle's release. DEDUCED, unsafe: log entry 50. -/
def decodeAllow (ops : List (Nat × Instr)) (pre atEnd : Bool) : Option Nat :=
  if pre || ops.any (fun o => anchorOp o.2 || stopsSa o.2 || (match o.2 with
      | .loop _ => true
      | .loopx _ => true
      | .bist _ => true
      | _ => false)) then some 0
  else if ops.any (fun o => o.2.isControl) then (if atEnd then some 0 else some 2)
  else none

/-- Whether a bundle lies at END of the innermost level. -/
def atLoopEnd (loops : List LoopLevel) (pc : BitVec 48) : Bool :=
  match loops with
  | [] => false
  | l :: _ => addrOf l.stop == pc

/-- The decoder moves on from a bundle whose control effect it need not await: the pc, its loops, and whether what follows is a timing origin
and the first bundle after a `.pre` boundary (R111, R161). -/
def TimedDispatch.advance (t : TimedDispatch) (pc : BitVec 48) : TimedDispatch × BitVec 48 :=
  match t.transfer with
  | some x => if x.left ≤ 1 then ({ t with transfer := none, origin := true, pre := false }, x.target)
    else ({ t with transfer := some { x with left := x.left - 1 }, pre := false }, pc + 64#48)
  | none =>
    if atLoopEnd t.loops pc then
      match t.loops with
      | [] => (t, pc + 64#48)
      | l :: rest =>
        if l.index.toNat + 1 < l.count.toNat then
          ({ t with loops := { l with index := l.index + 1#32 } :: rest, origin := true, pre := l.pre }, addrOf l.start)
        else ({ t with loops := rest, pre := l.pre }, pc + 64#48)
    else ({ t with pre := false }, pc + 64#48)

/-- Decode one bundle and queue its operations for their release (R111, R112): a timing origin that is not an anchor starts a new base; an anchor's TIME
counts from the base before it. An illegal bundle is found here, when it is decoded, and what its slots raise at their release. DESIGN CHOICE, unsafe: log
entry 96. -/
def State.decodeTurn (s : State) (core : Nat) : State :=
  let c := s.core core
  let td := c.td
  if !TimedDispatch.mayDecode td.entries then s
  else match s.bundleAt core with
    | none => s.schedule s.cycle 0 (.instructionStoreSlip (coreId core))
    | some w =>
      let lat := s.latch core c.seq.pc w
      let origin := td.origin && !(td.pre || (opsOf w.words).any (fun o => anchorOp o.2))
      let full := w.words.any (fun x => decide (16 ≤ (td.entries.filter (fun e => e.words.any (fun y => y.1 == x.1))).length))
      let base := if origin then td.lastRelease + 1 else td.base
      let last := if origin then 0 else td.lastTime
      let release := base + w.time
      if s.imageCheck core then s.imageTrap core lat
      else if bundleIllegal w.words w.pool w.cmask false (td.loops.any (·.il)) then s.enterTrap core (wholeReq 1 0 0 lat false [] s.cycle)
      else if full then (if c.seq.waitEntry.isSome then s else s.waits core true none)
      else if w.time < last ∨ release < s.cycle + 1 then s.enterTrap core (wholeReq 5 4 0 lat false [] s.cycle)
      else
        let allow := decodeAllow (opsOf w.words) (td.pre || c.leaving) (atLoopEnd td.loops c.seq.pc)
        let n := s.fresh
        let e : TdEntry :=
          { id := n.1, pc := c.seq.pc, cmask := w.cmask, words := w.words, pool := w.pool, release := release, decoded := s.cycle, allow := allow }
        let td1 := { td with base := base, lastTime := w.time, lastRelease := release, origin := false, entries := td.entries ++ [e] }
        let next := if allow = some 0 then (td1, c.seq.pc) else td1.advance c.seq.pc
        n.2.modCore core (fun x =>
          { x.imageChecked with td := next.1, seq := { x.seq with pc := next.2, nextIssue := s.cycle + 1, idle := 0 } })

/-- The bundle whose operations are released in this cycle: the first in program order. What is held for this cycle, and slots to be issued
again, come before it (R111, R341, R346). -/
def Core.releaseDue (c : Core) (now : Nat) : Option Nat :=
  if c.seq.run == .running && c.timed && !c.owedNow now && !(match c.replay with
      | some r => decide (r.at_ ≤ now)
      | none => false) then
    (c.td.entries.find? (fun e => decide (e.release ≤ now))).map (·.id)
  else none

/-- The operations of a decoded bundle are released at base + TIME (R111). -/
def State.release (s : State) (core id : Nat) : State :=
  let c := s.core core
  if c.releaseDue s.cycle != some id then s
  else match c.td.entries.find? (fun e => e.id == id) with
    | none => s
    | some e =>
      s.tryIssue core
        { lat := s.latch core e.pc { cmask := e.cmask, time := 0, words := e.words, pool := e.pool }, replaying := false, checked := false,
          entry := some id, ctl := { Ctl.reset with released := e.allow != some 0 } }

/-- TIMED_DISPATCH_RELEASE (R111) -/
def execTimedDispatchRelease (core : CoreId) (id : Nat) (s : State) : Host.Outcome State Fault Refusal := .next (s.release core.val id)

/-! ### The end of a bundle (R110, R161, R200–R203, R304, R344) -/

/-- The keep window stays open after `belay.begin` and after keeps that stand alone (R314). -/
def keepsWindow (words : List (Nat × W32)) : Bool :=
  match words with
  | [(11, w)] => bitsNat w 31 26 == 10 || bitsNat w 31 26 == 11
  | _ => words.any (fun x => x.1 == 11 && bitsNat x.2 31 26 == 10)

/-- A bundle's fault is complete: the frame keeps its operands and control effects, for the slots that `eret` issues again. -/
def Core.closeFaulted (c : Core) (b : Bundle) (f : TrapFrame) : Core :=
  { c with frame := some { f with latched := b.lat, ctl := b.ctl } }

/-- What follows a bundle in the sequencer (R110, R200–R202): the pc, the pending transfer and the next issue. -/
def Sequencer.after (q : Sequencer) (b : Bundle) (now : Nat) : Sequencer :=
  let q1 := { q with lastPc := b.lat.pc, lastIssue := now, nextIssue := now + 1 + b.lat.time, delay := if b.ctl.form then 2 else q.delay - 1 }
  let pc := b.lat.pc + 64#48
  match q.transfer with
  | some t => if t.left ≤ 1 then { q1 with transfer := none, pc := t.target } else { q1 with transfer := some { t with left := t.left - 1 }, pc := pc }
  | none =>
    match b.ctl.jump, b.ctl.taken with
    | some a, _ => { q1 with pc := a }
    | none, some a => { q1 with transfer := some { target := a, left := 2 }, pc := pc }
    | none, none => { q1 with pc := pc }

/-- The sequencer and the decoder after a bundle that timed dispatch released: the decoder holds the pc. -/
def Core.afterReleased (c : Core) (b : Bundle) (now : Nat) : Core :=
  let q := { c.seq.after b now with pc := c.seq.pc, nextIssue := c.seq.nextIssue }
  match b.ctl.taken with
  | none => { c with seq := q }
  | some a =>
    let left := 2 - c.td.entries.length
    if left = 0 then { c with seq := { q with pc := a }, td := { c.td with origin := true, transfer := none, pre := false } }
    else { c with seq := q, td := { c.td with transfer := some { target := a, left := left } } }

/-- The decoder takes over where a bundle that it awaited ended: an anchor is a new base (R111). -/
def Core.resync (c : Core) (b : Bundle) (now : Nat) (moved : Bool) : Core :=
  let anchor := (opsOf b.lat.words).any (fun o => anchorOp o.2) || c.td.pre
  { c with
    seq := { c.seq with nextIssue := now },
    td := { c.td with
      loops := c.seq.loops, transfer := c.seq.transfer, pre := false, origin := moved, lastRelease := now,
      base := if anchor then now else c.td.base, lastTime := if anchor then 0 else c.td.lastTime } }

/-- A bundle of a running context has issued its last slot. -/
def State.advance (s : State) : State :=
  let b := s.bnd
  let core := b.core
  let c := s.core core
  let stop := atLoopEnd c.seq.loops b.lat.pc && c.seq.transfer.isNone && b.ctl.taken.isNone && b.ctl.jump.isNone
  let pushed := c.seq.loops.length != b.lat.loops.length
  let arrives := (match c.seq.transfer with
    | some t => decide (t.left ≤ 1)
    | none => false) || (pushed && decide (b.lat.loops.length < c.seq.loops.length))
  let begins := match c.belay.regions with
    | g :: _ => g.restart == b.lat.pc
    | [] => false
  let c1 := { c with seq := { c.seq with keepWindow := c.seq.keepWindow && (begins || keepsWindow b.lat.words) } }
  let c2 := if b.ctl.released then c1.afterReleased b s.cycle
    else
      let x := { c1 with seq := c1.seq.after b s.cycle }
      if c.timed then x.resync b s.cycle arrives else x
  let s1 := s.setCore core c2
  if stop then s1.schedule s.cycle 0 (.loopIterationBoundary (coreId core)) else s1

/-- `end` has issued: fetch stops, the pending transfer and the stacks are dropped, and the core waits to retire (R201, R304). -/
def Core.stopFetch (c : Core) (pc : BitVec 48) (now : Nat) : Core :=
  { c with seq := { c.seq with run := .retiring, pc := pc, transfer := none, delay := 0, loops := [], rets := [], lastPc := pc, lastIssue := now },
           td := { c.td with entries := [] } }

/-- The last slot of the issuing bundle has issued. In trap mode `end` retires the core and ends its launch (R344). -/
def State.finishBundle (s : State) : State :=
  let b := s.bnd
  let core := b.core
  let c := s.core core
  let s1 := { s with bnd := { b with active := false, rest := [] } }
  if c.seq.run = .halted then s1
  else match c.frame with
    | some f =>
      if !b.handler then s1.modCore core (fun x => x.closeFaulted b f)
      else if b.ctl.ended then s1.doubleTrap core
      else s1.advance
    | none =>
      if b.handler then s1
      else if b.ctl.ended then (s1.modCore core (fun x => x.stopFetch b.lat.pc s.cycle)).schedule (s.cycle) 6 (.coreRetirement (coreId core))
      else s1.advance

/-- HOLD (R113): performs nothing; its TIME follows it -/
def execHold (s : State) : Host.Outcome State Fault Refusal := .next (if s.bnd.active then s.finishBundle else s)

/-- The stage gates after a boundary (R163). -/
def shiftGates (p : BitVec 8) (goes : Bool) : BitVec 8 := setBit ((p &&& 0x0F#8) ||| ((p <<< 1) &&& 0xE0#8)) 4 goes

/-- The boundary of the innermost level (R161, R163, R168). `move`: the sequencer, not the decoder, holds the pc. -/
def Core.boundary (c : Core) (move : Bool) : Core :=
  match c.seq.loops with
  | [] => c
  | l :: rest =>
    let goes := decide (l.index.toNat + 1 < l.count.toNat)
    let loops := if goes then { l with index := l.index + 1#32 } :: rest else rest
    let pc := if goes then addrOf l.start else addrOf l.stop + 64#48
    { c with
      regs := if l.rot then { c.regs with p := shiftGates c.regs.p goes } else c.regs,
      td := if move && c.timed then { c.td with loops := loops, origin := c.td.origin || goes, pre := l.pre } else c.td,
      seq := { c.seq with
        loops := loops,
        rrb := if l.rot then c.seq.rrb + 1#4 else c.seq.rrb,
        pc := if move then pc else c.seq.pc,
        preBoundary := l.pre,
        delay := if goes then 0 else c.seq.delay,
        ilLeave := c.seq.ilLeave || (!goes && l.il) } }

/-- LOOP_ITERATION_BOUNDARY (R161, R163) -/
def execLoopIterationBoundary (core : CoreId) (s : State) : Host.Outcome State Fault Refusal :=
  .next (s.modCore core.val (fun c => c.boundary (!(s.bnd.core == core.val && s.bnd.ctl.released))))

/-! ### Trap handler entry and the watchdog (R342, R353, R403) -/

/-- A trap has caught a context that waited at its landing point: it has not left, its transfers go on, and after `eret` its landing bundle is decoded
afresh, for release in the next cycle (R346, R360). DEDUCED, unsafe: log entry 56. -/
def State.unland (s : State) (core : Nat) : State :=
  if (s.core core).save.isNone then s
  else
    let time := match s.bundleAt core with
      | some w => w.time
      | none => 0
    (s.modCore core (fun c => { c with frame := c.frame.map (fun f =>
      { f with td := { f.td with base := f.c + 1 - time, lastTime := 0, loops := c.seq.loops, pre := f.preBoundary } }) })).unsave core

/-- TRAP_HANDLER_ENTRY (R342): the handler's first bundle issues at c + 8 at TVEC; the firmware handler of an image with none ends the launch
(R403). A context that the trap caught at its landing point has not left. -/
def execTrapHandlerEntry (core : CoreId) (s0 : State) : Host.Outcome State Fault Refusal :=
  let s := s0.unland core.val
  let c := s.core core.val
  if c.frame.isNone || c.seq.run != .frozen then .next s
  else match c.launch with
    | some l =>
      if l.firmwareTrap then .next (s.endLaunch l.launch (if (c.csrGet 0x040).toNat % 256 = 17 then 0x01 else 0x02))
      else .next (s.setCore core.val { c with seq := { c.seq with run := .running, pc := BitVec.ofNat 48 (c.csrGet 0x044).toNat, nextIssue := s.cycle } })
    | none => .next (s.setCore core.val { c with seq := { c.seq with run := .running, pc := BitVec.ofNat 48 (c.csrGet 0x044).toNat, nextIssue := s.cycle } })

/-- The bundle at which a core waits, as a candidate: one to be issued again, a released one, or the one at the pc. -/
def State.waitingBundle (s : State) (core : Nat) : Option Candidate :=
  let c := s.core core
  match c.replayNow with
  | some r => some { lat := r.lat, replaying := false, checked := true, entry := none, ctl := r.ctl }
  | none =>
    match c.td.entries.find? (fun e => c.seq.waitEntry == some e.id) with
    | some e =>
      some { lat := s.latch core e.pc { cmask := e.cmask, time := 0, words := e.words, pool := e.pool }, replaying := false, checked := true,
             entry := some e.id, ctl := { Ctl.reset with released := e.allow != some 0 } }
    | none => (s.bundleAt core).map (fun w =>
        { lat := s.latch core c.seq.pc w, replaying := false, checked := true, entry := none, ctl := .reset })

/-- WATCHDOG_EXPIRY (R343, R353): a trap at the bundle that waits, with every present slot to be issued again; in trap mode a double trap -/
def execWatchdogExpiry (core : CoreId) (s : State) : Host.Outcome State Fault Refusal :=
  .next (match s.waitingBundle core.val with
    | none => s
    | some k => s.candFault core.val k 25 0 (anchorSlot (opsOf k.lat.words)) true [])

/-! ### The work of a step -/

/-- What the next step does: run an instruction or an event on a state, or only change the state; or it finds an event due before the counter. -/
inductive Work where
  | run (i : Instr) (s : State)
  | done (s : State)
  | past (cycle : Nat)

/-- The next slot of the issuing bundle, or its end (R129): a slot whose port another bundle has taken in this cycle raises a timing fault
(R112, R114, R116), a fence too, whose own checks raise none (R158). DESIGN CHOICE, unsafe: log entry 97. -/
def State.slotWork (s : State) : Work :=
  match s.bnd.rest with
  | [] => if s.bnd.probing then .done s.asked else if s.bnd.lat.words.isEmpty then .run .hold s else .done s.finishBundle
  | k :: rest =>
    if (s.core s.bnd.core).seq.run = .halted then .done s.finishBundle
    else
      let w := match s.bnd.lat.words.find? (fun w => w.1 == k.num) with
        | some w => w.2
        | none => 0#32
      let t := { s with bnd := { s.bnd with slot := k, word := w, rest := rest } }
      match decodeSlot k w with
      | .ok i => if bitAt s.bnd.busy k.num then .done (t.timingFault 5) else .run i t
      | .error _ => .done t.illegalInstruction

/-- Whether a core has something to do at its turn in this cycle. -/
def State.needsTurn (s : State) (c : Core) : Bool :=
  (c.seq.run == .running || c.seq.run == .retiring || c.seq.run == .saving) &&
    (c.fpNow s.cycle || c.owedNow s.cycle || (c.seq.run == .running && (decide (c.seq.nextIssue ≤ s.cycle) || (c.releaseDue s.cycle).isSome)))

/-- What a core that issues nothing else does in this cycle: an FP event is a trap of its own. -/
def State.idleTurn (s : State) (core : Nat) : State := if (s.core core).fpNow s.cycle then s.fpGoOn core else s

/-- A core's turn, where no queued operations are released. -/
def State.turnOf (s : State) (core : Nat) : State :=
  let c := s.core core
  if c.owedNow s.cycle && !c.fpNow s.cycle then s.raiseOwed core
  else if c.seq.run != .running || decide (s.cycle < c.seq.nextIssue) then s.idleTurn core
  else match c.replayNow with
    | some r => if c.fpNow s.cycle then s.fpGoOn core else if r.at_ ≤ s.cycle then s.replayTurn core r else s
    | none =>
      if c.timed then (if c.fpNow s.cycle then s.fpGoOn core else s.decodeTurn core)
      else s.freshTurn core

/-- The work at a cycle with nothing due before issue: the lowest core whose turn has not passed releases its queued operations or takes its turn;
then the rest of the agenda, then the next cycle (R2). -/
def State.coreWork (s : State) : Work :=
  match s.cores.find? (fun e => decide (s.turn ≤ e.1) && s.needsTurn e.2) with
  | some e =>
    match e.2.releaseDue s.cycle with
    | some id => .run (.timedDispatchRelease (coreId e.1) id) { s with turn := e.1 }
    | none =>
      let u := ({ s with turn := e.1 + 1 } : State).turnOf e.1
      let t := if ((u.core e.1).releaseDue u.cycle).isSome then { u with turn := e.1 } else u
      if t.bnd.active then t.slotWork else Work.done t
  | none =>
    match s.agenda with
    | d :: rest => if d.at_ = s.cycle then .run d.ev { s with agenda := rest } else .done { s with cycle := s.cycle + 1, turn := 0 }
    | [] => .done { s with cycle := s.cycle + 1, turn := 0 }

/-- The next work of the machine: a bundle that is issuing goes on; events before issue come first, then the cores in ascending order, then the
rest of the cycle. -/
def State.nextWork (s : State) : Work :=
  if s.bnd.active then s.slotWork
  else match s.agenda with
    | d :: rest =>
      if d.at_ < s.cycle then .past d.at_
      else if d.at_ = s.cycle ∧ d.prio ≤ 1 then .run d.ev { s with agenda := rest }
      else s.coreWork
    | [] => s.coreWork

/-! ### Placing a word where a core fetches (host interface) -/

/-- A bundle that holds one slot word: its header names the slot and every cluster (R106, R107). -/
def oneSlotBundle (k : SlotKind) (w : W32) : List Byte :=
  leBytes 4 (0xFF000000 + 2 ^ k.num) ++ leBytes 4 w.toNat ++ copies 56 0#8

/-- A core whose instruction store holds a bundle at its pc, about to issue it. -/
def Core.placeBundle (c : Core) (b : List Byte) (now : Nat) : Core :=
  let a := blockAddr c.seq.pc
  let off := c.seq.pc.toNat % 1024 / 64 * 64
  let old := match c.block c.seq.pc with
    | some x => x.bytes
    | none => copies 1024 0#8
  let x : CodeBlock :=
    { addr := a, asid := c.fetchAsid, objHash := c.imageTag.1, section_ := c.imageTag.2,
      bytes := (cut off old).1 ++ b ++ (cut (off + 64) old).2, locked := false, lastIssue := now }
  { c with code := { c.code with blocks := x :: c.code.blocks.filter (fun y => y.addr != a) }, seq := { c.seq with run := .running, nextIssue := now } }

/-- Core 0 about to issue a slot word, in the slot whose opcode column reads it; a `wfi` finds WAKE set. -/
def State.placeWord (s : State) (w : W32) : State :=
  let r := bareReading w
  let k := match r with
    | some x => x.1
    | none => .sa
  let s1 := { s with turn := 0 }.modCore 0 (fun c => c.placeBundle (oneSlotBundle k w) s.cycle)
  match r with
  | some (_, .wfi) => s1.modCore 0 (fun c => c.csrSet 0x103 (setBit (c.csrGet 0x103) 2 true))
  | _ => s1

end Sys2Proof.Machine
end

