-- ==== Sys2Proof/Machine/Rollback.lean ====
section
/-!
DEFINITION. Belay rollback (R317–R323, R381): stopping and discarding, the restore and the restart; and the return from a trap with its check of the
image's units (R343, R346, R382).
-/

namespace Sys2Proof.Machine

/-! ### Choosing the target (R320, R322) -/

/-- The region at a depth, counted from 1, the outermost. -/
def Belay.at_ (b : Belay) (depth : Nat) : Option Region := if depth = 0 then none else b.regions.reverse[depth - 1]?

/-- The depth at which an error that strikes depth `d` rolls back: it escalates past regions at their limit and unprotected ones; 0 where it
passes depth 1. -/
def Belay.escalate (b : Belay) (limit : Nat) : Nat → Nat
  | 0 => 0
  | d + 1 => match b.at_ (d + 1) with
    | some g => if g.unprotected || g.retry == limit then b.escalate limit d else d + 1
    | none => 0

/-- LIMIT of `BELAYRETRY`. -/
def Core.retryLimit (c : Core) : Nat := bitsNat (c.csrGet 0x007) 3 0

/-- The unrecovered-error trap (R322, R338): no slot is issued again, and the bundle of the cycle, or else the next one, is named. -/
def State.unrecovered (s : State) (core : Nat) : State :=
  let c := s.core core
  let pc := if c.seq.lastIssue = s.cycle then c.seq.lastPc else c.seq.pc
  (s.modCore core (fun x =>
    { x with belay := { x.belay with roll := none }, evacuate := false, leaving := false,
             seq := { x.seq with run := if x.seq.run = .rollingBack then .running else x.seq.run } })).enterTrap core
    { cause := 17, sub := 0, slot := 0, word := 0#32, pc := pc, fslots := 0#12, rpl := 0#12, reported := none, goOn := true, whole := false,
      waits := false, refetch := false, retiring := c.seq.run == .retiring, latched := .reset, records := [], nextIssue := c.seq.nextIssue }

/-! ### Stopping (R320 steps 1 and 2) -/

/-- Whether a rollback discards a result that lands after the error: exposed results and rows of tiles; other effects of the matrix engine and CSR
writes still land. DEDUCED, unsafe: log entry 35. -/
def Landing.discards (l : Landing) : Bool :=
  l.eff.exposed || decide (0 < l.busyCount) || (match l.eff with
    | .discardScales _ => true
    | .mmacRow _ => true
    | _ => false)

/-- The matrix engine with its scale queue empty, its run closed and its queue dropped (R263, R320). -/
def Matrix.stop (m : Matrix) : Matrix := { m with scaleQ := [], scaleIssue := [], discard := [], run := .reset, held := [], queue := [], pendingV := [] }

/-- The core as a rollback stops it: nothing issues, and what would land later is discarded. Causes of accesses issued before the target's H stay
held. -/
def Core.stopForRoll (c : Core) (now target h : Nat) : Core :=
  { c with
    inflight := c.inflight.filter (fun l => decide (l.at_ ≤ now) || !l.discards),
    td := { TimedDispatch.reset with base := c.td.base },
    mx := c.mx.stop,
    replay := none,
    owed := c.owed.filter (fun x => decide (x.issue < h)),
    owedFpe := false,
    slip := none,
    belay := { c.belay with roll := some { target := target, x := now + 1, due := 0, restored := false } },
    seq := { c.seq with run := .rollingBack, transfer := none, delay := 0, idle := 0, waitFrom := none, waitEntry := none, preBoundary := false,
                        ilDrain := false, ilLeave := false } }

/-- An event of a core's rollback under way. -/
def rollEvent (core : Nat) : Instr → Bool
  | .rollbackRestore c => c.val == core
  | .regionRestart c => c.val == core
  | _ => false

/-- A rollback under way is given up for a new one: its event falls away (R322). -/
def State.dropRoll (s : State) (core : Nat) : State := { s with agenda := s.agenda.filter (fun d => !rollEvent core d.ev) }

/-- Begin a rollback to a region, or take the unrecovered-error trap where there is none (R320, R322). -/
def State.startRoll (s : State) (core depth : Nat) : State :=
  match (s.core core).belay.at_ depth with
  | none => s.unrecovered core
  | some g =>
    let s1 := (s.dropRoll core).modCore core (fun c => c.stopForRoll s.cycle depth g.h)
    let s2 := s1.modRope (ropeOf core) (fun r =>
      { r with accs := listMod (fun a => a.core == core && !a.dead && a.kind.returns) (fun a => { a with discarded := true }) r.accs })
    (s2.cancelXfers core g.h).schedule (s.cycle + 1) 1 (.rollbackRestore (coreId core))

/-- A trap taken in the cycle of a detected error is not taken after all (R341): the trap registers and the sequencer are as they were before. -/
def Core.undoTrap (c : Core) (f : TrapFrame) : Core :=
  let c1 := c.csrSetAll f.undo
  { c1 with
    frame := none,
    inflight := c.inflight ++ f.landings,
    owed := (match f.reported with
      | some r => insertHeld r f.held
      | none => f.held),
    td := f.td,
    seq := { c.seq with run := if f.retiring then .retiring else .running, transfer := f.transfer, preBoundary := f.preBoundary, ilDrain := f.ilDrain, ilLeave := f.ilLeave, delay := f.delay, keepWindow := f.keepWindow, pc := f.pc, nextIssue := f.nextIssue } }

/-- A detected error of a core that neither a trap nor a rollback holds. DEDUCED, unsafe: log entry 53. -/
def State.errorStrikes (s : State) (core : Nat) : State :=
  let c := s.core core
  s.startRoll core (c.belay.escalate c.retryLimit c.belay.regions.length)

/-- The cause that a detected error during a self-test leaves (R340, R354). -/
def testedError (c : Core) (now : Nat) : HeldCause :=
  { cause := 17, sub := 0, pc := c.seq.pc, word := 0#32, issue := now, slot := 0, records := [] }

/-- DETECTED_ERROR_ROLLBACK (R317, R320, R322, R341, R343): a second error of one cycle joins the first; during steps 3 to 5 an error escalates -/
def execDetectedErrorRollback (core : CoreId) (s : State) : Host.Outcome State Fault Refusal :=
  let c := s.core core.val
  match c.frame with
  | some f =>
    if f.c = s.cycle then .next ((s.modCore core.val (fun x => x.undoTrap f)).errorStrikes core.val) else .next (s.doubleTrap core.val)
  | none =>
    match c.belay.roll with
    | some r =>
      if s.cycle < r.x then .next s
      else if r.restored then .next (s.errorStrikes core.val)
      else .next (s.startRoll core.val (c.belay.escalate c.retryLimit (r.target - 1)))
    | none =>
      match c.seq.run with
      | .idle => .next s
      | .waiting => .next s
      | .halted => .next s
      | .testing => .next (s.modCore core.val (fun x => { x with owed := insertHeld (testedError x s.cycle) x.owed }))
      | _ => .next (s.errorStrikes core.val)

/-! ### Restoring (R320 steps 3 to 6) -/

/-- Whether the wait of step 3 is over: no bank cycle of the core's accesses is left, and no far operation or fetch is outstanding (R156). -/
def State.rollQuiet (s : State) (core : Nat) : Bool :=
  !(s.rope (ropeOf core)).accs.any (fun a => a.core == core && !a.dead && (a.interlocked || !a.banks.isEmpty)) &&
    (s.core core).outstanding == 0

/-- The journal entry to write back next: of the innermost region still to be unwound, the newest. -/
def Belay.nextUndo (b : Belay) (target : Nat) : Option JournalEntry :=
  let d := maximumOf (b.journal.map (·.depth))
  if d < target then none else (b.journal.filter (fun e => e.depth == d)).getLast?

/-- The journal without an entry. -/
def Belay.dropUndo (b : Belay) (e : JournalEntry) : Belay :=
  { b with journal := b.journal.filter (fun x => !(x.depth == e.depth && x.line == e.line)) }

/-- An old line written back over the side path, but for the words that were live barrier words then or are now: their state is never rolled back
(R308). -/
def State.undoLine (s : State) (core : Nat) (e : JournalEntry) : State :=
  let rope := ropeOf core
  let words := ((upTo 8).map (fun k => e.line / 8 + k)).filter (fun n => !e.live.contains n && !(s.rope rope).typeBits.contains n)
  { (s.modCore core (fun c => { c with belay := c.belay.dropUndo e })) with
      mem := words.foldl (fun acc n => writeBytes acc (keyPad rope (8 * n)) (octets e.bytes (8 * n - e.line) 8)) s.mem }.overwrite (padHit rope words)

/-- Shadow tiles of the regions from the innermost out to the target, the target's last. -/
def Belay.shadows (b : Belay) (target : Nat) : List (Nat × Tbl W32 × Bool) :=
  (b.regions.take (b.regions.length + 1 - target)).flatMap (·.shadow)

/-- A tile put back from its shadow. -/
def Core.unshadow (c : Core) (x : Nat × Tbl W32 × Bool) : Core :=
  { c with mx := { c.mx with
      tiles := tblPutAll 0#32 x.2.1 (c.mx.tiles.filter (fun e => decide (e.1 < x.1 * 4096) || decide ((x.1 + 1) * 4096 ≤ e.1))),
      ovf := setBit c.mx.ovf x.1 x.2.2 } }

/-- The kept lanes and lane predicates of a region in physical clusters (R314, R380). -/
def keptWrites (m : CoreMap) (g : Region) : List RegWrite :=
  g.keptS.map (fun e => .s e.1 e.2) ++
    g.keptV.map (fun e => .v (vKey (m.phys (e.1 / 512)) (e.1 / 16 % 32) (e.1 % 16)) e.2) ++
    g.keptQ.map (fun e => .q (qKey (m.phys (e.1 / 8)) (e.1 % 8)) 0xFFFF#16 e.2)

/-- Lanes of kept vector registers and kept predicates that hold zero: the sparse copies list them nowhere. -/
def Region.keptZeros (m : CoreMap) (g : Region) : List RegWrite :=
  (upTo 8).flatMap (fun c => g.keptVregs.flatMap (fun r => (upTo 16).map (fun i => RegWrite.v (vKey (m.phys c) r i) 0#32))) ++
    (if !g.keptPreds then [] else (upTo 8).flatMap (fun c => (upTo 8).map (fun q => RegWrite.q (qKey (m.phys c) q) 0xFFFF#16 0#16)))

/-- Registers and sequencer state of the target put back, its retry counted and the inner regions popped (R312, R314, R320). -/
def Core.unwind (c : Core) (now : Nat) (m : CoreMap) (target : Nat) (g : Region) : Core :=
  let c1 := (((c.belay.shadows target).foldl Core.unshadow c).csrSetAll
    [(0x004, g.rndseq), (0x001, g.fpflags), (0x002, g.fpfirst),
     (0x006, BitVec.ofNat 64 ((bitsNat (c.csrGet 0x006) 63 32 + 1) % 2 ^ 32 * 2 ^ 32))]).note now 0x006 (· + 1)
  let n := c.belay.regions.length
  { c1 with
    regs := { (c.regs.writeAll (g.keptZeros m)).writeAll (keptWrites m g) with p := g.p },
    belay := { c.belay with
      regions := { g with retry := g.retry + 1 } :: c.belay.regions.drop (n + 1 - target),
      roll := c.belay.roll.map (fun r => { r with restored := true }) },
    seq := { c.seq with loops := g.loops, rets := g.rets, rrb := g.rrb, keepWindow := true } }

/-- The snapshot words that hold what a region restores: its kept registers, lane by lane, and its predicates (R41). -/
def Region.snapWords (g : Region) : List Nat := snapP :: (g.keptS.map (·.1) ++ keptWords g.keptVregs g.keptPreds)

/-- Whether the snapshot words of a kept set hold an uncorrectable error (R41). -/
def State.snapshotBad (s : State) (core : Nat) (g : Region) : Bool := s.flips.any (fun f => f.bad && snapHit core g.snapWords f.loc)

/-- The stored words that a restore writes anew: registers of the kept set, predicates, INDEX of the loop stack, and tiles (R41, R44). -/
def restoreHit (core : Nat) (m : CoreMap) (tiles : List Nat) (g : Region) (loc : StorageLoc) : Bool :=
  regHit core ((keptWrites m g ++ g.keptZeros m).map RegWrite.key ++ [65]) loc || (match loc with
    | .loopIndex c _ => c.val == core
    | .tile c t _ _ => c.val == core && tiles.contains t.val
    | _ => false)

/-- The restore of the target: correctable errors of the snapshot are corrected and counted, and the words written anew are good (R41, R320). -/
def State.unwindCore (s : State) (core target : Nat) (g : Region) : State :=
  let m := (s.bindMap core).core core
  let tiles := ((s.core core).belay.shadows target).map (·.1)
  ((s.consume core (snapHit core g.snapWords)).modCore core (fun x => x.unwind s.cycle m target g)).overwrite (restoreHit core m tiles g)

/-- ROLLBACK_RESTORE (R320): each cycle from X on. The wait, in which far values held for `eret` land (R156); then one journal entry at each granted cycle; then, 8 cycles after W at the earliest
and 32 for each shadow tile, the registers, the refill of a full hIn, and the wait for H′. What cannot be restored escalates. -/
def execRollbackRestore (core : CoreId) (s : State) : Host.Outcome State Fault Refusal :=
  let k := core.val
  let c := s.core k
  match c.belay.roll with
  | none => .next s
  | some r =>
    let again (t : State) : State := t.schedule (s.cycle + 1) 1 (.rollbackRestore core)
    let esc : State := s.startRoll k (c.belay.escalate c.retryLimit (r.target - 1))
    if r.restored || s.cycle < r.x then .next s
    else if r.due = 0 ∧ !s.rollQuiet k then .next ((again s).releaseHeld k)
    else
      let w := if r.due = 0 then s.cycle else r.due
      let s1 := s.modCore k (fun x => { x with belay := { x.belay with roll := some { r with due := w } } })
      match c.belay.nextUndo r.target with
      | some e =>
        let st := storeStation k
        let rp := s.rope (ropeOf k)
        if !(upTo 64).any (fun i => rp.grantee (bankOf e.line) i == st) then .next esc
        else .next (again (if rp.grantee (bankOf e.line) s.cycle = st then s1.undoLine k e else s1))
      | none =>
        if s.cycle < w + 8 ∨ s.cycle < w + 32 * (c.belay.shadows r.target).length then .next (again s1)
        else match c.belay.at_ r.target with
          | none => .next s
          | some g =>
            if s.snapshotBad k g then .next esc
            else
              let s2 := s1.unwindCore k r.target g
              .next ((if g.pitch then s2.refillHandle k g.hIn else s2).schedule s.cycle 1 (.regionRestart core))

/-- The target's `belay.begin` bundle without its SY operation, to be issued again at H′ with its operands as they then stand (R321). -/
def Core.beside (c : Core) (g : Region) (now : Nat) (words : List (Nat × W32)) : Replay :=
  { at_ := now,
    lat := { g.beside with words := words, regs := c.regs, rrb := g.rrb, loops := g.loops, il := c.interlocked, clk := now, sq := [],
                           cmptFail := false },
    ctl := .reset, whole := true, waits := true }

/-- The core restarts: its `belay.begin` bundle issues again in this cycle with the other slots given, and what follows it in the sequencer follows
it again (R321). DEDUCED, unsafe: log entry 34. -/
def Core.restart (c : Core) (g : Region) (now : Nat) (words : List (Nat × W32)) : Core :=
  { c with
    belay := { c.belay with roll := none, regions := (match c.belay.regions with
      | [] => []
      | x :: t => { x with h := now } :: t) },
    owedAt := now,
    replay := some (c.beside g now words),
    td := { TimedDispatch.reset with base := now, lastRelease := now, loops := g.loops },
    seq := { c.seq with run := .running, pc := g.restart, nextIssue := now } }

/-- The slots of the `belay.begin` bundle that a restart issues again: of a core that leaves, those that reach no dead unit, for it does not rerun on its
old image (R321, R381). DEDUCED, unsafe: log entry 34. -/
def State.restartWords (s : State) (core : Nat) (g : Region) : List (Nat × W32) :=
  let now := s.measuredCore (dieOf core) core
  if !(s.core core).evacuate then g.beside.words
  else g.beside.words.filter (fun w =>
    (unitsReached ((s.bindMap core).core core) { cmask := g.beside.cmask, time := 0, words := [w], pool := g.beside.pool }).all
      (fun k => now.keyState k != 3))

/-- REGION_RESTART (R321, R381): H′ is congruent to H modulo 64 and, for a pitch, not before hIn is full or faulted. The restart point of a core that lost a
unit in use is a landing point: MAPEV is set, and the core leaves there. -/
def execRegionRestart (core : CoreId) (s : State) : Host.Outcome State Fault Refusal :=
  let k := core.val
  let c := s.core k
  match c.belay.roll, c.belay.regions with
  | some r, g :: _ =>
    let st := ((s.rope (ropeOf k)).handle g.hIn).st
    if !r.restored then .next s
    else if s.cycle % 64 = g.h % 64 ∧ (!g.pitch ∨ st = .full ∨ st = .faulted) then
      let s1 := s.modCore k (fun x => x.restart g s.cycle (s.restartWords k g))
      .next (if c.evacuate then s1.modCore k (fun x => { x.request s.cycle 1 with evacuate := false, leaving := true }) else s1)
    else .next (s.schedule (s.cycle + 1) 1 (.regionRestart core))
  | _, _ => .next s

/-! ### eret (R343, R346, R382) -/

/-- The bundles of the image that a core runs. -/
def State.imageBody (s : State) (core : Nat) : List Byte :=
  match (s.core core).launch, s.imageRunning core with
  | some l, some i =>
    if l.trans.isSome then i.body
    else match s.objectOf l.objHash with
      | some o => (match o.expanded.find? (fun e => e.1 == i.index) with
        | some e => e.2
        | none => i.body)
      | none => i.body
  | _, _ => []

/-- Whether a unit that the running image names is dead (R382). -/
def State.imageDead (s : State) (core : Nat) : Bool :=
  let m := (s.bindMap core).core core
  let now := s.measuredCore (dieOf core) core
  let body := s.imageBody core
  let dead := (upTo 76).filter (fun k => now.keyState k == 3)
  !dead.isEmpty && (upTo (body.length / 64)).any (fun i => (unitsReached m (bundleWord (octets body (64 * i) 64))).any (fun k => dead.contains k))

/-- Whether a result of a trap-mode operation has still to land or is pending: a value for s0 is none (R39), and the destination of a far operation that
faulted stays pending (R38, R343). DEDUCED, unsafe: log entry 44. -/
def State.handlerBusy (s : State) (core : Nat) : Bool :=
  let c := s.core core
  c.inflight.any (fun l => l.handler && l.eff.exposed && decide (s.cycle ≤ l.at_)) ||
    (s.rope (ropeOf core)).accs.any (fun a => a.core == core && a.handler && !a.dead && a.exposed) ||
    c.far.ops.any (fun f => f.handler && f.phase != .landed && f.kind.returns && f.dest != 0)

/-- The context does not resume: at E it rolls back to the head of its innermost region and leaves its core there (R382). -/
def State.evacuateAt (s : State) (core e : Nat) : State :=
  (s.modCore core (fun c =>
    { c with replay := none, evacuate := true, seq := { c.seq with run := .rollingBack } })).schedule e 6 (.detectedErrorRollback (coreId core))

/-- ERET (R343, R346, R382): outside trap mode a privileged fault; with a result of the handler in flight or pending a double trap -/
def execEret (s : State) : Host.Outcome State Fault Refusal :=
  let core := s.bnd.core
  if !s.bnd.handler then .next (s.slotFault 4 0 true [])
  else if s.handlerBusy core then .next (s.doubleTrap core)
  else
    match (s.core core).frame with
    | none => .next s
    | some f =>
      let dead := s.imageDead core
      let s1 := s.leaveTrap core
      .next (if dead then s1.evacuateAt core (resumeCycle f.c s.cycle) else s1)

end Sys2Proof.Machine
end

