-- ==== Sys2Proof/Machine/Context.lean ====
section
/-!
DEFINITION. Pre-emption (R300, R359–R362, R379, R478): landing, the wait for what is in flight, the resume record and its sections, and what a
record puts back on a core.
-/

namespace Sys2Proof.Machine

/-! ### Byte layouts -/

/-- Bytes padded with zeros to a length. -/
def padTo (n : Nat) (b : List Byte) : List Byte := b ++ copies (n - b.length) 0#8
/-- A truth value as a byte. -/
def boolByte (b : Bool) : List Byte := [if b then 1#8 else 0#8]
/-- A list cut into pieces of the given lengths, and the rest. -/
def cuts {α : Type} : List Nat → List α → List (List α) × List α
  | [], b => ([], b)
  | n :: ns, b => let r := cuts ns (cut n b).2; ((cut n b).1 :: r.1, r.2)
/-- A list of naturals summed. -/
def total (l : List Nat) : Nat := l.foldl (· + ·) 0

/-! ### The sections of a record (R362) -/

/-- FLAGS of a loop level (R160). -/
def LoopLevel.flags (l : LoopLevel) : Nat := (if l.rot then 1 else 0) + (if l.pre then 2 else 0) + (if l.il then 4 else 0)
/-- A loop level without its addresses: 16 bytes. -/
def LoopLevel.bytes (l : LoopLevel) : List Byte := leBytes 4 l.count.toNat ++ leBytes 4 l.index.toNat ++ leBytes 1 l.flags ++ copies 7 0#8
/-- A loop level from its 16 bytes and its START and END addresses. -/
def loopOf (b : List Byte) (start stop : BitVec 48) : LoopLevel :=
  let f := natAt b 8 1
  { start := start.extractLsb' 6 42, stop := stop.extractLsb' 6 42, count := BitVec.ofNat 32 (natAt b 0 4), index := BitVec.ofNat 32 (natAt b 4 4),
    rot := field f 0 1 == 1, pre := field f 1 1 == 1, il := field f 2 1 == 1 }

/-- Section 1, SEQ. -/
def Core.secSeq (c : Core) : List Byte :=
  [BitVec.ofNat 8 c.seq.loops.length, BitVec.ofNat 8 c.seq.rets.length, c.seq.rrb.setWidth 8] ++ boolByte c.latch.valid ++ boolByte c.latch.released ++
    leBytes 8 c.latch.addr.toNat ++ leBytes 8 c.latch.cycle ++ c.seq.loops.flatMap LoopLevel.bytes

/-- Section 2, SCALAR: p0 reads as 1. -/
def Core.secScalar (c : Core) : List Byte := (upTo 31).flatMap (fun i => leBytes 8 (c.regs.sGet (i + 1)).toNat) ++ [c.regs.p ||| 1#8]

/-- One logical cluster's registers, at its physical cluster. -/
def RegFile.clusterBytes (r : RegFile) (p : Nat) : List Byte :=
  (upTo 32).flatMap (fun k => (upTo 16).flatMap (fun i => leBytes 4 (r.vGet (vKey p k i)).toNat)) ++
    (upTo 7).flatMap (fun n => leBytes 2 (r.qGet p (n + 1)).toNat)

/-- Section 3, VECTOR: v0–v15 by name are v0–v15 themselves, and v16–v31 stand by physical number. -/
def Core.secVector (c : Core) (m : CoreMap) : List Byte := (upTo 8).flatMap (fun k => c.regs.clusterBytes (m.phys k))

/-- `FPFIRST` with ADDR zeroed. -/
def noAddr (v : W64) : W64 := v &&& ~~~0x0000FFFFFFFFFFC0#64

/-- Section 4, CSR. -/
def Core.secCsr (c : Core) : List Byte :=
  leBytes 8 (c.csrGet 0x001).toNat ++ leBytes 8 (noAddr (c.csrGet 0x002)).toNat ++ leBytes 8 (c.csrGet 0x003).toNat ++ leBytes 8 (c.csrGet 0x004).toNat ++
    leBytes 8 (c.csrGet 0x007).toNat ++ leBytes 8 (bitsNat (c.csrGet 0x006) 63 32)

/-- Elements of a tile. -/
def tileElems (tiles : Tbl W32) (t : Nat) : Tbl W32 := tiles.filter (fun e => e.1 / 4096 == t)
/-- A tile as 16,384 bytes, rows and columns ascending. -/
def tileBytes (tiles : Tbl W32) (t : Nat) : List Byte :=
  let es := tileElems tiles t
  (upTo 4096).flatMap (fun i => leBytes 4 (tblGet 0#32 (t * 4096 + i) es).toNat)
/-- Elements of a tile from its bytes. -/
def tileOf (t : Nat) (b : List Byte) : Tbl W32 :=
  (upTo 4096).filterMap (fun i => let w := BitVec.ofNat 32 (natAt b (4 * i) 4); if w = 0#32 then none else some (t * 4096 + i, w))

/-- Tiles with a nonzero element: those a record holds as live. -/
def liveTiles (tiles : Tbl W32) : List Nat := (upTo 192).filter (fun t => tiles.any (fun e => e.1 / 4096 == t))

/-- Section 5, TILES. -/
def Core.secTiles (c : Core) : List Byte :=
  let live := liveTiles c.mx.tiles
  leBytes 24 (total (live.map (fun t => 2 ^ t))) ++ leBytes 24 c.mx.ovf.toNat ++ live.flatMap (tileBytes c.mx.tiles)

/-- Bytes of one inner accumulator, sign-extended to 32 bits. -/
def innerBytes (x : Int) : List Byte := leBytes 4 (BitVec.ofInt 32 x).toNat

/-- Columns of a run's entry, none where the run is closed. -/
def MatrixRun.cols (r : MatrixRun) : Nat := if r.isOpen then fmtN r.entry else 0

/-- Section 6, MATRIX. -/
def Core.secMatrix (c : Core) : List Byte :=
  let r := c.mx.run
  (upTo 128).flatMap (fun i => padTo 96 (c.mx.row i)) ++ (upTo 64).flatMap (fun i => leBytes 8 (c.mx.entry i).toNat) ++
    (match c.mx.bind with
      | some b => [1#8, BitVec.ofNat 8 b.1, BitVec.ofNat 8 b.2, 0#8]
      | none => copies 4 0#8) ++
    boolByte r.isOpen ++ boolByte r.ovf ++ leBytes 1 r.rt ++ leBytes 1 r.rm ++ leBytes 1 r.re ++ leBytes 1 r.count ++ copies 6 0#8 ++
    leBytes 8 r.entry.toNat ++ padTo 128 r.rsa ++ padTo 192 r.rsb ++
    (upTo (if r.isOpen then r.rm else 0)).flatMap (fun m => (upTo r.cols).flatMap (fun n => innerBytes (tblGet 0 (m * 192 + n) r.inner))) ++
    leBytes 4 c.mx.scaleQ.length ++ c.mx.scaleQ.flatMap (padTo 64)

/-- A transposing unit: block, capture, MASK, CAPV, ESIZE and the age of the capture. -/
def Transposer.bytes (x : Transposer) (now : Nat) : List Byte :=
  let rows (t : Tbl (BitVec 512)) : List Byte := (upTo 16).flatMap (fun i => leBytes 64 (tblGet 0#512 i t).toNat)
  rows x.block ++ rows x.capture ++ leBytes 2 x.mask.toNat ++ boolByte x.capV ++ [x.esize.setWidth 8] ++
    leBytes 1 (if x.capV then min 15 (now - x.capCycle) else 0) ++ copies 3 0#8

/-- Section 7, TRANSPOSE. -/
def Core.secTranspose (c : Core) (m : CoreMap) (now : Nat) : List Byte := (upTo 8).flatMap (fun k => (c.xtUnit (m.phys k)).bytes now)

/-- The fixed part and the loop levels of a region descriptor. -/
def Region.desc (g : Region) : List Byte :=
  boolByte g.pitch ++ leBytes 1 g.hIn ++ leBytes 1 g.hOut ++ leBytes 1 g.retry ++ boolByte g.unprotected ++ leBytes 1 (g.h % 64) ++
    [g.rrb.setWidth 8, g.p] ++ leBytes 1 g.loops.length ++ leBytes 1 g.rets.length ++ leBytes 1 g.keptS.length ++ leBytes 1 g.keptVregs.length ++
    leBytes 1 g.shadow.length ++ boolByte g.keptPreds ++ copies 2 0#8 ++ leBytes 4 g.movedLines ++ copies 4 0#8 ++ leBytes 8 g.rndseq.toNat ++ leBytes 8 g.fpflags.toNat ++
    leBytes 8 (noAddr g.fpfirst).toNat ++ g.loops.flatMap LoopLevel.bytes

/-- The snapshot copies of a region: kept s registers, the numbers of kept v registers, their lanes by logical cluster, and q1–q7. -/
def Region.snap (g : Region) : List Byte :=
  g.keptS.flatMap (fun e => leBytes 1 e.1 ++ leBytes 8 e.2.toNat) ++ g.keptVregs.flatMap (fun r => leBytes 1 r) ++
    (upTo 8).flatMap (fun c => g.keptVregs.flatMap (fun r => (upTo 16).flatMap (fun i => leBytes 4 (tblGet 0#32 (vKey c r i) g.keptV).toNat))) ++
    (if !g.keptPreds then []
      else (upTo 8).flatMap (fun c => (upTo 7).flatMap (fun n => leBytes 2 (tblGet 0#16 (qKey c (n + 1)) g.keptQ).toNat)))

/-- The shadow tiles of a region with their overflow bits. -/
def Region.shadowBytes (g : Region) : List Byte := g.shadow.flatMap (fun x => leBytes 1 x.1 ++ boolByte x.2.2 ++ tileBytes x.2.1 x.1)

/-- A journal entry: address, depth, which of its words were live barrier words, and line, 128 bytes. -/
def JournalEntry.record (e : JournalEntry) : List Byte :=
  leBytes 8 e.line ++ leBytes 1 e.depth ++ leBytes 1 (total (((upTo 8).filter (fun k => e.live.contains (e.line / 8 + k))).map (fun k => 2 ^ k))) ++
    copies 54 0#8 ++ padTo 64 e.bytes
/-- A journal entry from its record. -/
def journalOf (j : List Byte) : JournalEntry :=
  let line := natAt j 0 8
  { depth := natAt j 8 1, line := line, bytes := octets j 64 64,
    live := ((upTo 8).filter (fun k => field (natAt j 9 1) k 1 == 1)).map (fun k => line / 8 + k) }

/-- Section 8, BELAY: regions outermost first. -/
def Core.secBelay (c : Core) : List Byte :=
  let gs := c.belay.regions.reverse
  leBytes 1 gs.length ++ copies 3 0#8 ++ leBytes 4 c.belay.journal.length ++ gs.flatMap Region.desc ++ c.belay.journal.flatMap JournalEntry.record ++
    gs.flatMap Region.snap ++ gs.flatMap Region.shadowBytes

/-- A latched descriptor: 64 bytes. -/
def XferDesc.bytes (d : XferDesc) : List Byte :=
  leBytes 1 d.op ++ leBytes 1 d.eng ++ leBytes 2 d.rows ++ leBytes 2 d.tag.toNat ++ copies 2 0#8 ++ leBytes 8 d.len ++ leBytes 8 d.src.toNat ++
    leBytes 8 d.dst.toNat ++ leBytes 8 (BitVec.ofInt 64 d.sstr).toNat ++ leBytes 8 (BitVec.ofInt 64 d.dstr).toNat ++ leBytes 8 d.root.toNat ++ copies 8 0#8
/-- A latched descriptor from its bytes. -/
def xferDescOf (b : List Byte) : XferDesc :=
  { op := natAt b 0 1, eng := natAt b 1 1, rows := natAt b 2 2, tag := BitVec.ofNat 16 (natAt b 4 2), len := natAt b 8 8, src := BitVec.ofNat 64 (natAt b 16 8),
    dst := BitVec.ofNat 64 (natAt b 24 8), sstr := (BitVec.ofNat 64 (natAt b 32 8)).toInt, dstr := (BitVec.ofNat 64 (natAt b 40 8)).toInt,
    root := BitVec.ofNat 64 (natAt b 48 8) }

/-- A handle's two words (R65). -/
def HandleState.code : HandleState → Nat
  | .free => 0
  | .filling => 1
  | .full => 2
  | .draining => 3
  | .faulted => 4
def handleStateOf (n : Nat) : HandleState :=
  match n with
  | 1 => .filling
  | 2 => .full
  | 3 => .draining
  | 4 => .faulted
  | _ => .free
def Handle.word0 (h : Handle) : Nat :=
  h.tag.toNat * 2 ^ 48 + h.chk.toNat * 2 ^ 44 + (if h.wb then 2 ^ 43 else 0) + h.st.code * 2 ^ 40 + (if h.st = .faulted then h.fcode % 16 * 2 ^ 36 else 0) +
    h.base * 2 ^ 17 + h.len
def Handle.bytes (h : Handle) : List Byte := leBytes 8 h.word0 ++ leBytes 8 (if h.st = .faulted then h.faddr.toNat else 0)
/-- A handle from its two words, its write-back address and its refill record. -/
def handleOf (b : List Byte) (wb : W64) (refill : Option XferDesc) : Handle :=
  let w := natAt b 0 8
  { tag := BitVec.ofNat 16 (field w 48 16), chk := BitVec.ofNat 4 (field w 44 4), wb := field w 43 1 == 1, st := handleStateOf (field w 40 3),
    fcode := field w 36 4, faddr := BitVec.ofNat 64 (natAt b 8 8), base := field w 17 17, len := field w 0 17, wbAddr := wb, refill := refill, filler := 0 }

/-- Section 9, ROPE: handles, write-back table, refill records. -/
def Rope.section9 (r : Rope) : List Byte :=
  (upTo 64).flatMap (fun h => (r.handle h).bytes) ++ (upTo 64).flatMap (fun h => leBytes 8 (r.handle h).wbAddr.toNat) ++
    (upTo 64).flatMap (fun h => match (r.handle h).refill with
      | some d => [1#8] ++ copies 7 0#8 ++ d.bytes
      | none => copies 72 0#8)

/-- One unbegun transfer: descriptor, S0, handle, engine, rank and whether it has counted as late, 128 bytes. -/
def Xfer.record (x : Xfer) : List Byte :=
  x.desc.bytes ++ leBytes 8 x.s0 ++ (match x.handle with
    | some h => [1#8, BitVec.ofNat 8 h]
    | none => [0#8, 0#8]) ++ leBytes 1 x.desc.eng ++ leBytes 1 x.rank ++ boolByte x.late ++ copies 51 0#8

/-- Section 10, ENGINE. -/
def Core.secEngine (c : Core) : List Byte := c.heldXfers.flatMap Xfer.record

/-! ### The record (R361) -/

/-- The header fields of a record. -/
structure RecordHead where
  tag : List Byte
  kernel : Nat
  rpid : Nat
  lcore : Nat
  mode : Nat
  mapev : Bool
  savecyc : Nat
  deriving DecidableEq, Repr

/-- Directory entries and padded contents of sections that follow one another from an offset. -/
def layOut : List (Nat × List Byte) → Nat → List Byte × List Byte
  | [], _ => ([], [])
  | x :: t, off =>
    let size := roundUp x.2.length 64
    let r := layOut t (off + size)
    (leBytes 4 x.1 ++ leBytes 4 x.2.length ++ leBytes 8 off ++ r.1, padTo size x.2 ++ r.2)

/-- A record from its header fields and its sections in order. DESIGN CHOICE, unsafe: log entry 54. -/
def encodeRecord (h : RecordHead) (secs : List (Nat × List Byte)) : List Byte :=
  let l := layOut secs 0x140
  let flags := h.mode % 2 + (if h.mapev then 2 else 0) + (if secs.any (fun x => x.1 == 9) then 4 else 0)
  leBytes 8 0x000000014B524543 ++ padTo 16 h.tag ++ leBytes 4 h.kernel ++ leBytes 4 h.rpid ++ leBytes 4 h.lcore ++ leBytes 2 flags ++
    leBytes 2 secs.length ++ leBytes 4 (0x140 + l.2.length) ++ copies 4 0#8 ++ leBytes 8 h.savecyc ++ copies 8 0#8 ++ padTo 256 l.1 ++ l.2

/-- The header fields and sections that a record's bytes name. -/
def recordHead (b : List Byte) : RecordHead :=
  { tag := octets b 0x08 16, kernel := natAt b 0x18 4, rpid := natAt b 0x1C 4, lcore := natAt b 0x20 4, mode := natAt b 0x24 2 % 2,
    mapev := field (natAt b 0x24 2) 1 1 == 1, savecyc := natAt b 0x30 8 }
def recordSections (b : List Byte) : List (Nat × List Byte) :=
  (upTo (min 16 (natAt b 0x26 2))).map (fun i => (natAt b (0x40 + 16 * i) 4, octets b (natAt b (0x48 + 16 * i) 8) (natAt b (0x44 + 16 * i) 4)))
/-- A section of a record. -/
def recSection (b : List Byte) (kind : Nat) : List Byte :=
  match (recordSections b).find? (fun x => x.1 == kind) with
  | some x => x.2
  | none => []

/-- Lengths of the region descriptors of a BELAY section, from their loop counts. -/
def descLens : Nat → List Byte → List Nat
  | 0, _ => []
  | n + 1, b => let k := 48 + 16 * natAt b 8 1; k :: descLens n (b.drop k)
/-- Lengths of a region's snapshot copies and of its shadow tiles, from its descriptor. -/
def snapLen (d : List Byte) : Nat :=
  let v := natAt d 11 1
  9 * natAt d 10 1 + v + 512 * v + (if natAt d 13 1 = 0 then 0 else 112)
def shadowLen (d : List Byte) : Nat := 16386 * natAt d 12 1

/-- A BELAY section taken apart: descriptors, journal entries, snapshots, shadow tiles; and what is left. -/
structure BelayParts where
  descs : List (List Byte)
  journal : List (List Byte)
  snaps : List (List Byte)
  shadows : List (List Byte)
  left : List Byte
  deriving DecidableEq, Repr

def belayParts (b : List Byte) : BelayParts :=
  let body := b.drop 8
  let ds := cuts (descLens (natAt b 0 1) body) body
  let js := cuts (copies (natAt b 4 4) 128) ds.2
  let ss := cuts (ds.1.map snapLen) js.2
  let hs := cuts (ds.1.map shadowLen) ss.2
  { descs := ds.1, journal := js.1, snaps := ss.1, shadows := hs.1, left := hs.2 }

/-- The length that a section's kind, and the counts in it, imply (R411). -/
def sectionLen (kind : Nat) (b : List Byte) : Nat :=
  match kind with
  | 1 => 21 + 16 * natAt b 0 1
  | 2 => 249
  | 3 => 16496
  | 4 => 48
  | 5 => 48 + 16384 * ((upTo 192).filter (fun t => field (natAt b 0 24) t 1 == 1)).length
  | 6 =>
    let base := 12804
    let inner := if natAt b base 1 = 1 then 4 * natAt b (base + 3) 1 * fmtN (BitVec.ofNat 64 (natAt b (base + 12) 8)) else 0
    base + 20 + 320 + inner + 4 + 64 * natAt b (base + 340 + inner) 4
  | 7 => 8 * 2056
  | 8 =>
    let p := belayParts b
    8 + total (descLens (natAt b 0 1) (b.drop 8)) + 128 * natAt b 4 4 + total (p.descs.map snapLen) + total (p.descs.map shadowLen)
  | 9 => 64 * (16 + 8 + 72)
  | 10 => b.length / 128 * 128
  | _ => b.length + 1

/-- Spans of a section, as offset and length, that hold no field: they are zero (R8, R411). -/
def sectionZeros (kind : Nat) (b : List Byte) : List (Nat × Nat) :=
  let desc (at_ : Nat) : List (Nat × Nat) := [(at_ + 6, 2), (at_ + 56, 8)]
  match kind with
  | 1 => (upTo (natAt b 0 1)).map (fun i => (21 + 16 * i + 9, 7))
  | 4 => [(44, 4)]
  | 6 =>
    let base := 12804
    let opened := natAt b base 1 == 1
    let rm := if opened then natAt b (base + 3) 1 else 0
    let cols := if opened then fmtN (BitVec.ofNat 64 (natAt b (base + 12) 8)) else 0
    [(12803, 1), (base + 6, 6), (base + 20 + rm, 128 - rm), (base + 148 + cols, 192 - cols)]
  | 7 => (upTo 8).map (fun c => (2056 * c + 2053, 3))
  | 8 =>
    let ds := descLens (natAt b 0 1) (b.drop 8)
    let starts := (upTo ds.length).map (fun i => 8 + total (ds.take i))
    (1, 3) :: starts.flatMap (fun d => [(d + 14, 2), (d + 20, 4)]) ++
      (upTo (natAt b 4 4)).map (fun i => (8 + total ds + 128 * i + 10, 54))
  | 9 => (upTo 64).flatMap (fun h => (1536 + 72 * h + 1, 7) :: desc (1536 + 72 * h + 8))
  | 10 => (upTo (b.length / 128)).flatMap (fun k => (128 * k + 77, 51) :: desc (128 * k))
  | _ => []

/-- The bits of one 64-bit word of a section that hold no field, as the word's offset and the bits' mask: of the control registers, the format table and
the handles (R65, R218, R219, R253, R362). -/
def sectionMasks (kind : Nat) (b : List Byte) : List (Nat × W64) :=
  let fpflags (at_ : Nat) : Nat × W64 := (at_, 0xFFC0FC0000000000#64)
  let fpfirst (at_ : Nat) : Nat × W64 := (at_, 0x0003FFFFFFFFFFF0#64)
  let sequence (at_ : Nat) : Nat × W64 := (at_, 0xFFFFFFFF00000000#64)
  let format (at_ : Nat) : Nat × W64 := (at_, 0xFFFFFFFFFFE00010#64)
  match kind with
  | 4 => [fpflags 0, fpfirst 8, sequence 24]
  | 6 => format 12816 :: (upTo 64).map (fun i => format (12288 + 8 * i))
  | 8 =>
    let ds := descLens (natAt b 0 1) (b.drop 8)
    (upTo ds.length).flatMap (fun i => let d := 8 + total (ds.take i); [sequence (d + 24), fpflags (d + 32), fpfirst (d + 40)])
  | 9 => (upTo 64).map (fun h => (16 * h, 0x0000000C00000000#64))
  | _ => []

/-- Flags of a section that hold one bit in a byte: no other bit is set (R8, R411). -/
def sectionFlags (kind : Nat) (b : List Byte) : List Nat :=
  match kind with
  | 1 => [3, 4]
  | 6 => [12800, 12804, 12805]
  | 7 => (upTo 8).map (fun c => 2056 * c + 2050)
  | 8 =>
    let ds := descLens (natAt b 0 1) (b.drop 8)
    (upTo ds.length).flatMap (fun i => let d := 8 + total (ds.take i); [d, d + 4, d + 13])
  | 9 => (upTo 64).map (fun h => 1536 + 72 * h)
  | 10 => (upTo (b.length / 128)).flatMap (fun k => [128 * k + 72, 128 * k + 76])
  | _ => []

/-- Whether the reserved fields of a section are zero. DESIGN CHOICE, unsafe: log entry 54. -/
def sectionClear (kind : Nat) (b : List Byte) : Bool :=
  (sectionZeros kind b).all (fun z => zeroAt b z.1 z.2) && (sectionFlags kind b).all (fun k => decide (natAt b k 1 ≤ 1)) &&
    (sectionMasks kind b).all (fun x => BitVec.ofNat 64 (natAt b x.1 8) &&& x.2 == 0#64)

/-- Whether a record is well formed: its bytes are those that its own header, directory and sections give, and every section has the length its
kind implies and no reserved field set (R8, R361, R411). -/
def recordWf (b : List Byte) : Bool :=
  let secs := recordSections b
  encodeRecord (recordHead b) secs == b && secs.all (fun x => x.2.length == sectionLen x.1 x.2 && sectionClear x.1 x.2) &&
    [1, 2, 3, 4, 5, 6, 7].all (fun k => (secs.filter (fun x => x.1 == k)).length == 1) &&
    [8, 9, 10].all (fun k => decide ((secs.filter (fun x => x.1 == k)).length ≤ 1))

/-- The resume record of a core: section 8 stands where a region is open, section 10 where a transfer is unbegun (R392), and that of logical position 0
holds its rope's section (R169, R361, R362). -/
def State.contextRecord (s : State) (core rpid savecyc : Nat) (l : CoreLaunch) : List Byte :=
  let c := s.core core
  let m := (s.bindMap core).core core
  encodeRecord
    { tag := l.objHash, kernel := l.kernel, rpid := rpid, lcore := l.lcore, mode := (c.csrGet 0x102).toNat % 2, mapev := bitAt (c.csrGet 0x103) 1,
      savecyc := savecyc }
    ([(1, c.secSeq), (2, c.secScalar), (3, c.secVector m), (4, c.secCsr), (5, c.secTiles), (6, c.secMatrix), (7, c.secTranspose m savecyc)] ++
      (if c.belay.regions.isEmpty then [] else [(8, c.secBelay)]) ++ (if l.lcore % 4 = 0 then [(9, (s.rope (ropeOf core)).section9)] else []) ++
      (if c.heldXfers.isEmpty then [] else [(10, c.secEngine)]))

/-! ### Landing (R300, R360, R478) -/

/-- The landing: the bundle does not issue, later decoded bundles are discarded, and the save waits for what is in flight. -/
def State.landContext (s : State) (core rpid : Nat) : State :=
  ((s.modCore core (fun c =>
    { c with
      save := some (s.cycle, rpid),
      td := { TimedDispatch.reset with base := c.td.base },
      seq := { c.seq with run := .saving, delay := 0, idle := 0, waitFrom := none, waitEntry := none } })).holdXfers core).scheduleFree 6 (.contextSaveComplete (coreId core))

/-- PREEMPTION_LANDING (R360): where the image has no resume point for the bundle and the return stack, the context goes on -/
def execPreemptionLanding (core : CoreId) (s : State) : Host.Outcome State Fault Refusal :=
  let c := s.core core.val
  match s.resumePoint core.val c.seq.pc with
  | none => .next s
  | some e =>
    if c.frame.isSome || c.seq.run != .running || bitsNat (c.csrGet 0x103) 1 0 == 0 then .next s
    else .next (s.landContext core.val e.desc.rpid)

/-- Whether something of the core is still in flight: results, matrix operations, accesses, far operations, begun transfers (R360). -/
def State.saveWaits (s : State) (core : Nat) : Bool :=
  let c := s.core core
  c.inflight.any (fun l => decide (s.cycle ≤ l.at_)) || !c.mx.queue.isEmpty || decide (s.cycle < c.mx.arrayFree) || c.farWaits ||
    (s.rope (ropeOf core)).accs.any (fun a => a.core == core && !a.dead) ||
    (s.rope (ropeOf core)).engines.any (fun e => e.2.active.any (fun x => x.core == core))

/-- The data-translation trap of a far fault that is found while the core waits at its landing point: no slot is issued again, and the bundle is
fetched afresh after `eret`, where the request lands again. DEDUCED, unsafe: log entry 56. -/
def State.saveTrap (s : State) (core : Nat) (records : List (Nat × W64)) : State :=
  let pc := (s.core core).seq.pc
  (s.modCore core Core.farReported).enterTrap core
    { cause := 10, sub := 0, slot := 11, word := 0#32, pc := pc, fslots := 0#12, rpl := 0#12, reported := none, goOn := false, whole := true,
      waits := true, refetch := true, retiring := false, latched := .reset, records := records, nextIssue := s.cycle }

/-- Cores of a launch on a die. -/
def State.coresOn (s : State) (launch die : Nat) : List Nat := (s.coresOf launch).filter (fun c => dieOf c == die)

/-- A core has left its launch: once every core of the die has, the die reports — a pre-emption where some context was saved, else a retirement
(R183, R185). -/
def State.dieReports (s : State) (core launch : Nat) : State :=
  let d := dieOf core
  let cs := s.coresOn launch d
  if !cs.all (fun c => (s.core c).left) then s
  else
    let saved := match s.launch launch with
      | some l => cs.any (fun c => match (s.core c).launch with
        | some x => l.records.any (fun r => r.1 == x.lcore)
        | none => false)
      | none => false
    s.scheduleFree 6 (if saved then .preemptionReport (dieId d) launch else .retirementReport (dieId d) launch)

/-- The context has been written: REQ and MAPEV clear, the core is empty, and a launch that leaves one core leaves all of them.
DESIGN CHOICE, unsafe: log entry 22. -/
def State.contextSaved (s : State) (core : Nat) (l : CoreLaunch) (addr : W64) : State :=
  let s1 := s.modCore core (fun c =>
    { c.csrSet 0x103 (c.csrGet 0x103 &&& ~~~3#64) with save := none, heldXfers := [], belay := .reset, evacuate := false, leaving := false, seq := { c.seq with run := .idle } })
  let s2 := s1.modLaunch l.launch (fun x => { x with
    records := tblSet l.lcore addr x.records, locked := tblSet l.lcore (l.section_, (s.core core).lockAddrs) x.locked })
  let running : Bool := match s2.launch l.launch with
    | some x => x.phase == .running
    | none => false
  (if running then s2.preempt l.launch else s2).dieReports core l.launch

/-- The accesses of a core's save are no longer waited for: it does not save. -/
def State.saveDropped (s : State) (ev : Instr) : State := { s with disp := { s.disp with asked := s.disp.asked.erase ev } }

/-- CONTEXT_SAVE_COMPLETE (R360): the core waits as `wfar` waits, then its record is written at the address in `CTXBASE`, once the ports have started its
lines as requests of code 19 (R63, R64) and the host link takes them (R20) -/
def execContextSaveComplete (core : CoreId) (s : State) : Host.Outcome State Fault Refusal :=
  let k := core.val
  let c := s.core k
  let ev := Instr.contextSaveComplete core
  match c.save, c.launch with
  | some v, some l =>
    if c.seq.run != .saving then .next (s.saveDropped ev)
    else match c.far.fault with
      | some f => .next ((s.saveDropped ev).saveTrap k f.records)
      | none =>
        let a := c.csrGet 0x104
        if s.saveWaits k || s.postsWait a then .next (s.schedule (s.cycle + 1) 6 ev)
        else
          let b := s.contextRecord k v.2 v.1 l
          let root := c.csrGet 0x100
          .next (s.afterGrants 19 (s.lineKeys l.tenant (rootAsid root) root (b.length / 64) a .write) ev (fun s =>
            match s.writeLines l.tenant (rootAsid root) root (b.length / 64) a b with
            | some t => t.contextSaved k l a
            | none => s.contextSaved k l a))
  | _, _ => .next (s.saveDropped ev)

/-! ### What a record puts back on a core (R380, R411) -/

/-- Registers from sections 2 and 3, each logical cluster in the physical cluster that the map names; the spare cluster and k0–k15 are not written
(R380, R393). -/
def restoreRegs (r : RegFile) (b : List Byte) (m : CoreMap) : RegFile :=
  let sc := recSection b 2
  let ve := recSection b 3
  let ws : List RegWrite :=
    (upTo 31).map (fun i => .s (i + 1) (BitVec.ofNat 64 (natAt sc (8 * i) 8))) ++
      (upTo 8).flatMap (fun c => (upTo 512).map (fun i => RegWrite.v (m.phys c * 512 + i) (BitVec.ofNat 32 (natAt ve (2062 * c + 4 * i) 4)))) ++
      (upTo 8).flatMap (fun c => (upTo 7).map (fun n =>
        RegWrite.q (qKey (m.phys c) (n + 1)) 0xFFFF#16 (BitVec.ofNat 16 (natAt ve (2062 * c + 2048 + 2 * n) 2))))
  { r.writeAll ws with p := BitVec.ofNat 8 (natAt sc 248 1) &&& 0xFE#8 }

/-- The barrier latch of section 1. -/
def restoreLatch (b : List Byte) : BarrierLatch :=
  { valid := natAt b 3 1 == 1, released := natAt b 4 1 == 1, addr := BitVec.ofNat 64 (natAt b 5 8), cycle := natAt b 13 8 }

/-- Address of a bundle of an image. -/
def bundleAddr (ib : BitVec 48) (i : Nat) : BitVec 48 := ib + BitVec.ofNat 48 (64 * i)

/-- Loop levels, i0 first, from their 16-byte records and the START and END bundles of a resume point. -/
def restoreLoops (ib : BitVec 48) (b : List Byte) (at_ : List (Nat × Nat)) : List LoopLevel :=
  (upTo at_.length).map (fun i =>
    let e := nth (0, 0) at_ i
    loopOf (octets b (16 * i) 16) (bundleAddr ib e.1) (bundleAddr ib e.2))

/-- The matrix engine from sections 5 and 6. -/
def restoreMatrix (ti ma : List Byte) : Matrix :=
  let live := (upTo 192).filter (fun t => field (natAt ti 0 24) t 1 == 1)
  let base := 12804
  let opened := natAt ma base 1 == 1
  let entry := BitVec.ofNat 64 (natAt ma (base + 12) 8)
  let rm := natAt ma (base + 3) 1
  let cols := if opened then fmtN entry else 0
  let inner := base + 340
  let q := inner + 4 * (if opened then rm else 0) * cols
  { Matrix.reset with
    tiles := (upTo live.length).flatMap (fun i => tileOf (nth 0 live i) (octets ti (48 + 16384 * i) 16384)),
    ovf := BitVec.ofNat 192 (natAt ti 24 24),
    rowBuf := tblPutAll (copies 96 0#8) ((upTo 128).map (fun i => (i, octets ma (96 * i) 96))) [],
    fmt := tblPutAll 0#64 ((upTo 64).map (fun i => (i, BitVec.ofNat 64 (natAt ma (12288 + 8 * i) 8)))) [],
    bind := if natAt ma 12800 1 = 1 then some (natAt ma 12801 1, natAt ma 12802 1) else none,
    scaleQ := (upTo (natAt ma q 4)).map (fun i => octets ma (q + 4 + 64 * i) 64),
    scaleIssue := copies (natAt ma q 4) 0,
    run := {
      isOpen := opened
      ovf := natAt ma (base + 1) 1 == 1
      rt := natAt ma (base + 2) 1
      rm := rm
      re := natAt ma (base + 4) 1
      count := natAt ma (base + 5) 1
      entry := entry
      rsa := octets ma (base + 20) (if opened then rm else 0)
      rsb := octets ma (base + 148) cols
      inner := tblPutAll 0 ((upTo (if opened then rm else 0)).flatMap (fun m => (upTo cols).map (fun n =>
        (m * 192 + n, (BitVec.ofNat 32 (natAt ma (inner + 4 * (m * cols + n)) 4)).toInt)))) [] } }

/-- The transposing units from section 7, that of the spare cluster as it was: a capture keeps its age (R362). -/
def restoreXt (xt : Tbl Transposer) (b : List Byte) (m : CoreMap) (now : Nat) : Tbl Transposer :=
  (upTo 8).foldl (fun acc c =>
    let x := octets b (2056 * c) 2056
    let rows (off : Nat) : Tbl (BitVec 512) := tblPutAll 0#512 ((upTo 16).map (fun i => (i, BitVec.ofNat 512 (natAt x (off + 64 * i) 64)))) []
    tblSet (m.phys c)
      { esize := BitVec.ofNat 2 (natAt x 2051 1), block := rows 0, mask := BitVec.ofNat 16 (natAt x 2048 2), capture := rows 1024,
        capV := natAt x 2050 1 == 1, capCycle := now - natAt x 2052 1 } acc) xt

/-- The latest cycle before `now` congruent with `r` modulo 64. -/
def cycleBefore (now r : Nat) : Nat := now - 1 - (now - 1 + 64 - r % 64) % 64

/-- The slots of a `belay.begin` bundle beside its anchor, as a replay of the bundle takes them (R321). -/
def besideOf (pc : BitVec 48) (w : BundleWord) : Latched :=
  { Latched.reset with pc := pc, cmask := w.cmask, time := w.time, pool := w.pool, words := w.words.filter (fun x => x.1 != 11) }

/-- A region from its parts. `begin_` is the address of its `belay.begin` bundle and `bundle` that bundle. DEDUCED, unsafe: log entry 55. -/
def restoreRegion (d snap sh : List Byte) (ib : BitVec 48) (e : ResumeEntry) (begin_ : BitVec 48) (bundle : BundleWord) (now : Nat) : Region :=
  let nl := natAt d 8 1
  let nr := natAt d 9 1
  let ns := natAt d 10 1
  let nv := natAt d 11 1
  let vregs := (upTo nv).map (fun i => natAt snap (9 * ns + i) 1)
  let lanes := 9 * ns + nv
  let h := cycleBefore now (natAt d 5 1)
  { pitch := natAt d 0 1 == 1, hIn := natAt d 1 1, hOut := natAt d 2 1, h := h, first := 0, restart := begin_, time := bundle.time,
    beside := besideOf begin_ bundle,
    rets := ((e.rets.take nr).map (bundleAddr ib)).reverse,
    loops := restoreLoops ib (octets d 48 (16 * nl)) (e.loops.drop (e.loops.length - nl)),
    rrb := BitVec.ofNat 4 (natAt d 6 1), p := BitVec.ofNat 8 (natAt d 7 1), rndseq := BitVec.ofNat 64 (natAt d 24 8),
    fpflags := BitVec.ofNat 64 (natAt d 32 8), fpfirst := BitVec.ofNat 64 (natAt d 40 8), retry := natAt d 3 1, unprotected := natAt d 4 1 == 1,
    keptS := (upTo ns).map (fun i => (natAt snap (9 * i) 1, BitVec.ofNat 64 (natAt snap (9 * i + 1) 8))),
    keptV := tblPutAll 0#32 ((upTo 8).flatMap (fun c => (upTo nv).flatMap (fun i => (upTo 16).map (fun k =>
      (vKey c (nth 0 vregs i) k, BitVec.ofNat 32 (natAt snap (lanes + 64 * (nv * c + i) + 4 * k) 4)))))) [],
    keptQ := if natAt d 13 1 = 0 then [] else tblPutAll 0#16 ((upTo 8).flatMap (fun c => (upTo 7).map (fun n =>
      (qKey c (n + 1), BitVec.ofNat 16 (natAt snap (lanes + 512 * nv + 14 * c + 2 * n) 2))))) [],
    keptVregs := vregs,
    keptPreds := natAt d 13 1 == 1,
    shadow := (upTo (natAt d 12 1)).map (fun i =>
      let x := octets sh (16386 * i) 16386
      (natAt x 0 1, tileOf (natAt x 0 1) (x.drop 2), natAt x 1 1 == 1)),
    movedLines := natAt d 16 4 }

/-- The belay state from section 8: region heads and their restart points come from the image's resume point (R411). -/
def restoreBelay (b : List Byte) (ib : BitVec 48) (e : ResumeEntry) (bundleOf : Nat → BundleWord) (now : Nat) : Belay :=
  let p := belayParts b
  let n := p.descs.length
  let gs := (upTo n).map (fun i =>
    let k := nth 0 e.regs i
    restoreRegion (nth [] p.descs i) (nth [] p.snaps i) (nth [] p.shadows i) ib e (bundleAddr ib k - 64#48) (bundleOf (k - 1)) now)
  { regions := gs.reverse, journal := p.journal.map journalOf, roll := none }

/-- Handles of a rope from section 9: those that the tenant owns. -/
def Rope.restore9 (r : Rope) (own : Nat → Bool) (b : List Byte) : Rope :=
  if b.isEmpty then r
  else
    (upTo 64).foldl (fun acc h =>
      if !own h then acc else
      let f := octets b (1536 + 72 * h) 72
      acc.setHandle h (handleOf (octets b (16 * h) 16) (BitVec.ofNat 64 (natAt b (1024 + 8 * h) 8))
        (if natAt f 0 1 = 1 then some (xferDescOf (f.drop 8)) else none))) r

/-- Whether the depths and loop flags of a record are those that its kernel gives its resume point (R411). -/
def recordFits (b : List Byte) (d : ResumeDesc) : Bool :=
  let q := recSection b 1
  natAt q 0 1 == d.ldepth && natAt q 1 1 == d.rdepth && natAt (recSection b 8) 0 1 == d.bdepth &&
    (upTo d.ldepth).all (fun i => natAt q (21 + 16 * i + 8) 1 == natAt d.lflags i 1)

end Sys2Proof.Machine
end

