-- ==== Sys2Proof/Machine/Special.lean ====
section
/-!
DEFINITION. The special-function and cross-cluster forms of the XF slot (R243–R245).
-/

namespace Sys2Proof.Machine

/-- An XF operation: the unit of each enabled cluster is checked and occupied; `from_` lists the clusters whose v[a] is read. -/
def State.xfSlot (s : State) (o : XfOp) (srcs : List Nat) (from_ : List Nat) (dsts : List Nat) (body : State → State) : State :=
  let m := s.bm
  let ps := s.clusters.map m.phys
  s.slotOp
    { reach := ps.map xfKey, units := ps.map xfKey,
      reads := s.vecKeys (from_.map m.phys) srcs [] ++ s.vecKeys ps [] [o.q.toNat],
      writes := s.vecKeys ps dsts [], holds := true, rs := false } true body

/-- The landing delay of an XF form in a physical cluster (R131, R245). -/
def State.xfDelay (s : State) (p nominal : Nat) : Nat := unitDelay nominal (s.bm.keyHalf (xfKey p)) (s.bm.xfAdd p)

/-- Land lanes cluster by cluster, each at its own delay. -/
def State.landPer (s : State) (outs : List (Nat × List LaneOut)) : State :=
  outs.foldl (fun acc e => if e.2.isEmpty then acc else acc.landLanes e.1 e.2) s

/-- One of the nine functions (R212, R214, R243). -/
def State.xfFunction (s : State) (o : XfOp) (op : Nat) : State :=
  let w := typeWidth o.ty.toNat
  s.xfSlot o [o.a.toNat] s.clusters [o.d.toNat] (fun t =>
    let m := s.bm
    t.landPer (s.clusters.map (fun c =>
      let p := m.phys c
      let q := s.qAt p o.q.toNat
      (s.xfDelay p 8, ((upTo 16).filter (fun i => bitAt q i)).map (fun i =>
        let r := perElem w (fun j => xFunction op (typeFmt o.ty.toNat) s.bnd.lat.il (elemAt w j (s.vAt p (s.vreg o.a.toNat) i)))
        { cluster := c, phys := p, reg := s.vreg o.d.toNat, lane := i, w := r.1, fl := r.2 })))))

/-- XEXP2 (R243) -/
def execXexp2 (o : XfOp) (s : State) : Host.Outcome State Fault Refusal := .next (s.xfFunction o 1)
/-- XLOG2 (R243) -/
def execXlog2 (o : XfOp) (s : State) : Host.Outcome State Fault Refusal := .next (s.xfFunction o 2)
/-- XRCP (R243) -/
def execXrcp (o : XfOp) (s : State) : Host.Outcome State Fault Refusal := .next (s.xfFunction o 3)
/-- XRSQ (R243) -/
def execXrsq (o : XfOp) (s : State) : Host.Outcome State Fault Refusal := .next (s.xfFunction o 4)
/-- XSQRT (R243) -/
def execXsqrt (o : XfOp) (s : State) : Host.Outcome State Fault Refusal := .next (s.xfFunction o 5)
/-- XTANH (R243) -/
def execXtanh (o : XfOp) (s : State) : Host.Outcome State Fault Refusal := .next (s.xfFunction o 6)
/-- XSIG (R243) -/
def execXsig (o : XfOp) (s : State) : Host.Outcome State Fault Refusal := .next (s.xfFunction o 7)
/-- XSIN (R243) -/
def execXsin (o : XfOp) (s : State) : Host.Outcome State Fault Refusal := .next (s.xfFunction o 8)
/-- XCOS (R243) -/
def execXcos (o : XfOp) (s : State) : Host.Outcome State Fault Refusal := .next (s.xfFunction o 9)

/-- Lanes that every enabled cluster takes from another one: the source is read whatever its CMASK bit and q are (R244). -/
def State.crossMove (s : State) (o : XfOp) (src : Nat → Nat) (delay : Nat → Nat → Nat) : State :=
  s.xfSlot o [o.a.toNat] (s.clusters.map src) [o.d.toNat] (fun t =>
    let m := s.bm
    t.landPer (s.clusters.map (fun c =>
      let p := m.phys c
      let from_ := m.phys (src c)
      let q := s.qAt p o.q.toNat
      (delay p from_, ((upTo 16).filter (fun i => bitAt q i)).map (fun i =>
        { cluster := c, phys := p, reg := s.vreg o.d.toNat, lane := i, w := s.vAt from_ (s.vreg o.a.toNat) i, fl := 0#6 })))))

/-- XFER (R244, R245): the nominal 4 at the unit's rate and adder, then the distance -/
def execXfer (o : XfOp) (s : State) : Host.Outcome State Fault Refusal :=
  .next (s.crossMove o (fun c => (c + o.c1.toNat) % 8) (fun p from_ => s.xfDelay p 4 + s.bm.distance p from_))

/-- XBCAST (R244) -/
def execXbcast (o : XfOp) (s : State) : Host.Outcome State Fault Refusal :=
  .next (s.crossMove o (fun _ => o.c1.toNat) (fun p _ => s.xfDelay p 5))

/-- The worst landing delay over the enabled clusters, for a form whose result lands in all of them together. -/
def State.xfDelayAll (s : State) (nominal : Nat) : Nat := maximumOf (s.clusters.map (fun c => s.xfDelay (s.bm.phys c) nominal))

/-- XRED (R221, R244): a tree over clusters 0–7; flags set once -/
def execXred (o : XfOp) (s : State) : Host.Outcome State Fault Refusal :=
  let kind := o.b.toNat
  .next (s.xfSlot o [o.a.toNat] s.clusters [o.d.toNat] (fun t =>
    let m := s.bm
    let xs : List FpRes := (upTo 8).map (fun c =>
      let p := m.phys c
      if bitAt s.bnd.lat.cmask c && bitAt (s.qAt p o.q.toNat) 0 then
        { bits := (s.vAt p (s.vreg o.a.toNat) 0).toNat, fl := 0#6 }
      else { bits := redIdentity true kind, fl := 0#6 })
    let r := nth { bits := 0, fl := 0#6 } (treeReduce (redCombine true kind s.bnd.lat.il) 3 xs) 0
    t.landPer (s.clusters.map (fun c =>
      let p := m.phys c
      (s.xfDelay p 10, [{ cluster := c, phys := p, reg := s.vreg o.d.toNat, lane := 0, w := BitVec.ofNat 32 r.bits,
                          fl := if s.clusters.head? = some c then r.fl else 0#6 }])))))

end Sys2Proof.Machine
end

