-- ==== Sys2Proof/Machine/Draw.lean ====
section
/-!
DEFINITION. Draw reductions (R273–R285): node records, leaves and temperature, the merge, `vdraw` and `xdraw`. The
collective chiplets merge with the same operation (R284).
-/

namespace Sys2Proof.Machine

/-- A node record (R273). LM holds FP32 bits. -/
structure DrawRec where
  lm : Nat
  index : Nat
  start : Nat
  level : Nat
  argmax : Bool
  noval : Bool
  deriving DecidableEq, Repr

/-- −∞: zero mass, and the sentinel index (R273, R278). -/
def negInf32 : Nat := fp32.withSign true fp32.infBits
def drawSentinel : Nat := 0xFFFFFFFF

/-- Whether a record has zero mass: a NaN log2-mass counts as such (R273, R283). -/
def DrawRec.massless (r : DrawRec) : Bool := r.lm == negInf32 || (fpDecode fp32 r.lm).isNan

/-- The LVF word of a record (R273). -/
def DrawRec.lvf (r : DrawRec) : W32 :=
  BitVec.ofNat 32 (r.level % 64 + (if r.argmax then 2 ^ 8 else 0) + (if r.noval then 2 ^ 9 else 0))

/-- A record from its four words. -/
def drawOf (lm index start lvf : W32) : DrawRec :=
  { lm := lm.toNat, index := index.toNat, start := start.toNat, level := bitsNat lvf 5 0, argmax := bitAt lvf 8, noval := bitAt lvf 9 }

/-- A rounded intermediate of the merge: a tiny value is flushed to +0 (R278). -/
def drawRn (r : FpRes) : Nat := if r.fl &&& flU != 0#6 then 0 else r.bits

/-- A rounded sum in the merge: its terms are read at their values, so that a node is the same whatever merges it (R278, R285). -/
def drawSum (a b : FpVal) : Nat := drawRn (fpSum fp32 .rne false [a, b])

/-- floor(2^32 × v) of an FP32 value in [0, 1] (R278). -/
def drawThreshold (b : Nat) : Nat :=
  match fpDecode fp32 b with
  | .fin _ m e => if 0 ≤ e + 32 then m * 2 ^ (e + 32).toNat else m / 2 ^ (-(e + 32)).toNat
  | _ => 0

/-- The parent of two records at a level and start (R278). -/
def drawMerge (seed : W64) (drawid : W32) (l r : DrawRec) (lv s : Nat) : DrawRec :=
  let p : DrawRec := { lm := negInf32, index := drawSentinel, start := s, level := lv, argmax := l.argmax, noval := false }
  let take (c : DrawRec) : DrawRec := { p with lm := c.lm, index := c.index }
  let right : Bool := decide (0 < fpCompare (fpDecode fp32 r.lm) (fpDecode fp32 l.lm))
  if l.noval || r.noval then { p with noval := true }
  else if l.massless then (if r.massless then p else take r)
  else if r.massless then take l
  else if l.argmax then (if right then take r else take l)
  else if l.lm = fp32.infBits ∧ r.lm ≠ fp32.infBits then take l
  else if r.lm = fp32.infBits ∧ l.lm ≠ fp32.infBits then take r
  else
    let hi := if right then r.lm else l.lm
    let lo := if right then l.lm else r.lm
    let val (b : Nat) : FpVal := fpDecode fp32 b
    let e := drawRn (xFunction 1 fp32 false (drawSum (val lo) (val hi).negate))
    let sm := drawSum (.fin false 1 0) (val e)
    let big := if l.lm = fp32.infBits then fp32.infBits else drawSum (val hi) (val (drawRn (xFunction 2 fp32 false sm)))
    let t := if l.lm = fp32.infBits then 2 ^ 31 else drawThreshold (drawRn (xFunction 1 fp32 false (drawSum (val r.lm) (val big).negate)))
    { p with lm := big, index := if (coin seed drawid lv (BitVec.ofNat 32 s)).toNat < t then r.index else l.index }

/-- Temperature classes, with the factor k of a weighted draw (R275). -/
inductive DrawMode where
  | invalid | argmax | uniform
  | weighted (k : Nat)
  deriving DecidableEq, Repr

/-- The class of a temperature after the input flush (R275). -/
def drawMode (il : Bool) (t : Nat) : DrawMode × FpFlags :=
  let x := fpRead fp32 il t
  match x.1 with
  | .nan _ => (.invalid, x.2 ||| flV)
  | .inf n => if n then (.invalid, x.2 ||| flV) else (.uniform, x.2)
  | .fin n m e =>
    if m = 0 then (.argmax, x.2)
    else if n then (.invalid, x.2 ||| flV)
    else (.weighted (drawRn (fpMul fp32 .rne false (drawRn (xRcp fp32 false false m e)) 0x3FB8AA3B)), x.2)

/-- The leaf log2-mass of an included element, widened exactly; the element is read as R212 has it, and a tiny product is flushed (R275). -/
def drawLeaf (il : Bool) (fmt : FpFmt) (mode : DrawMode) (x : Nat) : Nat × FpFlags :=
  let v := fpRead fmt il x
  let b := (fpEncode fp32 .rne true v.1).bits
  match v.1 with
  | .nan _ => (negInf32, v.2 ||| flV)
  | _ =>
    if b = negInf32 then (negInf32, v.2)
    else match mode with
      | .invalid => (negInf32, v.2)
      | .argmax => (b, v.2)
      | .uniform => (0, v.2)
      | .weighted k =>
        if k = fp32.infBits ∧ v.1.isZero then (0, v.2)
        else if k = 0 ∧ b = fp32.infBits then (b, v.2)
        else
          let p := fpMulVal v.1 (fpDecode fp32 k)
          let r := fpEncode fp32 .rne false p.1
          (if r.fl &&& flU != 0#6 then fp32.withSign v.1.isNeg 0 else r.bits, v.2)

/-- One level of the canonical tree above the nodes of a list (R276). -/
def drawLevel (seed : W64) (drawid : W32) (lv : Nat) : List DrawRec → List DrawRec
  | a :: b :: t => drawMerge seed drawid a b lv a.start :: drawLevel seed drawid lv t
  | l => l

/-- `n` levels of the canonical tree from level `lv` up. -/
def drawTree (seed : W64) (drawid : W32) : Nat → Nat → List DrawRec → List DrawRec
  | 0, _, l => l
  | n + 1, lv, l => drawTree seed drawid n (lv + 1) (drawLevel seed drawid lv l)

/-- A draw descriptor as a cluster holds it (R274). -/
structure DrawDesc where
  temp : Nat
  base : Nat
  drawid : W32
  seed : W64
  root : Bool

/-- The descriptor in lanes 0–5 of a vector register of a physical cluster (R274). -/
def State.drawDesc (s : State) (p reg : Nat) : DrawDesc :=
  { temp := (s.vAt p reg 0).toNat, base := (s.vAt p reg 1).toNat, drawid := s.vAt p reg 2,
    seed := s.vAt p reg 4 ++ s.vAt p reg 3, root := bitAt (s.vAt p reg 5) 0 }

/-- Whether a record is a root of zero mass, which sets Z (R279). -/
def DrawRec.emptyRoot (r : DrawRec) (root : Bool) : Bool := root && r.massless && !r.noval

/-- A record as a root: one of zero mass has the sentinel as its INDEX (R279). -/
def DrawRec.rooted (r : DrawRec) (root : Bool) : DrawRec := if r.emptyRoot root then { r with index := drawSentinel } else r

/-- Lanes 0 and 1 of a record's register pair (R273). -/
def DrawRec.lanes (r : DrawRec) (cluster phys reg0 reg1 : Nat) : List LaneOut :=
  let out (reg lane : Nat) (w : W32) : LaneOut := { cluster := cluster, phys := phys, reg := reg, lane := lane, w := w, fl := 0#6 }
  [out reg0 0 (BitVec.ofNat 32 r.lm), out reg1 0 (BitVec.ofNat 32 r.index), out reg0 1 (BitVec.ofNat 32 r.start), out reg1 1 r.lvf]

/-- The record of one cluster, its flags, and the lowest lane that raised one (R281). -/
def State.drawCluster (s : State) (o : VecOp) (p : Nat) : DrawRec × FpFlags × Nat :=
  let d := s.drawDesc p (s.vreg o.b.toNat)
  let il := s.bnd.lat.il
  let ty := o.ty.toNat
  let n := typeElems ty
  let levels := if ty = 0 then 4 else 5
  let m := drawMode il d.temp
  let q := s.qAt p o.q.toNat
  let leaves : List (DrawRec × FpFlags) := (upTo 16).flatMap (fun i => (upTo n).map (fun j =>
    let e := n * i + j
    let r : Nat × FpFlags :=
      if bitAt q i then drawLeaf il (typeFmt ty) m.1 (elemAt (typeWidth ty) j (s.vAt p (s.vreg o.a.toNat) i)) else (negInf32, 0#6)
    ({ lm := r.1, index := d.base + e, start := d.base + e, level := 0, argmax := decide (m.1 = .argmax), noval := false }, r.2)))
  let sentinel : DrawRec :=
    { lm := negInf32, index := drawSentinel, start := d.base, level := levels, argmax := false, noval := true }
  if m.1 = .invalid then (sentinel, m.2, 0)
  else
    let rec_ := nth sentinel (drawTree d.seed d.drawid levels 1 (leaves.map (·.1))) 0
    let fl := leaves.foldl (fun acc l => acc ||| l.2) m.2
    let first := match (upTo leaves.length).find? (fun k => (nth (sentinel, 0#6) leaves k).2 != 0#6) with
      | some k => k / n
      | none => 0
    let z := rec_.emptyRoot d.root
    (rec_, if z then fl ||| flZ else fl, if m.2 != 0#6 || z then 0 else first)

/-- VDRAW (R280, R281) -/
def execVdraw (o : VecOp) (s : State) : Host.Outcome State Fault Refusal :=
  let d := o.d.toNat
  let w := if o.ty = 0#3 then 16 else 32
  if d % 2 ≠ 0 then .next s.illegalOperand
  else
    .next (s.vecSlot o [o.a.toNat, o.b.toNat] [d, d + 1] [] [] false (fun t =>
      let m := s.bm
      let bad := s.clusters.any (fun c =>
        let base := (s.drawDesc (m.phys c) (s.vreg o.b.toNat)).base
        base % w != 0 || decide (0xFFFFFF00 < base + w))
      if bad then t.illegalOperand
      else
        let rs := s.clusters.map (fun c => (c, s.drawCluster o (m.phys c)))
        let fl := rs.foldl (fun acc r => acc ||| r.2.2.1) 0#6
        let at_ := match rs.find? (fun r => r.2.2.1 != 0#6) with
          | some r => (r.1, r.2.2.2)
          | none => (0, 0)
        let outs := rs.flatMap (fun r => r.2.1.lanes r.1 (m.phys r.1) (s.vreg d) (s.vreg (d + 1)))
        t.land (s.colDelay o.unit.toNat 10) (.regs (outs.map (fun x => .v (vKey x.phys x.reg x.lane) x.w))) fl at_.1 at_.2 0 0))

/-- Whether two sibling records may be merged (R283). -/
def drawSiblings (l r : DrawRec) : Bool :=
  r.level == l.level && l.start % 2 ^ (l.level + 1) == 0 && r.start == l.start + 2 ^ l.level && decide (l.level + 1 ≤ 32) &&
    l.argmax == r.argmax

/-- One round over the positions: absent records pass their sibling on; none where a sibling check fails (R283). -/
def drawRound (seed : W64) (drawid : W32) : List (Option DrawRec) → Option (List (Option DrawRec))
  | a :: b :: t =>
    let x : Option (Option DrawRec) := match a, b with
      | none, none => some none
      | some l, none => some (some l)
      | none, some r => some (some r)
      | some l, some r => if drawSiblings l r then some (some (drawMerge seed drawid l r (l.level + 1) l.start)) else none
    match x, drawRound seed drawid t with
    | some y, some ys => some (y :: ys)
    | _, _ => none
  | l => some l

/-- `n` rounds. -/
def drawRounds (seed : W64) (drawid : W32) : Nat → List (Option DrawRec) → Option (List (Option DrawRec))
  | 0, l => some l
  | n + 1, l => match drawRound seed drawid l with
    | some l' => drawRounds seed drawid n l'
    | none => none

/-- The flags of a record read as an operand: V for a NaN log2-mass, and in exposed code D for a subnormal one (R211, R212, R283). -/
def DrawRec.flags (il : Bool) (r : DrawRec) : FpFlags := if (fpDecode fp32 r.lm).isNan then flV else (fpRead fp32 il r.lm).2

/-- A record as an operand: in exposed code a subnormal log2-mass is read as zero of its sign (R211, R212), also where the record then meets no sibling.
DEDUCED, unsafe: log entry 52. -/
def DrawRec.operand (il : Bool) (r : DrawRec) : DrawRec :=
  if (fpRead fp32 il r.lm).2 &&& flD != 0#6 then { r with lm := fp32.withSign (bitAt (BitVec.ofNat 32 r.lm) 31) 0 } else r

/-- XDRAW (R211, R282, R283) -/
def execXdraw (o : XfOp) (s : State) : Host.Outcome State Fault Refusal :=
  let d := o.d.toNat
  let a := o.a.toNat
  if d % 2 ≠ 0 ∨ a % 2 ≠ 0 then .next s.illegalOperand
  else
    let m := s.bm
    let ps := s.clusters.map m.phys
    .next (s.slotOp
      { reach := ps.map xfKey, units := ps.map xfKey,
        reads := s.vecKeys ps [a, a + 1] [o.q.toNat] ++ s.vecKeys [m.phys o.c1.toNat] [o.b.toNat] [],
        writes := s.vecKeys ps [d, d + 1] [], holds := true, rs := false } true (fun t =>
      let desc := s.drawDesc (m.phys o.c1.toNat) (s.vreg o.b.toNat)
      let ins : List (Option DrawRec) := (upTo 8).map (fun c =>
        let p := m.phys c
        let x := s.vreg a
        let y := s.vreg (a + 1)
        if s.clusters.contains c && bitAt (s.qAt p o.q.toNat) 0 then
          some (drawOf (s.vAt p x 0) (s.vAt p y 0) (s.vAt p x 1) (s.vAt p y 1))
        else none)
      match drawRounds desc.seed desc.drawid 3 (ins.map (·.map (DrawRec.operand s.bnd.lat.il))) with
      | some [some r] =>
        let f0 := ins.foldl (fun acc x => match x with | some y => acc ||| y.flags s.bnd.lat.il | none => acc) 0#6
        let fl := if r.emptyRoot desc.root then f0 ||| flZ else f0
        t.landPer (s.clusters.map (fun c =>
          (s.xfDelay (m.phys c) 14, ((r.rooted desc.root).lanes c (m.phys c) (s.vreg d) (s.vreg (d + 1))).map (fun x =>
            { x with fl := if s.clusters.head? = some c ∧ x.lane = 0 ∧ x.reg = s.vreg d then fl else 0#6 }))))
      | _ => t.illegalOperand))

end Sys2Proof.Machine
end

