-- ==== Sys2Proof/Machine/Collective.lean ====
section
/-!
DEFINITION. Collectives (R102, R104, R187, R420–R440): timetables and their calls, instances and combination, port beats, triggered operations, and
link, switch and member failures.
-/

namespace Sys2Proof.Machine

/-! ### Timetables (R422–R426) -/

/-- The chiplet that serves a die of a package: 2 × package + chiplet (R420). -/
def chipOf (pkg die : Nat) : Nat := 2 * pkg + die % 16 / 8

/-- An endpoint from its 16 bytes, and whether it is well formed (R424). -/
def endpointOf (b : List Byte) : Endpoint :=
  let hi := natAt b 8 8
  { kind := field hi 60 4, mem := field hi 56 4, die := field hi 51 5, rope := field hi 47 4, chip := field hi 46 1, off := natAt b 0 8 }
def endpointWf (b : List Byte) : Bool :=
  let e := endpointOf b
  field (natAt b 8 8) 0 46 == 0 && decide (e.kind ≤ 2) && (e.kind == 0 || (e.die == 0 && e.rope == 0)) && (e.kind == 1 || e.chip == 0) &&
    decide (e.off < if e.kind = 0 then 2 ^ 23 else if e.kind = 1 then 2 ^ 26 else 2 ^ 57)

/-- A timetable entry from its 64 bytes, and whether it is well formed (R423). -/
def entryOf (b : List Byte) : TtEntry :=
  let op := natAt b 4 2
  let dh := natAt b 12 4
  let tr := natAt b 0x3C 2
  { off := natAt b 0 4, op := field op 0 4, ety := field op 4 4, root := field op 9 1 == 1, pos := natAt b 6 2,
    bytes := natAt b 8 4, dhandle := if field dh 6 1 = 1 then some (field dh 0 6) else none, src := endpointOf (octets b 0x10 16),
    dst := endpointOf (octets b 0x20 16), drawid := BitVec.ofNat 32 (natAt b 0x38 4), trig := if field tr 15 1 = 1 then some (field tr 0 10) else none }
def entryWf (b : List Byte) (duration : Nat) : Bool :=
  let e := entryOf b
  field (natAt b 4 2) 10 6 == 0 && decide (e.op ≤ 3) && (e.op == 0 || e.op == 3 || [0, 1, 3].contains e.ety) &&
    (if e.op = 3 then e.bytes == 16 else e.bytes % 64 == 0 && decide (64 ≤ e.bytes) && decide (e.bytes ≤ 2 ^ 20)) &&
    field (natAt b 12 4) 7 25 == 0 && zeroAt b 0x30 8 && field (natAt b 0x3C 2) 10 5 == 0 && zeroAt b 0x3E 2 && endpointWf (octets b 0x10 16) &&
    endpointWf (octets b 0x20 16) && decide (e.off < duration)

/-- A timetable from its bytes, and whether it is well formed (R422). -/
def timetableOf (id tenant : Nat) (b : List Byte) : Timetable :=
  { id := id, tenant := tenant, number := natAt b 0 2, persist := natAt b 2 2 % 2 == 1, seed := BitVec.ofNat 64 (natAt b 8 8), duration := natAt b 0x10 4,
    done := BitVec.ofNat 64 (natAt b 0x14 8), members := BitVec.ofNat 512 (natAt b 0x40 64),
    entries := (upTo (natAt b 4 4)).map (fun i => entryOf (octets b (128 + 64 * i) 64)), bytes := b, marked := false, stale := false }
def timetableWf (b : List Byte) : Bool :=
  let n := natAt b 4 4
  let d := natAt b 0x10 4
  let done := BitVec.ofNat 64 (natAt b 0x14 8)
  decide (natAt b 2 2 < 2) && decide (1 ≤ n) && decide (n ≤ 16384) && b.length == 128 + 64 * n && decide (64 ≤ d) && decide (d ≤ 2 ^ 31) &&
    (done == 0#64 || (done.toNat % 16 == 0 && (addrSpace done == 0 || addrSpace done == 4))) && zeroAt b 0x1C 36 &&
    (upTo n).all (fun i => entryWf (octets b (128 + 64 * i) 64) d)

/-- Member packages and member chiplets of a timetable. -/
def Timetable.packages (t : Timetable) : List Nat := (upTo 16).filter (fun p => (upTo 32).any (fun d => t.members.getLsbD (32 * p + d)))
def Timetable.chips (t : Timetable) : List Nat :=
  (upTo 32).filter (fun k => (upTo 32).any (fun d => chipOf (k / 2) d == k && t.members.getLsbD (32 * (k / 2) + d)))

/-- Rope of a scratchpad endpoint of this package. -/
def Endpoint.ropeNo (e : Endpoint) : Nat := 16 * e.die + e.rope
def Endpoint.ours (e : Endpoint) : Bool := e.mem == Config.ownPackage
def Endpoint.ownPad (e : Endpoint) : Bool := e.kind == 0 && e.ours

/-- Whether two entries write the same slot, and whether an entry reads the slot that another writes (R424). -/
def Endpoint.sameSlot (a b : Endpoint) : Bool := a.kind == 1 && b.kind == 1 && a.mem == b.mem && a.chip == b.chip && a.off == b.off
/-- Whether two entries write at one place. -/
def Endpoint.samePlace (a b : Endpoint) : Bool :=
  a.kind == b.kind && a.mem == b.mem && a.die == b.die && a.rope == b.rope && a.chip == b.chip && a.off == b.off

/-- The chiplet of its package that serves an endpoint. -/
def Endpoint.chipNo (e : Endpoint) : Nat := if e.kind = 1 then e.chip else if e.kind = 0 then e.die % 16 / 8 else 0

/-- The chiplet whose trigger table an entry's TRIG names: the one that serves its destination. -/
def TtEntry.trigChip (e : TtEntry) : Nat := e.dst.chipNo

/-- Whether a range of a partition list holds an interval. -/
def rangeHolds (l : List (Nat × Nat × Nat)) (key lo hi : Nat) : Bool := l.any (fun r => r.1 == key && decide (r.2.1 ≤ lo) && decide (hi ≤ r.2.2))

/-- Whether some line of `n` bytes at a scratchpad endpoint lies in a bank. -/
def Endpoint.spans (x : Endpoint) (bank n : Nat) : Bool := (upTo (min 16 ((n + 63) / 64))).any (fun i => bankOf (x.off + 64 * i) == bank)

/-- The root under which a chiplet translates for a tenant: that of its first address space. -/
def State.chipRoot (s : State) (tenant : Nat) : W64 :=
  match (s.partition tenant).roots with
  | r :: _ => r.2.1
  | [] => 0#64

/-- Whether the pages of a global virtual endpoint of this package that are mapped lie in the tenant's HBM partitions (R184). -/
def State.pagesAllowed (s : State) (tenant n : Nat) (x : Endpoint) : Bool :=
  x.kind != 2 || !x.ours ||
    (upTo ((x.off % 4096 + n + 4095) / 4096)).all (fun i =>
      let a := x.off / 4096 * 4096 + 4096 * i
      match s.walk Config.ownPackage false (s.chipRoot tenant) a with
      | .fault _ => true
      | .page vb _ pb _ _ _ => (s.partition tenant).hbm.any (fun r => decide (r.1 ≤ pb + (a - vb)) && decide (pb + (a - vb) ≤ r.2)))

/-- Whether the endpoints, handle and trigger of an entry lie inside a tenant's partitions (R184, R421). -/
def partitionAllows (p : Partition) (e : TtEntry) : Bool :=
  let side (x : Endpoint) : Bool :=
    !x.ours || (if x.kind = 0 then
        decide (x.off + e.bytes ≤ 2 ^ 23) &&
          p.banks.any (fun b => b.1 == x.ropeNo && (upTo 16).all (fun k => !x.spans k e.bytes || field b.2.1 k 1 == 1))
      else if x.kind = 1 then rangeHolds p.chunks x.chip x.off (x.off + e.bytes - 1)
      else true)
  side e.src && side e.dst &&
    (match e.dhandle with
      | some h => !e.dst.ownPad || rangeHolds p.handles e.dst.ropeNo h h
      | none => true) &&
    (match e.trig with
      | some t => !e.dst.ours || rangeHolds p.triggers e.trigChip t t
      | none => true)

/-- Whether a rope grants a station at least one row (R56). -/
def Rope.grantsSome (r : Rope) (station : Nat) : Bool := r.grants.any (fun g => g.2 == station)

/-- Cycles between a scratchpad endpoint's last line and its chiplet under the maps in force: its way between bank and station, and the link latency of
its die (R50, R373). -/
def State.padTime (s : State) (x : Endpoint) (station n : Nat) (out : Bool) : Nat :=
  if !x.ownPad then 0
  else
    let bank := bankPos (bankOf (x.off + (n - 1) / 64 * 64))
    let way := match (s.rope x.ropeNo).laneOf station with
      | some lane => segsTime (s.ropeMap x.ropeNo) (if out then pathSegs lane bank (stationPos station) else pathSegs lane (stationPos station) bank)
      | none => 0
    way + ((s.die x.die).mapAt s.cycle).latC.toNat

/-- The cycle, from S, at which the last flit of entry n of a timetable arrives under the maps in force (R426): its lines leave one a cycle, and take the
hops and link latencies of their two ends, and what the spec does not give. DESIGN CHOICE, safe: log entry 58. -/
def State.lastFlit (s : State) (t : Timetable) (n : Nat) (e : TtEntry) : Nat :=
  e.off + (e.bytes - 1) / 64 + 1 + s.padTime e.src 13 e.bytes true + s.padTime e.dst 12 e.bytes false + Config.flitTime t.bytes s.packageDigest n

/-- Validation against the maps in force (R426): POS values without gaps, reads of a slot not before the arrivals of its earlier entries, arrivals before
DURATION, granted ports, and the links' flit rates. -/
def State.validates (s : State) (t : Timetable) : Bool :=
  let slotOk (e : TtEntry) : Bool :=
    e.dst.kind != 1 ||
      (let mates := t.entries.filter (fun x => x.dst.sameSlot e.dst)
       decide (e.pos < mates.length) && (mates.filter (fun x => x.pos == e.pos)).length == 1)
  let portOk (x : Endpoint) (station : Nat) : Bool := !x.ownPad || ((s.rope x.ropeNo).grantsSome 12 && (s.rope x.ropeNo).grantsSome station)
  let es := (upTo t.entries.length).zip t.entries
  t.entries.all (fun e => slotOk e && portOk e.src 13 && portOk e.dst 13) &&
    es.all (fun e => decide (s.lastFlit t e.1 e.2 < t.duration) &&
      t.entries.all (fun r => !r.src.sameSlot e.2.dst || decide (r.off ≤ e.2.off) || decide (s.lastFlit t e.1 e.2 ≤ r.off))) &&
    Config.timetableFits t.bytes s.packageDigest

/-- The installed timetable of a tenant under a number. -/
def State.timetable (s : State) (id : Nat) : Option Timetable := s.coll.timetables.find? (fun t => t.id == id)
def State.installed (s : State) (tenant number : Nat) : Option Timetable := s.coll.timetables.find? (fun t => t.tenant == tenant && t.number == number)
def State.modColl (s : State) (f : Collective → Collective) : State := { s with coll := f s.coll }
def State.modInst (s : State) (id : Nat) (f : Instance → Instance) : State :=
  s.modColl (fun c => { c with instances := listMod (fun i => i.id == id) f c.instances })
def State.inst (s : State) (id : Nat) : Option Instance := s.coll.instances.find? (fun i => i.id == id)

/-- The status of an install (R425). -/
def State.installStatus (s : State) (tenant : Nat) (b : List Byte) : Nat :=
  let t := timetableOf 0 tenant b
  if !timetableWf b then 0x50
  else if !t.entries.all (fun e => partitionAllows (s.partition tenant) e && s.pagesAllowed tenant e.bytes e.src && s.pagesAllowed tenant e.bytes e.dst) then 0x51
  else if (s.installed tenant t.number).isSome then 0x52
  else if !s.validates t then 0x53
  else 0

/-- PACKET_TIMETABLE_INSTALL (R425): a status other than 0 installs nothing -/
def execPacketTimetableInstall (queue : QueueId) (seq : BitVec 32) (s : State) : Host.Outcome State Fault Refusal :=
  let q := queue.val
  match s.packet q seq with
  | none => .next s
  | some p =>
    let x := s.queue q
    let n := (pw p.words 2).toNat
    match if addrSpace (pw p.words 1) ≠ 0 then none else s.readLines x.tenant x.asid (s.rootsOf x.tenant x.asid).1 ((n + 63) / 64) (pw p.words 1) with
    | none => .next (s.finishPacket q seq 0x36 none)
    | some b =>
      let t := (cut n b).1
      let st := s.installStatus x.tenant t
      if st ≠ 0 then .next (s.finishPacket q seq st none)
      else
        let id := s.fresh
        .next ((id.2.modColl (fun c => { c with timetables := c.timetables ++ [timetableOf id.1 x.tenant t] })).finishPacket q seq 0 none)

/-- PACKET_TIMETABLE_REMOVE (R425): NUMBER is that of the timetable at the packet's address; the spec states no status for a number that is not
installed. DESIGN CHOICE, unsafe: log entry 61. -/
def execPacketTimetableRemove (queue : QueueId) (seq : BitVec 32) (s : State) : Host.Outcome State Fault Refusal :=
  let q := queue.val
  match s.packet q seq with
  | none => .next s
  | some p =>
    let x := s.queue q
    match if addrSpace (pw p.words 1) ≠ 0 then none else s.readLines x.tenant x.asid (s.rootsOf x.tenant x.asid).1 1 (pw p.words 1) with
    | none => .next (s.finishPacket q seq 0x36 none)
    | some b =>
      match s.installed x.tenant (natAt b 0 2) with
      | none => .next ((s.useFree (queueAgent q)).finishPacket q seq ((Config.freeWord (s.freeIndex (queueAgent q))).toNat % 2 ^ 16) none)
      | some t =>
        if s.coll.instances.any (fun i => i.tt == t.id) then .next (s.finishPacket q seq 0x54 none)
        else .next ((s.modColl (fun c => { c with timetables := c.timetables.filter (fun y => y.id != t.id) })).finishPacket q seq 0 none)

/-! ### Calls (R427, R428) -/

/-- A call answered with a status: its caller gets it, and the reservations of a refused call are gone. -/
def State.callAnswer (s : State) (c : CcallReq) (st : Nat) : State :=
  match c.caller with
  | some k => s.farAnswer k.1 k.2 (BitVec.ofNat 64 st)
  | none => s
def State.dropCall (s : State) (id : Nat) : State := s.modColl (fun c => { c with calls := c.calls.filter (fun x => x.id != id) })
def State.modCall (s : State) (id : Nat) (f : CcallReq → CcallReq) : State := s.modColl (fun c => { c with calls := listMod (fun x => x.id == id) f c.calls })
def State.call (s : State) (id : Nat) : Option CcallReq := s.coll.calls.find? (fun x => x.id == id)

/-- The bytes of an instance record (R432). -/
def State.doneBytes (s : State) (i : Instance) : List Byte :=
  let w0 := i.status % 2 ^ 16 + (if i.z then 2 ^ 16 else 0) + (if i.v then 2 ^ 17 else 0) + (if i.o then 2 ^ 18 else 0) + (if i.late then 2 ^ 19 else 0) +
    (if i.rerun then 2 ^ 20 else 0) + i.s % 2 ^ 32 * 2 ^ 32
  leBytes 8 w0 ++ leBytes 8 s.cycle

/-- The memory key of an instance record, if one is written at all (R432). -/
def State.doneKey (s : State) (t : Timetable) : Option Nat :=
  let r := match (s.partition t.tenant).roots with
    | r :: _ => r
    | [] => (0, 0#64, 0#64)
  if t.done = 0#64 then none else s.locate t.tenant r.1 r.2.1 t.done .write

/-- An instance whose record has performed is gone (R432), and a timetable that is not persistent goes with one that ran (R427); one cancelled before its
start leaves its stale timetable, which later calls still find (R440). -/
def State.finishInst (s : State) (i : Instance) : State :=
  let s1 := s.modColl (fun c => { c with instances := c.instances.filter (fun x => x.id != i.id) })
  match s.timetable i.tt with
  | none => s1
  | some t => if t.persist || !i.started then s1 else s1.modColl (fun c => { c with timetables := c.timetables.filter (fun x => x.id != t.id) })

/-- An instance is over: instances that wait for its end start, and its record is written by the home, as the write of an entry after its last (R432,
R438). -/
def State.closeInst (s : State) (i : Instance) : State :=
  let s1 := (s.coll.instances.filter (fun x => i.rerun && x.tt == i.tt && !x.started && decide (x.s ≤ s.cycle))).foldl (fun acc x =>
    acc.schedule s.cycle 0 (.timetableInstanceStart x.id)) s
  match s.timetable i.tt with
  | none => s1.finishInst i
  | some t => match s.doneKey t with
    | none => s1.finishInst i
    | some k => (s1.modInst i.id (fun _ => { i with ended := true })).chipLine t.tenant k (some (s.doneBytes i)) (.timetable i.id t.entries.length 0)

/-- A re-validation (R383, R440): a timetable that fails becomes stale, and its accepted instances that have not started are cancelled. -/
def State.revalidate (s : State) (t : Timetable) : State :=
  let ok := s.validates t
  let s1 := s.modColl (fun c =>
    { c with timetables := listMod (fun x => x.id == t.id) (fun x => { x with marked := false, stale := x.stale || !ok }) c.timetables })
  if ok then s1
  else (s.coll.instances.filter (fun i => i.tt == t.id && !i.started && !i.ended)).foldl (fun acc i => acc.closeInst { i with status := 0x53 }) s1

/-- TIMETABLE_REVALIDATION (R383, R440) -/
def execTimetableRevalidation (tt : Nat) (s : State) : Host.Outcome State Fault Refusal :=
  match s.timetable tt with
  | none => .next s
  | some t => .next (s.revalidate t)

/-- A timetable re-validated if a map change marked it: no instance starts before that. -/
def State.settled (s : State) (t : Timetable) : State := if t.marked then s.revalidate t else s

/-- Whether a timetable is stale, or no longer there (R440). -/
def State.staleTt (s : State) (tt : Nat) : Bool := match s.timetable tt with
  | some x => x.stale
  | none => true

/-- The highest epoch that a chiplet of this package has seen (R436). -/
def State.epochAt (s : State) (chip : Nat) : Nat := (tblGet 0#32 chip s.coll.epochs).toNat

/-- CCALL_REQUEST (R427, R440): the home takes the calls in the order in which they arrive, finds the timetable and asks every member chiplet -/
def execCcallRequest (call : Nat) (s : State) : Host.Outcome State Fault Refusal :=
  match s.call call with
  | none => .next s
  | some c =>
    match s.installed c.tenant c.number with
    | none => .next ((s.dropCall call).callAnswer c (if s.coll.timetables.any (fun t => t.number == c.number) then 0x43 else 0x41))
    | some t =>
      let s1 := s.settled t
      if s1.staleTt t.id then .next ((s1.dropCall call).callAnswer c 0x47)
      else
        let n := s1.fresh
        let s2 := n.2.modCall call (fun x => { x with tt := t.id, asked := t.chips, order := n.1, sent := t.chips, epoch := s.epochAt 0 })
        .next ((t.chips.foldl (fun acc k => acc.scheduleFor (tenantAgent c.tenant) 6 (.timetableReservation call k)) s2).schedule
          (max s.cycle (c.s - 4096)) 7 (.timetableAcceptDeadline call))

/-- Whether two intervals of one timetable meet. -/
def meets (a b d : Nat) : Bool := decide (a < b + d) && decide (b < a + d)

/-- Whether the reservation of an earlier call of the same timetable has still to reach a chiplet: the reservations of the home reach it in the order in
which the calls arrived there (R427, R428). -/
def State.callAhead (s : State) (c : CcallReq) (chip : Nat) : Bool :=
  s.coll.calls.any (fun x => x.tt == c.tt && decide (x.order < c.order) && x.sent.contains chip)

/-- TIMETABLE_RESERVATION (R427, R428): a member accepts at once unless the interval meets one of the same timetable that it has accepted or runs; a
refusal cancels the call everywhere -/
def execTimetableReservation (call chip : Nat) (s : State) : Host.Outcome State Fault Refusal :=
  match s.call call with
  | none => .next s
  | some c =>
    match s.timetable c.tt with
    | none => .next s
    | some t =>
      if !c.sent.contains chip then .next s
      else if s.callAhead c chip then .next (s.schedule (s.cycle + 1) 6 (.timetableReservation call chip))
      else
        let busy := s.coll.calls.any (fun x => x.id != call && x.tt == c.tt && x.accepted.contains chip && meets c.s x.s t.duration) ||
          s.coll.instances.any (fun i => i.tt == c.tt && !i.ended && meets c.s i.s t.duration)
        if busy then .next ((s.dropCall call).callAnswer c 0x40)
        else .next ((s.modCall call (fun x => { x with accepted := x.accepted ++ [chip], sent := x.sent.filter (· != chip) })).scheduleFor
          (tenantAgent c.tenant) 6 (.timetableAcceptance call chip))

/-- A new instance at its commit. -/
def State.newInst (s : State) (c : CcallReq) : State :=
  let n := s.fresh
  let i : Instance :=
    { id := n.1, tt := c.tt, tenant := c.tenant, s := c.s, started := false, begun := [], data := [], arrived := [], combined := [], landed := [],
      blocked := [], status := 0, z := false, v := false, o := false, late := false, rerun := false, olds := [], epochs := [], ended := false }
  (n.2.modColl (fun x => { x with instances := x.instances ++ [i] })).schedule (max s.cycle c.s) 0 (.timetableInstanceStart n.1)

/-- TIMETABLE_ACCEPTANCE (R427): with the last one, in time, the home sends the commit and answers 0; a timetable that has become stale starts nothing
(R440), and an acceptance that was discarded does not arrive (R437) -/
def execTimetableAcceptance (call chip : Nat) (s : State) : Host.Outcome State Fault Refusal :=
  match s.call call with
  | none => .next s
  | some c =>
    let left := c.asked.filter (· != chip)
    let s1 := s.modCall call (fun x => { x with asked := left })
    if c.lost then .next s
    else if c.closed || !left.isEmpty then .next s1
    else
      let s2 := match s.timetable c.tt with
        | some t => s1.settled t
        | none => s1
      if s2.staleTt c.tt then .next ((s2.dropCall call).callAnswer c 0x47)
      else
        let s3 := ((s2.modCall call (fun x => { x with closed := true })).newInst c).callAnswer c 0
        .next (c.accepted.foldl (fun acc k => acc.scheduleFor (tenantAgent c.tenant) 6 (.timetableCommit call k)) s3)

/-- TIMETABLE_COMMIT (R427): a member's reservation becomes its part of the instance -/
def execTimetableCommit (call chip : Nat) (s : State) : Host.Outcome State Fault Refusal :=
  match s.call call with
  | none => .next s
  | some c =>
    let left := c.accepted.filter (· != chip)
    .next (if left.isEmpty then s.dropCall call else s.modCall call (fun x => { x with accepted := left }))

/-- TIMETABLE_ACCEPT_DEADLINE (R427): at S − 4,096 a missing acceptance cancels the call -/
def execTimetableAcceptDeadline (call : Nat) (s : State) : Host.Outcome State Fault Refusal :=
  match s.call call with
  | none => .next s
  | some c => if c.closed then .next s else .next ((s.dropCall call).callAnswer c 0x42)

/-! ### Combination (R430, R431) -/

/-- Elements of a width combined one by one: bytes and flags. -/
def combineElems (w : Nat) (f : Nat → Nat → FpRes) : Nat → List Byte → List Byte → List Byte × FpFlags
  | 0, _, _ => ([], 0#6)
  | n + 1, a, b =>
    let r := f (leNat (cut w a).1) (leNat (cut w b).1)
    let t := combineElems w f n (cut w a).2 (cut w b).2
    (leBytes w r.bits ++ t.1, r.fl ||| t.2)

/-- The element rule of an operation and element type (R430): flushes and canonical NaNs as in exposed code. -/
def combineFn (op ety : Nat) (a b : Nat) : FpRes :=
  let f := if ety = 1 then bf16 else fp32
  if ety = 3 then
    (if op = 1 then { bits := (a + b) % 2 ^ 32, fl := 0#6 } else { bits := if signedOf 32 a < signedOf 32 b then b else a, fl := 0#6 })
  else if op = 1 then fpAdd f .rne false a b
  else fpMinMax f false true a b

/-- A node record from 16 bytes, and its bytes (R273, R284). -/
def drawBytes (r : DrawRec) : List Byte := leBytes 4 r.lm ++ leBytes 4 r.index ++ leBytes 4 r.start ++ leBytes 4 r.lvf.toNat
def drawAt (b : List Byte) : DrawRec :=
  drawOf (BitVec.ofNat 32 (natAt b 0 4)) (BitVec.ofNat 32 (natAt b 4 4)) (BitVec.ofNat 32 (natAt b 8 4)) (BitVec.ofNat 32 (natAt b 12 4))

/-- The record of a refused pair: the sentinel with NOVAL = 1 (R431). -/
def refusedDraw (l : DrawRec) : DrawRec :=
  { lm := negInf32, index := drawSentinel, start := l.start, level := l.level + 1, argmax := l.argmax, noval := true }

/-- What a combination gives: the new bytes, its flags, and whether a sibling check failed. -/
structure Combined where
  bytes : List Byte
  fl : FpFlags
  refused : Bool
  deriving DecidableEq, Repr

/-- A draw merge at a position above 0: its records are read as in exposed code (R283, R430, R431). -/
def combineDraw (seed : W64) (e : TtEntry) (old src : List Byte) : Combined :=
  let l := (drawAt old).operand false
  let r := (drawAt src).operand false
  let fl := (drawAt old).flags false ||| (drawAt src).flags false
  if drawSiblings l r then
    let m := drawMerge seed e.drawid l r (l.level + 1) l.start
    { bytes := drawBytes (m.rooted e.root), fl := fl ||| (if m.emptyRoot e.root then flZ else 0#6), refused := false }
  else { bytes := drawBytes (refusedDraw l), fl := fl, refused := true }

/-- A draw record at position 0: it stands as it is; as a root of zero mass its INDEX is the sentinel, and Z is set (R279, R430). -/
def placeDraw (e : TtEntry) (src : List Byte) : Combined :=
  let r := drawAt src
  if r.emptyRoot e.root then { bytes := drawBytes (r.rooted e.root), fl := flZ, refused := false } else { bytes := src, fl := 0#6, refused := false }

/-- An entry's data combined into what its destination holds (R430). -/
def combineEntry (seed : W64) (e : TtEntry) (old src : List Byte) : Combined :=
  if e.pos = 0 || e.op == 0 then (if e.op = 3 then placeDraw e src else { bytes := src, fl := 0#6, refused := false })
  else if e.op = 3 then combineDraw seed e old src
  else
    let w := if e.ety = 1 then 2 else 4
    let r := combineElems w (combineFn e.op e.ety) (e.bytes / w) old src
    { bytes := r.1, fl := r.2, refused := false }

/-! ### Endpoints in memory -/

/-- Key of a byte of a scratchpad of another package. DESIGN CHOICE, unsafe: log entry 57. -/
def keyPeerPad (pkg rope off : Nat) : Nat := regionKey (0x10000 + pkg * 512 + rope) + off

/-- Where a space 0 or space 5 address of a tenant lies, as a chiplet reaches it: a memory key, or a fault code (R22, R27, R32). -/
def State.globalKey (s : State) (tenant : Nat) (root a : W64) (kind : OffKind) : Sum Nat Nat :=
  let code := addrCode s.sec.members [0, 5] a
  if code ≠ 0 then .inl code
  else if addrSpace a = 5 then
    match s.tenantTarget tenant a kind with
    | .inl c => .inl c
    | .inr t => .inr (keyHbm t.1 t.2)
  else
    match s.walk Config.ownPackage false root (addrOffset a) with
    | .fault c => .inl c
    | .page vb _ pb r w _ =>
      let phys := pb + (addrOffset a - vb)
      let c := s.partitionCode tenant phys
      if !(if kind = .read then r else w) then .inl 5 else if c ≠ 0 then .inl c else .inr (keyHbm Config.ownPackage phys)

/-- Where a global virtual address of another member package lies, as its registered page table for the tenant's domain has it: all 57 bits are
translated there (R32, R424). -/
def State.memberKey (s : State) (tenant pkg a : Nat) (kind : OffKind) : Sum Nat Nat :=
  let code := addrCode s.sec.members [5] (BitVec.ofNat 64 (5 * 2 ^ 60 + pkg * 2 ^ 51))
  let key := pkg * 2 ^ 16 + (s.partition tenant).domain
  if code ≠ 0 then .inl code
  else match s.sec.domainRoots.find? (fun e => e.1 == key) with
    | none => .inl 6
    | some e => match s.targetPage pkg key e.2 a with
      | .fault c => .inl c
      | .page vb _ pb r w _ => if !(if kind = .read then r else w) then .inl 5 else .inr (keyHbm pkg (pb + (a - vb)))

/-- Where an endpoint's bytes lie: a memory key, or a fault code for a virtual address. -/
def State.endpointKey (s : State) (tenant : Nat) (e : Endpoint) (a : Nat) (kind : OffKind) : Sum Nat Nat :=
  if e.kind = 0 then .inr (if e.ours then keyPad e.ropeNo a else keyPeerPad e.mem e.ropeNo a)
  else if e.kind = 1 then .inr (keyChunk (2 * e.mem + e.chip) a)
  else if e.ours then s.globalKey tenant (s.chipRoot tenant) (BitVec.ofNat 64 a) kind
  else s.memberKey tenant e.mem a kind

/-- Bytes of an endpoint, line by line: a fault code with its address, or the bytes. -/
def State.readEnd (s : State) (tenant : Nat) (e : Endpoint) : Nat → Nat → Sum (Nat × Nat) (List Byte)
  | 0, _ => .inr []
  | n + 1, a =>
    match s.endpointKey tenant e a .read, s.readEnd tenant e n (a + 64) with
    | .inl c, _ => .inl (c, a)
    | _, .inl c => .inl c
    | .inr k, .inr t => .inr (readBytes s.mem k 64 ++ t)

/-- Bytes written at an endpoint, line by line. -/
def State.writeEnd (s : State) (tenant : Nat) (e : Endpoint) : Nat → Nat → List Byte → Sum (Nat × Nat) State
  | 0, _, _ => .inr s
  | n + 1, a, b =>
    match s.endpointKey tenant e a .write with
    | .inl c => .inl (c, a)
    | .inr k => ({ s with mem := writeBytes s.mem k (cut 64 b).1 } : State).writeEnd tenant e n (a + 64) (cut 64 b).2

/-- Lines of a number of bytes. -/
def linesOf (n : Nat) : Nat := (n + 63) / 64
/-- The lines that `n` bytes from an offset lie in, the offset of line `k` of them, and the bytes cut out of those lines. -/
def linesAt (off n : Nat) : Nat := linesOf (off % 64 + n)
def lineOff (off k : Nat) : Nat := (off / 64 + k) * 64
def cutLines (off n : Nat) (b : List Byte) : List Byte := (cut n (b.drop (off % 64))).1
/-- The bytes that a line at a memory key still has room for: a write goes on in the next one. -/
def lineRoom (key : Nat) : Nat := 64 - key % 64

/-! ### Triggers and handles of an instance (R429, R433, R434) -/

/-- An entry of an instance. -/
def Timetable.entry (t : Timetable) (e : Nat) : Option TtEntry := t.entries[e]?
/-- Entries with their places. -/
def Timetable.numbered (t : Timetable) : List (Nat × TtEntry) := (upTo t.entries.length).zip t.entries

/-- Whether every entry of the slot that an endpoint names, below an offset if one is given, has combined. -/
def slotDone (t : Timetable) (i : Instance) (x : Endpoint) (below : Option Nat) : Bool :=
  t.numbered.all (fun e => !e.2.dst.sameSlot x || i.combined.contains e.1 || (match below with
    | some o => decide (o ≤ e.2.off)
    | none => false))

/-- A trigger of this package's chiplets. -/
def State.trigger (s : State) (chip entry : Nat) : Trigger := tblGet .reset (chip * 1024 + entry) s.coll.triggers
def State.setTrigger (s : State) (chip entry : Nat) (t : Trigger) : State := s.modColl (fun c => { c with triggers := tblSet (chip * 1024 + entry) t c.triggers })

/-- The core that an action wakes, and whether WAKE is set (R433). -/
def actionCore (a : List Byte) : Nat := field (natAt a 0x1E 2) 6 5 * 64 + field (natAt a 0x1E 2) 0 6
def actionWakes (a : List Byte) : Bool := natAt a 1 1 % 2 == 1

/-- A handle moved to faulted (R66). -/
def Handle.fails (h : Handle) (code : Nat) (addr : W64) : Handle := { h with st := .faulted, fcode := code, faddr := addr }

/-- Fields of a copy action: its addresses, its length, and its handle, if VALID (R433). -/
def actionSrc (a : List Byte) : W64 := BitVec.ofNat 64 (natAt a 8 8)
def actionDst (a : List Byte) : W64 := BitVec.ofNat 64 (natAt a 0x10 8)
def actionLen (a : List Byte) : Nat := natAt a 0x18 4
def actionHandle (a : List Byte) : Option Nat := if field (natAt a 0x1C 2) 6 1 = 1 then some (field (natAt a 0x1C 2) 0 6) else none

/-- The wake of an action, after what else it does (R352, R434). -/
def State.actionWake (s : State) (a : List Byte) : State :=
  if actionWakes a then s.modCore (actionCore a) (fun c => c.request s.cycle 2) else s

/-- A triggered copy is over: its handle is full or faulted, and the wake follows (R66, R434). The action names no tag: DESIGN CHOICE, unsafe: log
entry 77. -/
def State.copyDone (s : State) (id : Nat) (fault : Option (Nat × W64)) : State :=
  match s.coll.copies.find? (fun c => c.id == id) with
  | none => s
  | some c =>
    let rope := ropeOf (actionCore c.action)
    let s1 := s.modColl (fun x => { x with copies := x.copies.filter (fun y => y.id != id) })
    let s2 := match actionHandle c.action with
      | none => s1
      | some h =>
        let x := (s1.rope rope).handle h
        if x.st ≠ HandleState.filling then s1
        else match fault with
          | some f => s1.modRope rope (fun r => r.setHandle h (x.fails f.1 f.2))
          | none => (s1.useFree (tenantAgent c.tenant)).modRope rope (fun r => r.setHandle h
              { x with st := .full, chk := 0#4, refill := none, tag := (Config.freeWord (s1.freeIndex (tenantAgent c.tenant))).setWidth 16 })
    s2.actionWake c.action

/-- The next line of a triggered copy's source is asked for (R434). -/
def State.copyRead (s : State) (c : TrigCopy) : State :=
  let a := actionSrc c.action + BitVec.ofNat 64 c.data.length
  match s.globalKey c.tenant (s.chipRoot c.tenant) a .read with
  | .inl f => s.copyDone c.id (some (f, a))
  | .inr k => s.chipLine c.tenant k none (.trigger c.id)

/-- Bytes of a triggered copy that are still to be written go on: through the rope's inbound station for a scratchpad, of which an address with a bit of
[59:23] set names no byte (R14, R15), else line by line. -/
def State.copyWrite (s : State) (c : TrigCopy) (b : List Byte) : State :=
  let dst := actionDst c.action
  let code := if addrSpace dst = 1 then addrCode s.sec.members [1] dst else 0
  if b.isEmpty then s.copyDone c.id none
  else if code ≠ 0 then s.copyDone c.id (some (code, dst))
  else if addrSpace dst = 1 then s.portReq (ropeOf (actionCore c.action)) 12 (s.cycle + 1) true (bitsNat dst 22 0) b (.trigger c.id)
  else
    let a := dst + BitVec.ofNat 64 (actionLen c.action - b.length)
    match s.globalKey c.tenant (s.chipRoot c.tenant) a .write with
    | .inl f => s.copyDone c.id (some (f, a))
    | .inr k => s.chipLine c.tenant k (some b) (.trigger c.id)

/-- A copy of an action begins (R434). A handle that is not free, not of the tenant, or does not cover the destination takes no copy.
DESIGN CHOICE, unsafe: log entry 77. -/
def State.actionCopy (s : State) (tenant owner : Nat) (a : List Byte) : State :=
  let rope := ropeOf (actionCore a)
  let dst := actionDst a
  let takes (h : Nat) : Bool :=
    let x := (s.rope rope).handle h
    x.st == .free && rangeHolds (s.partition tenant).handles rope h h &&
      (addrSpace dst != 1 || (decide (x.base ≤ bitsNat dst 22 0 / 64) && decide ((bitsNat dst 22 0 + actionLen a) / 64 ≤ x.base + x.len + 1)))
  let ok := match actionHandle a with
    | some h => takes h
    | none => true
  if !ok then s.actionWake a
  else
    let n := s.fresh
    let c : TrigCopy := { id := n.1, tenant := tenant, owner := owner, action := a, data := [] }
    let s1 := n.2.modColl (fun x => { x with copies := x.copies ++ [c] })
    let s2 := match actionHandle a with
      | some h => s1.modRope rope (fun r => r.setHandle h { r.handle h with st := .filling, filler := 0 })
      | none => s1
    s2.copyRead c

/-- An action performed (R434), of a trigger that fired in a given cycle: a call, a copy, or nothing; and then the wake. -/
def State.perform (s : State) (tenant owner fired : Nat) (a : List Byte) : State :=
  if natAt a 0 1 = 1 then
    let n := s.fresh
    let c : CcallReq :=
      { id := n.1, caller := none, tenant := tenant, number := natAt a 2 2, s := fired + natAt a 0x20 4, tt := 0, asked := [], accepted := [],
        closed := false, order := 0, sent := [], epoch := 0, lost := false }
    ((n.2.modColl (fun x => { x with calls := x.calls ++ [c] })).scheduleFor (tenantAgent tenant) 6 (.ccallRequest n.1)).actionWake a
  else if natAt a 0 1 = 2 then s.actionCopy tenant owner a
  else s.actionWake a

/-- A trigger fires: it is disarmed, and its action runs now, or is held while its owner is off its cores (R187, R434). An owner that is leaving counts as
off its cores once the pre-emption record of its last die has been applied; the spec does not say from which moment. DESIGN CHOICE, unsafe: log
entry 104. -/
def State.fire (s : State) (chip entry : Nat) : State :=
  let t := s.trigger chip entry
  let s1 := s.setTrigger chip entry { t with armed := false }
  let away : Bool := match s.launch t.owner with
    | some l => l.phase == .preempted || l.phase == .unplaced || l.phase == .selected || (!l.records.isEmpty && l.phase == .running && !l.refilled)
    | none => false
  if away then
    let h : HeldTrigger := { chip := chip, entry := entry, action := t.action, owner := t.owner, tenant := t.tenant, fired := s.cycle }
    s1.modColl (fun c => { c with held := c.held ++ [h] })
  else s1.perform t.tenant t.owner s.cycle t.action

/-- An addition to a trigger's count (R434). -/
def State.countTrigger (s : State) (e : TtEntry) : State :=
  match e.trig with
  | none => s
  | some k =>
    if !e.dst.ours then s
    else
      let t := s.trigger e.trigChip k
      if !t.armed then s
      else if t.count + 1 = natAt t.action 4 4 then (s.setTrigger e.trigChip k { t with count := t.count + 1 }).fire e.trigChip k
      else s.setTrigger e.trigChip k { t with count := t.count + 1 }

/-- Handles that an instance fills and whose last byte has landed become full, with no refill record (R66, R104, R295, R429). -/
def State.fillHandles (s : State) (i : Instance) (t : Timetable) : State :=
  t.entries.foldl (fun acc e =>
    match e.dhandle with
    | none => acc
    | some h =>
      let x := (acc.rope e.dst.ropeNo).handle h
      let mine := t.numbered.filter (fun y => y.2.dst.ownPad && y.2.dst.ropeNo == e.dst.ropeNo && y.2.dhandle == some h)
      if e.dst.ownPad && x.st == .filling && x.filler == i.id + 5 &&
          mine.all (fun y => i.landed.contains y.1 && (y.2.src.kind != 1 || slotDone t i y.2.src none)) then
        acc.modRope e.dst.ropeNo (fun r => r.setHandle h { x with st := .full, chk := 0#4, refill := none, filler := 0 })
      else acc) s

/-- A fault of a port operation that has no issuing core goes into a rope's engine fault record (R71, R294): it has no CORE, ENGINE or OP, and they are 0.
DESIGN CHOICE, unsafe: log entry 101. -/
def State.portFault (s : State) (rope code : Nat) (a : W64) : State :=
  s.modRope rope (fun r => { r.recordCef (cefinfoOf code 0 0 0 false) a with cefHw := (s.cycle, r.cefNow s.cycle ++ [(cefinfoOf code 0 0 0 false, a)]) })

/-! ### Running an instance (R102, R429–R432) -/

/-- The space 1 address of a scratchpad offset, as FADDR records it. -/
def padAddrOf (off : Nat) : W64 := BitVec.ofNat 64 (2 ^ 60 + off)

/-- Whether every entry with a lower position at an entry's destination has combined there, and has landed where that is no slot (R225, R430). -/
def prevDone (t : Timetable) (i : Instance) (x : TtEntry) : Bool :=
  x.pos == 0 || t.numbered.all (fun e => !e.2.dst.samePlace x.dst || decide (x.pos ≤ e.2.pos) ||
    (if x.dst.kind = 1 then i.combined.contains e.1 else i.landed.contains e.1))

/-- An entry's data is on its way to its destination's chiplet, in the epoch of its source's (R436). -/
def State.sendEntry (s : State) (inst e : Nat) (x : TtEntry) : State :=
  (s.modInst inst (fun i => { i with epochs := tblSet e (s.epochAt x.src.chipNo) i.epochs })).scheduleFor
    (match s.inst inst with
      | some i => tenantAgent i.tenant
      | none => packageAgent) 0 (.timetableEntryCombine (inst := inst) (entry := e))

/-- All source bytes of an entry are read: its data arrives at the sequencer after a free delay. -/
def State.gotData (s : State) (inst e : Nat) (x : TtEntry) (b : List Byte) : State :=
  (s.modInst inst (fun i => { i with data := tblSet e b i.data })).sendEntry inst e x

/-- What lets others go on has happened to an entry: the arrived entries of its destination whose turn it now is combine, and entries that read its slot
read it (R430). The read itself is `readEntry`, which an entry that waits has begun. -/
def State.goOn (s : State) (inst : Nat) (t : Timetable) (x : TtEntry) : State :=
  match s.inst inst with
  | none => s
  | some i =>
    let next := t.numbered.filter (fun e => e.2.dst.samePlace x.dst && decide (x.pos < e.2.pos) && i.arrived.contains e.1 && !i.combined.contains e.1 &&
      prevDone t i e.2)
    let readers := t.numbered.filter (fun e => e.2.src.sameSlot x.dst && i.begun.contains e.1 && !(i.data.any (fun d => d.1 == e.1)) &&
      !i.blocked.contains e.1 && slotDone t i e.2.src (some e.2.off))
    readers.foldl (fun acc e => acc.schedule s.cycle 0 (.timetableEntryStart (inst := inst) (entry := e.1)))
      (next.foldl (fun acc e => acc.schedule s.cycle 0 (.timetableEntryCombine (inst := inst) (entry := e.1))) s)

/-- An instance whose last entry has landed after S + DURATION ends now (R432). -/
def State.endLate (s : State) (i : Instance) (t : Timetable) : State :=
  if i.started && !i.ended && t.numbered.all (fun e => i.landed.contains e.1) && !s.agenda.any (fun d => d.ev == .timetableInstanceEnd i.id) then
    s.schedule s.cycle 0 (.timetableInstanceEnd i.id)
  else s

/-- The last byte of an entry has combined or landed: its trigger counts, once, and others go on. -/
def State.entryLanded (s : State) (inst e : Nat) : State :=
  match s.inst inst with
  | none => s
  | some i =>
    match s.timetable i.tt with
    | none => s
    | some t =>
      match t.entry e with
      | none => s
      | some x =>
        if i.landed.contains e then (s.fillHandles i t).goOn inst t x
        else
          let i1 := { i with landed := i.landed ++ [e] }
          ((((s.modInst inst (fun _ => i1)).fillHandles i1 t).countTrigger x).goOn inst t x).endLate i1 t

/-- An entry faults: its handle becomes faulted, or without one the rope's engine fault record holds it, and it writes nothing more; entries that wait for
it go on (R66, R71, R429). DESIGN CHOICE, unsafe: log entry 60. -/
def State.entryFault (s : State) (inst e code : Nat) (addr : W64) : State :=
  match s.inst inst with
  | none => s
  | some i =>
    match s.timetable i.tt with
    | none => s
    | some t => match t.entry e with
      | none => s
      | some x =>
        let i1 := { i with combined := i.combined ++ [e], landed := i.landed ++ [e], arrived := i.arrived ++ [e], blocked := i.blocked ++ [e] }
        let s1 := s.modInst inst (fun _ => i1)
        let s2 : State := match x.dhandle with
          | some h =>
            let hd := (s1.rope x.dst.ropeNo).handle h
            if x.dst.ownPad && hd.st == .filling && hd.filler == i.id + 5 then s1.modRope x.dst.ropeNo (fun r => r.setHandle h (hd.fails code addr)) else s1
          | none => if x.dst.ownPad then s1.portFault x.dst.ropeNo code addr else if x.src.ownPad then s1.portFault x.src.ropeNo code addr else s1
        (s2.goOn inst t x).endLate i1 t

/-- Line `line` of an entry's source is asked for from a cycle on: at the rope's outbound station, or at its home (R87, R102). -/
def State.readLine (s : State) (i : Instance) (e line at_ : Nat) (x : TtEntry) : State :=
  let a := lineOff x.src.off line
  if x.src.ownPad then s.portReq x.src.ropeNo 13 at_ false a [] (.timetable i.id e line)
  else match s.endpointKey i.tenant x.src a .read with
    | .inl c => s.entryFault i.id e c (BitVec.ofNat 64 a)
    | .inr k => s.chipLine i.tenant k none (.timetable i.id e line)

/-- Line `line` of what an entry's destination holds is asked for, before the entry combines with it (R74, R430). -/
def State.oldLine (s : State) (i : Instance) (e line : Nat) (x : TtEntry) : State :=
  let a := lineOff x.dst.off line
  if x.dst.ownPad then s.portReq x.dst.ropeNo 13 s.cycle false a [] (.old i.id e line)
  else match s.endpointKey i.tenant x.dst a .read with
    | .inl c => s.entryFault i.id e c (BitVec.ofNat 64 a)
    | .inr k => s.chipLine i.tenant k none (.old i.id e line)

/-- The read of an entry's source: line by line from scratchpad or global memory (R102), or a slot once its earlier entries have combined. -/
def State.readEntry (s : State) (inst e : Nat) : State :=
  match s.inst inst with
  | none => s
  | some i =>
    match s.timetable i.tt with
    | none => s
    | some t =>
      match t.entry e with
      | none => s
      | some x =>
        if x.src.kind != 1 then s.readLine i e 0 s.cycle x
        else if !slotDone t i x.src (some x.off) then s
        else match s.readEnd i.tenant x.src (linesOf x.bytes) x.src.off with
          | .inl c => s.entryFault inst e c.1 (BitVec.ofNat 64 c.2)
          | .inr b => s.gotData inst e x (cut x.bytes b).1

/-- Whether an entry has begun and waits for the slot that it reads. -/
def State.waitsSlot (s : State) (i : Instance) (e : Nat) : Bool :=
  i.begun.contains e && !i.data.any (fun d => d.1 == e) && (match (s.timetable i.tt).bind (fun t => t.entry e) with
    | some x => x.src.kind == 1
    | none => false)

/-- TIMETABLE_ENTRY_START (R102, R430): at S + OFFSET, and again for an entry that waits for the slot it reads -/
def execTimetableEntryStart (inst entry : Nat) (s : State) : Host.Outcome State Fault Refusal :=
  match s.inst inst with
  | none => .next s
  | some i =>
    if i.ended || i.blocked.contains entry || (i.begun.contains entry && !s.waitsSlot i entry) then .next s
    else .next ((s.modInst inst (fun x => { x with begun := x.begun.filter (· != entry) ++ [entry] })).readEntry inst entry)

/-- Destination handles at S (R429): a free one starts filling, and an entry that names any other writes nothing.
DESIGN CHOICE, unsafe: log entry 77. -/
def State.takeHandles (s : State) (inst : Nat) (t : Timetable) : State :=
  t.numbered.foldl (fun acc e =>
    match e.2.dhandle, acc.inst inst with
    | some h, some i =>
      if !e.2.dst.ownPad then acc
      else
        let x := (acc.rope e.2.dst.ropeNo).handle h
        if x.st = .free then
          acc.modRope e.2.dst.ropeNo (fun r => r.setHandle h
            { x with st := .filling, tag := BitVec.ofNat 16 (field i.s 6 16), chk := 0#4, filler := inst + 5 })
        else if x.st = .filling ∧ x.filler = inst + 5 then acc
        else
          acc.modInst inst (fun y =>
            { y with blocked := y.blocked ++ [e.1], combined := y.combined ++ [e.1], landed := y.landed ++ [e.1],
                     status := if y.status = 0 then 0x4C else y.status })
    | _, _ => acc) s

/-- TIMETABLE_INSTANCE_START (R383, R428, R429, R438, R440): at S; or, where a rerun of the same timetable is still going on, at its end, with LATE. An
instance that ends in this cycle does so first. -/
def execTimetableInstanceStart (inst : Nat) (s : State) : Host.Outcome State Fault Refusal :=
  match s.inst inst with
  | none => .next s
  | some i =>
    match s.timetable i.tt with
    | none => .next (s.closeInst i)
    | some t =>
      let others := s.coll.instances.filter (fun x => x.tt == i.tt && x.started && !x.ended)
      if i.started || i.ended then .next s
      else if others.any (fun x => s.agenda.any (fun d => d.at_ == s.cycle && d.ev == .timetableInstanceEnd x.id)) then
        .next (s.schedule s.cycle 0 (.timetableInstanceStart inst))
      else if others.any (fun x => x.rerun) then .next (s.modInst inst (fun x => { x with late := true }))
      else
        let s1 := s.settled t
        if s1.staleTt t.id then .next (if t.stale then s1.closeInst { i with status := 0x53 } else s1)
        else
          let s2 := (s1.modInst inst (fun x => { x with started := true })).takeHandles inst t
          .next ((t.numbered.foldl (fun acc e => acc.schedule (s.cycle + e.2.off) 0 (.timetableEntryStart inst e.1)) s2).schedule
            (s.cycle + t.duration) 0 (.timetableInstanceEnd inst))

/-- The instance's flags and status after a combination. -/
def Instance.note (i : Instance) (c : Combined) : Instance :=
  { i with z := i.z || c.fl &&& flZ != 0#6, v := i.v || c.fl &&& flV != 0#6, o := i.o || c.fl &&& flO != 0#6,
           status := if c.refused && i.status == 0 then 0x4B else i.status }

/-- Bytes of an entry that are still to be written outside scratchpads and slots go on, line by line. -/
def State.writeLine (s : State) (i : Instance) (e : Nat) (x : TtEntry) (b : List Byte) : State :=
  if b.isEmpty then s.entryLanded i.id e
  else
    let a := x.dst.off + (x.bytes - b.length)
    match s.endpointKey i.tenant x.dst a .write with
    | .inl c => s.entryFault i.id e c (BitVec.ofNat 64 a)
    | .inr k => s.chipLine i.tenant k (some b) (.timetable i.id e 0)

/-- Whether an entry combines with what its destination holds: not at position 0, nor a copy. -/
def TtEntry.needsOld (x : TtEntry) : Bool := x.pos != 0 && x.op != 0

/-- An entry's data combines into its destination, of which the bytes it held are at hand. DESIGN CHOICE, unsafe: log entry 60. -/
def State.combine (s : State) (i : Instance) (t : Timetable) (e : Nat) (x : TtEntry) (b old : List Byte) : State :=
  let r := combineEntry t.seed x old b
  let s1 := s.modInst i.id (fun y => { (y.note r) with combined := y.combined ++ [e], olds := tblErase e y.olds })
  if x.dst.ownPad then s1.portReq x.dst.ropeNo 12 s.cycle true x.dst.off r.bytes (.timetable i.id e 0)
  else if x.dst.kind ≠ 1 then s1.writeLine i e x r.bytes
  else match s1.writeEnd i.tenant x.dst (linesOf x.bytes) x.dst.off r.bytes with
    | .inl c => s1.entryFault i.id e c.1 (BitVec.ofNat 64 c.2)
    | .inr s2 => s2.entryLanded i.id e

/-- An entry's data combines, once the bytes that its destination holds have been read: those of a slot at once, others line by line. -/
def State.combineNow (s : State) (i : Instance) (t : Timetable) (e : Nat) (x : TtEntry) (b : List Byte) : State :=
  if !x.needsOld then s.combine i t e x b []
  else if x.dst.kind = 1 then
    (match s.readEnd i.tenant x.dst (linesOf x.bytes) x.dst.off with
      | .inl c => s.entryFault i.id e c.1 (BitVec.ofNat 64 c.2)
      | .inr old => s.combine i t e x b (cut x.bytes old).1)
  else if i.olds.any (fun o => o.1 == e) then s
  else (s.modInst i.id (fun y => { y with olds := tblSet e [] y.olds })).oldLine i e 0 x

/-- TIMETABLE_ENTRY_COMBINE (R430, R431): data that has arrived waits in the chunk buffer until the positions before it have combined -/
def execTimetableEntryCombine (inst entry : Nat) (s : State) : Host.Outcome State Fault Refusal :=
  match s.inst inst with
  | none => .next s
  | some i =>
    match s.timetable i.tt with
    | none => .next s
    | some t =>
      match t.entry entry with
      | none => .next s
      | some x =>
        if i.ended || i.combined.contains entry then .next s
        else
          let i1 := { i with arrived := i.arrived.filter (· != entry) ++ [entry] }
          let s1 := s.modInst inst (fun _ => i1)
          match i.data.find? (fun d => d.1 == entry) with
          | none => .next s
          | some d => .next (if prevDone t i x then s1.combineNow i1 t entry x d.2 else s1)

/-- TIMETABLE_INSTANCE_END (R427, R432): at S + DURATION, or once its last entry has landed -/
def execTimetableInstanceEnd (inst : Nat) (s : State) : Host.Outcome State Fault Refusal :=
  match s.inst inst with
  | none => .next s
  | some i =>
    match s.timetable i.tt with
    | none => .next (s.closeInst i)
    | some t =>
      .next (if !i.ended && t.numbered.all (fun e => i.landed.contains e.1) then
        s.closeInst { i with late := i.late || decide (i.s + t.duration < s.cycle) }
      else s)

/-! ### Port beats (R58, R71, R87, R102) -/

/-- The path and write cycle of a line that would leave a station in this cycle. -/
def State.portWrite (s : State) (rope station off : Nat) : Option (Nat × List LaneBooking) :=
  let r := s.rope rope
  match r.laneOf station with
  | none => none
  | some lane =>
    let segs := pathSegs lane (stationPos station) (bankPos (bankOf off))
    let w := s.cycle + segsTime (s.ropeMap rope) segs
    let bs := pathBookings (s.ropeMap rope) lane (transferTag s.cycle) station s.cycle segs
    if r.granteeAt (bankOf off) w == station && !r.bankedBy (bankOf off) w station && r.pathFree bs then some (w, bs) else none

/-- A port request changed or done. -/
def State.dropPort (s : State) (rope id : Nat) : State := s.modRope rope (fun r => { r with ports := r.ports.filter (fun p => p.id != id) })

/-- Whether a port write is an earlier line of the same operation as another: their lines are written in order (R292). -/
def PortReq.before (p q : PortReq) : Bool :=
  p.write && p.station == q.station && (match p.owner, q.owner with
    | .engine r x m, .engine r' x' n => r == r' && x == x' && decide (m < n)
    | a, b => a == b && decide (p.id < q.id))

/-- The cycle after the last write of the earlier lines of a port write's operation, if each of them has booked its own. -/
def Rope.afterLines (r : Rope) (q : PortReq) : Option Nat :=
  let ps := r.ports.filter (fun p => p.before q)
  if ps.all (fun p => p.w.isSome) then some (maximumOf (ps.map (fun p => p.w.getD 0 + 1))) else none

/-- Whether a line of a transfer of another rope waits: an earlier line has not left for the station (R292). -/
def State.portAhead (s : State) (q : PortReq) : Bool :=
  match q.owner with
  | .engine r x line => match s.xfer r x with
    | some y => y.2.aheadOf line
    | none => false
  | _ => false

/-- The beat of a write books its bank cycle, after those of the lines before it; the lines after it follow as a request of their own. -/
def State.portBook (s : State) (rope : Nat) (q : PortReq) : State :=
  let again := s.schedule (s.cycle + 1) 0 (.portBeat (ropeId rope) q.id)
  if s.portAhead q then again else
  match s.portWrite rope q.station q.off, (s.rope rope).afterLines q with
  | some p, some lo =>
    if p.1 < lo then again
    else
      let line := cut (lineRoom q.off) q.data
      let s1 := (s.modRope rope (fun r =>
        let r1 := (r.bookLanes s.cycle p.2).bookBanks s.cycle q.station [(bankOf q.off, p.1)]
        { r1 with ports := listMod (fun x => x.id == q.id) (fun x => { x with w := some p.1, data := line.1 }) r1.ports })).schedule p.1 0
          (.portBeat (ropeId rope) q.id)
      if line.2.isEmpty then s1 else s1.portReq rope q.station (s.cycle + 1) true (q.off + line.1.length) line.2 q.owner
  | _, _ => again

/-- A booked write that the table in force no longer grants, or that a line before it holds up, takes the next granted cycle (R60). -/
def State.portRebook (s : State) (rope : Nat) (q : PortReq) : State :=
  let w := (s.rope rope).nextGrant (bankOf q.off) q.station s.cycle
  (s.modRope rope (fun r =>
    let r1 := r.bookBanks s.cycle q.station [(bankOf q.off, w)]
    { r1 with ports := listMod (fun x => x.id == q.id) (fun x => { x with w := some w }) r1.ports })).schedule w 0 (.portBeat (ropeId rope) q.id)

/-- A line written by a port: as that of an engine, or the part of one that an entry writes. -/
def State.portPut (s : State) (rope off : Nat) (data : List Byte) : Option State :=
  if data.length = 64 then s.linePut rope off data
  else if (s.rope rope).barrierAt ((upTo data.length).map (· + off)) then none
  else some ({ s with mem := writeBytes s.mem (keyPad rope off) data }.overwrite (padHit rope ((upTo ((off + data.length) / 8 - (off + 7) / 8)).map
    (fun k => (off + 7) / 8 + k))))

/-- Whether a write of an owner has beats left. -/
def State.portsLeft (s : State) (rope : Nat) (o : PortOwner) : Bool := (s.rope rope).ports.any (fun p => p.write && p.owner == o)

/-! ### Transactions of the host (R49, R74, R451) -/

/-- The tag of a transaction's header. -/
def hdrTag (w : W64) : Nat := bitsNat w 15 4

/-- Answer a request with data or with a status (R451). -/
def State.complete (s : State) (w0 : W64) (r : Sum Nat (List Byte)) : State :=
  match r with
  | .inl st => s.hostSend (hostHeader 3 (hdrTag w0) 0 st 0) 0#64 []
  | .inr b => s.hostSend (hostHeader 3 (hdrTag w0) (b.length / 64) 0 0) 0#64 b

/-- Where a unit of a host transaction lies, as `Config.hostTarget` has it, or the status of its access: no such address, or a fenced channel (R451,
R464). -/
def State.hostPlace (s : State) (a : W64) : Sum Nat (Nat × Nat) :=
  match Config.hostTarget a with
  | none => .inl 0x01
  | some (0, p) => if s.fencedAt (p / 64 * 64) then .inl 0x02 else .inr (0, p / 64 * 64)
  | some (n + 1, off) => .inr (n % 512 + 1, off % 2 ^ 23 / 64 * 64)

/-- One unit of the host asked for: at a memory port over the chiplet's link, to which the host is joined, or at the host port of a rope (R63, R74, R450). -/
def State.hostUnit (s : State) (place : Nat × Nat) (data : Option (List Byte)) (owner : PortOwner) : State :=
  match place with
  | (0, p) => s.chipLine 0 (keyHbm Config.ownPackage p) data owner
  | (n + 1, off) => s.portReq n 14 (s.cycle + 1) data.isSome off (data.getD []) owner

/-- The first unit of the host's posted writes that has a place is asked for; those before it write nothing (R451). -/
def State.inboundNext (s : State) : State :=
  let l := s.host.inbound.dropWhile (fun u => (s.hostPlace u.1).isLeft)
  let s1 : State := { s with host := { s.host with inbound := l } }
  match l with
  | [] => s1
  | u :: _ => match s.hostPlace u.1 with
    | .inl _ => s1
    | .inr p => s1.hostUnit p (some u.2) .hostWrite
/-- A unit of the host's posted writes has performed: the next one follows. -/
def State.inboundDone (s : State) : State := ({ s with host := { s.host with inbound := s.host.inbound.drop 1 } } : State).inboundNext

/-- The next unit of a read request of the host is asked for; of one with no place the request completes with the status (R451). -/
def State.readNext (s : State) (r : HostRead) : State :=
  match s.hostPlace r.addr with
  | .inl st => ({ s with host := { s.host with reads := s.host.reads.filter (fun x => x.id != r.id) } } : State).complete r.w0 (.inl st)
  | .inr p => s.hostUnit p none (.hostRead r.id)

/-- A unit of a read request of the host has come, or the status with which it failed. -/
def State.readGot (s : State) (id : Nat) (b : Sum Nat (List Byte)) : State :=
  match s.host.reads.find? (fun r => r.id == id) with
  | none => s
  | some r =>
    let gone : State := { s with host := { s.host with reads := s.host.reads.filter (fun x => x.id != id) } }
    match b with
    | .inl st => gone.complete r.w0 (.inl st)
    | .inr d =>
      let r1 := { r with addr := r.addr + 64#64, left := r.left - 1, data := r.data ++ d }
      if r1.left = 0 then gone.complete r.w0 (.inr r1.data)
      else ({ s with host := { s.host with reads := listMod (fun x => x.id == id) (fun _ => r1) s.host.reads } } : State).readNext r1

/-! ### Port beats, continued -/

/-- A port write has performed, or a live barrier word has refused it (R71). -/
def State.portWrote (s : State) (rope : Nat) (q : PortReq) (ok : Bool) : State :=
  match q.owner with
  | .engine r x line =>
    match s.xfer r x with
    | none => s
    | some (eng, y) => if ok then s.schedule s.cycle 0 (.ceOffcoreWritePerform (ropeId r) x line) else s.xferFault r eng x line 5 (y.desc.dstLine line)
  | .timetable inst e _ =>
    if !ok then s.entryFault inst e 5 (padAddrOf q.off) else if s.portsLeft rope q.owner then s else s.entryLanded inst e
  | .trigger c => if !ok then s.copyDone c (some (5, padAddrOf q.off)) else if s.portsLeft rope q.owner then s else s.copyDone c none
  | .hostWrite => s.inboundDone
  | _ => s

/-- The bytes of a descriptor that a `ctrig` or `ckpt` still needs (R433, R442). -/
def FarOp.descNeed (f : FarOp) : Nat := if f.kind = .ckpt ∧ 64 ≤ f.desc.length then 64 + 32 * min 16 (natAt f.desc 3 1) else 64

/-- The next line of the descriptor of a `ctrig` or `ckpt` is asked for: through station 13 of the issuing rope, or from global memory (R74, R299). -/
def State.descLine (s : State) (core : Nat) (f : FarOp) : State :=
  let a := f.addr + BitVec.ofNat 64 f.desc.length
  if addrSpace f.addr = 1 then s.portReq (ropeOf core) 13 (s.cycle + 1) false (bitsNat a 22 0) [] (.desc core f.id)
  else match s.globalKey (s.tenantOf core) f.root a .read with
    | .inl c => s.farFault core f.id c
    | .inr k => s.chipLine (s.tenantOf core) k none (.desc core f.id)

/-- A line that a chiplet or a port has read goes to its owner, or what it has found at its home: `a` is the address it read. -/
def State.lineGot (s : State) (owner : PortOwner) (a : W64) (b : Sum Nat (List Byte)) : State :=
  match owner with
  | .timetable inst e line =>
    match s.inst inst with
    | none => s
    | some i =>
      match (s.timetable i.tt).bind (fun t => t.entry e), b with
      | none, _ => s
      | some _, .inl c => s.entryFault inst e c a
      | some x, .inr b =>
        let got := tblGet [] e i.data ++ b
        if line + 1 < linesAt x.src.off x.bytes then
          (s.modInst inst (fun y => { y with data := tblSet e got y.data })).readLine i e (line + 1) (s.cycle + 1) x
        else s.gotData inst e x (cutLines x.src.off x.bytes got)
  | .old inst e line =>
    match s.inst inst with
    | none => s
    | some i =>
      match s.timetable i.tt, b with
      | none, _ => s
      | some _, .inl c => s.entryFault inst e c a
      | some t, .inr b => match t.entry e with
        | none => s
        | some x =>
          let got := tblGet [] e i.olds ++ b
          if line + 1 < linesAt x.dst.off x.bytes then (s.modInst inst (fun y => { y with olds := tblSet e got y.olds })).oldLine i e (line + 1) x
          else s.combine i t e x (tblGet [] e i.data) (cutLines x.dst.off x.bytes got)
  | .hostRead id => s.readGot id (match b with
      | .inl c => .inl (if c = 8 then 0x03 else 0x02)
      | .inr b => .inr b)
  | .trigger id =>
    match s.coll.copies.find? (fun c => c.id == id), b with
    | none, _ => s
    | some _, .inl c => s.copyDone id (some (c, a))
    | some c, .inr b =>
      let c1 := { c with data := c.data ++ b }
      let s1 := s.modColl (fun x => { x with copies := listMod (fun y => y.id == id) (fun _ => c1) x.copies })
      if c1.data.length < actionLen c.action then s1.copyRead c1 else s1.copyWrite c1 (cut (actionLen c.action) c1.data).1
  | .desc core id =>
    match (s.core core).farOp id, b with
    | none, _ => s
    | some _, .inl c => s.farFault core id c
    | some f, .inr b =>
      let f1 := { f with desc := f.desc ++ b }
      let s1 := s.modFar core id (fun _ => f1)
      if f1.desc.length < f1.descNeed then s1.descLine core f1
      else s1.scheduleFree 6 (if f.kind = .ctrig then .triggerArm (coreId core) id else .farAccessHomeService (coreId core) id)
  | _ => s

/-- A line read through a port goes to its owner, to another rope after a free delay (R76); an uncorrectable word of it is fault code 8 (R66, R71). -/
def State.portGot (s : State) (rope travel : Nat) (q : PortReq) : State :=
  let b := readBytes s.mem (keyPad rope q.off) 64
  let code := if s.lineBad rope q.off then 8 else 0
  match q.owner with
  | .engine r x line =>
    match s.xfer r x with
    | none => s
    | some (eng, y) =>
      let d := (s.lineServed r eng x line b code).freshDelay (coreAgent y.core)
      d.2.schedule (s.cycle + travel + d.1) 0 (.ceOffcoreReadReturn (ropeId r) x line)
  | .desc core id => s.lineGot (.desc core id) 0#64 (.inr b)
  | o => s.lineGot o (padAddrOf q.off) (if code = 0 then .inr b else .inl code)

/-- Whether the line of a port request is still wanted: that of a transfer goes with its transfer. -/
def State.portStands (s : State) (q : PortReq) : Bool :=
  match q.owner with
  | .engine r x line => match s.xfer r x with
    | some y => y.2.pending.any (fun l => l.line == line)
    | none => false
  | _ => true

/-- PORT_BEAT (R58, R60, R71, R87, R102): a beat starts only in a cycle granted to its station with its path free; a write performs at its booked
cycle, if the table in force grants it and the lines before it are written -/
def execPortBeat (rope : RopeId) (id : Nat) (s : State) : Host.Outcome State Fault Refusal :=
  let k := rope.val
  match (s.rope k).ports.find? (fun p => p.id == id) with
  | none => .next s
  | some q =>
    if !s.portStands q then .next (s.dropPort k id)
    else if q.write then
      match q.w with
      | none => .next (s.portBook k q)
      | some w =>
        if w ≠ s.cycle then .next s
        else if (s.rope k).granteeAt (bankOf q.off) s.cycle ≠ q.station || (s.rope k).ports.any (fun p => p.before q) then .next (s.portRebook k q)
        else match s.portPut k q.off q.data with
          | some t => .next ((t.dropPort k id).portWrote k q true)
          | none => .next ((s.dropPort k id).portWrote k q false)
    else match s.beatRead (s.ropeMap k) k q.station (bankOf q.off) with
      | none => .next (s.schedule (s.cycle + 1) 0 (.portBeat rope id))
      | some p =>
        let s1 := s.modRope k (fun r => (r.bookLanes s.cycle p.2).bookBanks s.cycle q.station [(bankOf q.off, s.cycle)])
        .next ((s1.dropPort k id).portGot k p.1 q)

/-- Whether a line of this package's HBM holds an uncorrectable word. -/
def State.hbmLineBad (s : State) (phys : Nat) : Bool := (upTo 8).any (fun i => s.hbmBad (phys / 64 * 64 + 8 * i))

/-- The address that a chiplet's access names to software: that of its operation's line. -/
def State.chipAddr (s : State) (w : PortWait) : W64 :=
  match w.owner with
  | .timetable inst e line => match (s.inst inst).bind (fun i => (s.timetable i.tt).bind (fun t => t.entry e)) with
    | some x => BitVec.ofNat 64 (if w.what = 5 then x.dst.off + (x.bytes - w.data.length) else lineOff x.src.off line)
    | none => 0#64
  | .old inst e line => match (s.inst inst).bind (fun i => (s.timetable i.tt).bind (fun t => t.entry e)) with
    | some x => BitVec.ofNat 64 (lineOff x.dst.off line)
    | none => 0#64
  | .trigger id => match s.coll.copies.find? (fun c => c.id == id) with
    | some c => if w.what = 5 then actionDst c.action + BitVec.ofNat 64 (actionLen c.action - w.data.length)
        else actionSrc c.action + BitVec.ofNat 64 c.data.length
    | none => 0#64
  | _ => 0#64

/-- A line that a chiplet has written at its home: the rest of its operation's bytes follow, and after its record an instance is gone (R432). -/
def State.chipWrote (s : State) (w : PortWait) : State :=
  let rest := (cut (lineRoom w.key) w.data).2
  match w.owner with
  | .timetable inst e _ =>
    match s.inst inst with
    | none => s
    | some i => if i.ended then s.finishInst i else match (s.timetable i.tt).bind (fun t => t.entry e) with
      | none => s
      | some x => s.writeLine i e x rest
  | .hostWrite => s.inboundDone
  | .trigger id => match s.coll.copies.find? (fun c => c.id == id) with
    | none => s
    | some c => s.copyWrite c rest
  | _ => s

/-- A write of a chiplet has found a fault at its home. -/
def State.chipFault (s : State) (w : PortWait) (code : Nat) (a : W64) : State :=
  match w.owner with
  | .timetable inst e _ => match s.inst inst with
    | none => s
    | some i => if i.ended then s.finishInst i else s.entryFault inst e code a
  | .trigger id => s.copyDone id (some (code, a))
  | .hostWrite => s.inboundDone
  | _ => s

/-- Whether a line is the host's, which no tenant's partition bounds. -/
def PortOwner.ofHost : PortOwner → Bool
  | .hostWrite => true
  | .hostRead _ => true
  | _ => false

/-- A chiplet's line served at its home (R27, R66, R87): at the port of a memory of this package the tenant's partition bounds it. -/
def State.serveChip (s : State) (w : PortWait) : State :=
  let own := ownPhys w.key
  let code := match own with
    | some p => if w.owner.ofHost then (if s.fencedAt p then 9 else 0) else s.partitionCode w.tenant p
    | none => 0
  let bad := match own with
    | some p => s.hbmLineBad p
    | none => false
  let a := s.chipAddr w
  if w.what = 5 then (if code ≠ 0 then s.chipFault w code a else (s.putKey w.key (cut (lineRoom w.key) w.data).1).chipWrote w)
  else s.lineGot w.owner a (if code ≠ 0 then .inl code else if bad then .inl 8 else .inr (readBytes s.mem w.key 64))

/-! ### Arming and held operations (R187, R299, R433) -/

/-- Whether an action descriptor is well formed (R433). -/
def actionWf (a : List Byte) : Bool :=
  let kind := natAt a 0 1
  let src := BitVec.ofNat 64 (natAt a 8 8)
  let dst := BitVec.ofNat 64 (natAt a 0x10 8)
  let h := natAt a 0x1C 2
  decide (1 ≤ kind) && decide (kind ≤ 3) && decide (natAt a 1 1 < 2) && decide (1 ≤ natAt a 4 4) && decide (natAt a 4 4 ≤ 65535) &&
    decide (h < 128) && decide (natAt a 0x1E 2 < 2048) && zeroAt a 0x24 28 && (kind != 1 || decide (8192 ≤ natAt a 0x20 4)) &&
    (kind != 2 || ([0, 5].contains (addrSpace src) && [0, 1, 5].contains (addrSpace dst) && natAt a 0x18 4 != 0 && natAt a 0x18 4 % 64 == 0 &&
      (addrSpace dst != 1 || decide (64 ≤ h))))

/-- The status of a `ctrig` (R299, R421, R433). DEDUCED, unsafe: log entry 59. -/
def State.armStatus (s : State) (core entry : Nat) (a : List Byte) : Nat :=
  let chip := dieOf core % 16 / 8
  if 1024 ≤ entry then 0x41
  else if !rangeHolds (s.partition (s.tenantOf core)).triggers chip entry entry then 0x43
  else if (s.trigger chip entry).armed then 0x44
  else if !actionWf a then 0x45
  else 0

/-- TRIGGER_ARM (R74, R433, R434): the chiplet reads the descriptor in the issuing rope's scratchpad, through its station; arming sets the count to 0 -/
def execTriggerArm (core : CoreId) (id : Nat) (s : State) : Host.Outcome State Fault Refusal :=
  let k := core.val
  match (s.core k).farOp id with
  | none => .next s
  | some f =>
    if f.desc.length < 64 then .next (s.descLine k f)
    else
      let entry := f.data.toNat
      let st := s.armStatus k entry f.desc
      let owner := match (s.core k).launch with
        | some l => l.launch
        | none => 0
      let s1 := if st = 0 then
          s.setTrigger (dieOf k % 16 / 8) entry { armed := true, count := 0, action := f.desc, owner := owner, tenant := s.tenantOf k }
        else s
      .next (s1.farAnswer k id (BitVec.ofNat 64 st))

/-- Whether the buffer of a held operation is resident: the rope of its handle or scratchpad destination is one of its owner's (R187). -/
def residentFor (l : Launch) (a : List Byte) : Bool :=
  natAt a 0 1 != 2 || (addrSpace (actionDst a) != 1 && (actionHandle a).isNone) || l.ropes.contains (ropeOf (actionCore a))

/-- HELD_TRIGGER_PERFORM (R187): the held operations of a launch that has been placed again, its handles and buffers being in place; one whose buffer is
not resident is not performed and writes FREC. Once all have been performed, the launch's cores start. -/
def execHeldTriggerPerform (launch : Nat) (s : State) : Host.Outcome State Fault Refusal :=
  match s.launch launch with
  | none => .next s
  | some l =>
    let mine := s.coll.held.filter (fun h => h.owner == launch)
    let s1 := s.modColl (fun c => { c with held := c.held.filter (fun h => h.owner != launch) })
    let s2 := mine.foldl (fun acc h =>
      if residentFor l h.action then acc.perform h.tenant h.owner h.fired h.action
      else acc.modQueue l.queue (fun x => { x with frec := frecWord 1 0x37 l.seq })) s1
    .next (if s2.coll.copies.any (fun c => c.owner == launch) then s2.schedule (s.cycle + 1) 6 (.heldTriggerPerform launch)
      else s2.scheduleFree 6 (.contextRestore launch))

/-! ### Failures (R435–R439) -/

/-- The drain round: 20 µs at 1.9 GHz (R437). -/
def drainCycles : Nat := 38000

/-- A list with a number, once. -/
def addTo (l : List Nat) (n : Nat) : List Nat := if l.contains n then l else l ++ [n]

/-- A packet that is not delivered: its arrival is no longer due. -/
def State.undue (s : State) (ev : Instr) : State := { s with agenda := s.agenda.filter (fun d => d.ev != ev) }

/-- Slots of an instance whose combination had not completed are combined again, each in ascending position, from the data that has arrived and that which
is on its way; RERUN is set (R438). -/
def State.rerunInst (s : State) (i : Instance) : State :=
  match s.timetable i.tt with
  | none => s
  | some t =>
    let lost := t.numbered.filter (fun e => e.2.dst.kind == 1 && !slotDone t i e.2.dst none)
    let ids := lost.map (·.1)
    let s1 := lost.foldl (fun acc e => { acc with mem := writeBytes acc.mem (keyChunk (2 * e.2.dst.mem + e.2.dst.chip) e.2.dst.off) (copies e.2.bytes 0#8) }) s
    let s2 := s1.modInst i.id (fun x => { x with rerun := true, combined := x.combined.filter (fun e => !ids.contains e || x.blocked.contains e) })
    (lost.filter (fun e => i.arrived.contains e.1 && !i.blocked.contains e.1)).foldl (fun acc e =>
      acc.scheduleFor (tenantAgent i.tenant) 0 (.timetableEntryCombine (inst := i.id) (entry := e.1))) s2

/-- An instance ends with a failure: its handles that are not yet full become faulted with FCODE 4 (R437, R439). -/
def State.failInst (s : State) (i : Instance) (status : Nat) : State :=
  match s.timetable i.tt with
  | none => s.closeInst { i with status := status }
  | some t =>
    let s1 := t.entries.foldl (fun acc e =>
      match e.dhandle with
      | none => acc
      | some h =>
        let x := (acc.rope e.dst.ropeNo).handle h
        if e.dst.ownPad && x.st == .filling && x.filler == i.id + 5 then acc.modRope e.dst.ropeNo (fun r => r.setHandle h (x.fails 4 0#64)) else acc) s
    s1.closeInst { i with status := status, late := i.late || decide (i.s + t.duration < s.cycle) }

/-- A member has failed: running instances that include it end, and so do checkpoints of its groups (R439, R445). -/
def State.memberFails (s : State) (pkg : Nat) : State :=
  let hit := s.coll.instances.filter (fun i => i.started && !i.ended && (match s.timetable i.tt with
    | some t => t.packages.contains pkg
    | none => false))
  let s1 := hit.foldl (fun acc i => acc.failInst i 0x4D) s
  s1.modColl (fun c =>
    { c with
      failedMembers := addTo c.failedMembers pkg,
      checkpoints := listMod (fun k => (upTo (natAt k.desc 2 1 + 1)).any (fun m => field (natAt k.desc (8 + 2 * m) 2) 5 4 == pkg))
        (fun k => { k with failed := true }) c.checkpoints })

/-- Entries of a running instance whose packets are on their way: their data has left its source and has not arrived. -/
def Instance.transit (i : Instance) (t : Timetable) : List (Nat × TtEntry) :=
  if !i.started || i.ended then []
  else t.numbered.filter (fun e => i.epochs.any (fun x => x.1 == e.1) && !i.arrived.contains e.1 && !i.blocked.contains e.1)

/-- Packets that a chiplet's sources had routed over an element that is dead are resent, in the new epoch (R437). Which packets took it the spec leaves
open: a free value. DESIGN CHOICE, safe: log entry 62. -/
def State.resend (s : State) (chip epoch : Nat) : State :=
  let s1 := s.coll.instances.foldl (fun acc i => match s.timetable i.tt with
    | none => acc
    | some t => ((i.transit t).filter (fun e => e.2.src.chipNo == chip)).foldl (fun b e =>
      let took := bitAt (Config.freeWord (b.freeIndex packageAgent)) 0
      (if took then b.modInst i.id (fun y => { y with epochs := tblSet e.1 epoch y.epochs }) else b).useFree packageAgent) acc) s
  if chip ≠ 0 then s1
  else s1.coll.calls.foldl (fun acc c =>
    let took := bitAt (Config.freeWord (acc.freeIndex packageAgent)) 0
    (if took then acc.modCall c.id (fun x => { x with epoch := epoch }) else acc).useFree packageAgent) s1

/-- What a death does to the package, once: the element is dead, with all its links where it is a switch (R435), or the named instances rerun (R438). -/
def State.elementDies (s : State) (x : NetElement) : State :=
  match x with
  | .link n => s.modColl (fun c => { c with deadLinks := addTo c.deadLinks n })
  | .switch n => s.modColl (fun c => { c with deadSwitches := addTo c.deadSwitches n, deadLinks := (Config.switchLinks n).foldl addTo c.deadLinks })
  | .member p => s.memberFails p.val
  | .lostInstances ids => (s.coll.instances.filter (fun i => ids.contains i.id && i.started && !i.ended)).foldl (fun acc i => acc.rerunInst i) s

/-- Whether the package knows of a death already: the other chiplet has applied it (R436). -/
def State.knows (s : State) (x : NetElement) (epoch : BitVec 32) : Bool :=
  match x with
  | .link n => s.coll.deadLinks.contains n
  | .switch n => s.coll.deadSwitches.contains n
  | .member p => s.coll.failedMembers.contains p.val
  | .lostInstances _ => decide (epoch.toNat ≤ s.epochAt 0) || decide (epoch.toNat ≤ s.epochAt 1)

/-- An update applied by a chiplet when it first receives it: the chiplet forwards it, once, on every live link, drain round 1 begins, and packets that
took the dead element are resent (R436–R438). Links by which other nodes get it lie outside the machine: what is sent on them stands in `updates`. DESIGN
CHOICE, safe: log entry 62. -/
def State.applyUpdate (s : State) (chip : Nat) (x : NetElement) (epoch : BitVec 32) (declarer : Nat) : State :=
  let s1 := if s.knows x epoch then s else s.elementDies x
  let live := (Config.chipLinks chip).filter (fun l => !s1.coll.deadLinks.contains l)
  let s2 := s1.modColl (fun c =>
    { c with
      epochs := tblSet chip epoch c.epochs, draining := tblSet chip (epoch, s.cycle + drainCycles) c.draining,
      updates := { node := chip, links := live, element := x, epoch := epoch, declarer := declarer } :: c.updates })
  (s2.resend chip epoch.toNat).schedule (s.cycle + drainCycles) 0 (.drainRoundEnd epoch)

/-- LINK_STATE_UPDATE (R436): updates at or below the chiplet's epoch are discarded -/
def execLinkStateUpdate (element : NetElement) (epoch : BitVec 32) (path : UpdatePath) (s : State) : Host.Outcome State Fault Refusal :=
  .next (if epoch.toNat ≤ s.epochAt path.node.toNat then s else s.applyUpdate path.node.toNat element epoch path.declarer)

/-- A death declared by a chiplet: an update one epoch above the highest that it has seen (R436). -/
def State.declare (s : State) (chip : Nat) (x : NetElement) : State := s.applyUpdate chip x (tblGet 0#32 chip s.coll.epochs + 1#32) chip

/-- The chiplet that watches a link. -/
def chipOfLink (link : Nat) : Nat := if (Config.chipLinks 1).contains link then 1 else 0

/-- Whether a flit of one of some links has been received within a number of cycles (R435). -/
def State.heard (s : State) (links : List Nat) (within : Nat) : Bool :=
  s.coll.lastFlit.any (fun e => links.contains e.1 && decide (s.cycle < e.2 + within))

/-- IDLE_FLIT (R435): a flit restarts the link's silence timeout -/
def execIdleFlit (link : Nat) (s : State) : Host.Outcome State Fault Refusal :=
  .next (s.modColl (fun c => { c with lastFlit := tblSet link s.cycle c.lastFlit }))

/-- LINK_TIMEOUT (R435): a link that has carried a flit in the last 3,800 cycles is dead only where its link layer's retries are exhausted, which is a free
value. DESIGN CHOICE, safe: log entry 62. -/
def execLinkTimeout (link : Nat) (s : State) : Host.Outcome State Fault Refusal :=
  let s1 := s.useFree packageAgent
  let chip := chipOfLink link
  .next (if s.coll.deadLinks.contains link then s
    else if !s.heard [link] 3800 then s.declare chip (.link link)
    else if bitAt (Config.freeWord (s.freeIndex packageAgent)) 0 then s1.declare chip (.link link)
    else s1)

/-- SWITCH_TIMEOUT (R435): after 20 µs with nothing through any of its links, the switch and all its links are dead -/
def execSwitchTimeout (switch : Nat) (s : State) : Host.Outcome State Fault Refusal :=
  let links := Config.switchLinks switch
  .next (if s.coll.deadSwitches.contains switch || s.heard links 38000 then s
    else s.declare (chipOfLink (links.headD 0)) (.switch switch))

/-- A failure record (R439). -/
def State.recordFailure (s : State) (pkg : Nat) (epoch : BitVec 32) : State :=
  if s.coll.failureRecords.any (fun r => r.1 == pkg) then s
  else (s.modColl (fun c => { c with failureRecords := c.failureRecords ++ [(pkg, epoch.toNat, s.cycle)] })).memberFails pkg

/-- GROUP_TIMEOUT (R435, R439): after 200 µs with nothing from a member, it is declared failed, and the home sends its failure record -/
def execGroupTimeout (pkg : PkgId) (s : State) : Host.Outcome State Fault Refusal :=
  .next (if s.coll.failedMembers.contains pkg.val || s.heard (Config.memberLinks pkg.val) 380000 then s
    else (s.declare 0 (.member pkg)).recordFailure pkg.val (tblGet 0#32 0 s.coll.epochs + 1#32))

/-- MEMBER_FAILURE_RECORD (R439) -/
def execMemberFailureRecord (pkg : PkgId) (epoch : BitVec 32) (s : State) : Host.Outcome State Fault Refusal := .next (s.recordFailure pkg.val epoch)

/-- Whether two members of a timetable have no surviving route. -/
def State.unrouted (s : State) (t : Timetable) : Bool :=
  t.packages.any (fun p => t.packages.any (fun q => p != q && !Config.routed s.coll.deadLinks s.coll.deadSwitches p q))

/-- Packets of an older epoch that are still on their way to a chiplet at the end of its drain round are discarded: an entry's is resent by its source, in
the new epoch, and its instance reruns (R437, R438). -/
def State.discardEntries (s : State) (chip epoch : Nat) (i : Instance) (t : Timetable) : State :=
  let lost := (i.transit t).filter (fun e => e.2.dst.chipNo == chip && decide (tblGet 0 e.1 i.epochs < epoch))
  if lost.isEmpty then s
  else
    let s1 := lost.foldl (fun acc e => (acc.undue (.timetableEntryCombine (inst := i.id) (entry := e.1))).sendEntry i.id e.1 e.2) s
    match s1.inst i.id with
    | some j => s1.rerunInst j
    | none => s1

/-- The packets of calls on their way to a chiplet of this package, or from there to the home in it, are discarded too: such a call gets no further
acceptance (R427, R437). -/
def CcallReq.discarded (c : CcallReq) (chip epoch : Nat) : CcallReq :=
  if c.closed || decide (epoch ≤ c.epoch) then c
  else
    { c with
      sent := c.sent.filter (· != 2 * Config.ownPackage + chip),
      lost := c.lost || c.sent.contains (2 * Config.ownPackage + chip) || (chip == 0 && c.asked.any (fun k => !c.sent.contains k)) }

/-- A drain round ends at a chiplet (R437). An instance of which two members have no surviving route ends with 0x4E. -/
def State.roundEnds (s : State) (chip epoch : Nat) : State :=
  let s1 := s.modColl (fun c => { c with draining := tblErase chip c.draining, calls := c.calls.map (fun x => x.discarded chip epoch) })
  (s1.coll.instances.filter (fun i => i.started && !i.ended)).foldl (fun acc i =>
    match acc.timetable i.tt with
    | none => acc
    | some t => if acc.unrouted t then acc.failInst i 0x4E else acc.discardEntries chip epoch i t) s1

/-- DRAIN_ROUND_END (R437): at every chiplet whose round of this epoch ends in this cycle -/
def execDrainRoundEnd (epoch : BitVec 32) (s : State) : Host.Outcome State Fault Refusal :=
  .next ((s.coll.draining.filter (fun e => e.2 == (epoch, s.cycle))).foldl (fun acc e => acc.roundEnds e.1 epoch.toNat) s)

end Sys2Proof.Machine
end

