-- ==== Sys2Proof/Machine/Checkpoint.lean ====
section
/-!
DEFINITION. Checkpoints (R441–R448): state-class descriptors, shards, parity, headers and cairns; saves and restores; and the service of far operations
and engine reads at their home (R27, R87, R155), which starts the save of a `ckpt`.
-/

namespace Sys2Proof.Machine

/-! ### Descriptors (R442, R443) -/

/-- Fields of a state-class descriptor. -/
def ckGroup (d : List Byte) : Nat := natAt d 0 2
def ckData (d : List Byte) : Nat := natAt d 2 1
def ckClasses (d : List Byte) : Nat := natAt d 3 1
/-- Member m: its package and die. -/
def ckPkg (d : List Byte) (m : Nat) : Nat := field (natAt d (8 + 2 * m) 2) 5 4
def ckDie (d : List Byte) (m : Nat) : Nat := field (natAt d (8 + 2 * m) 2) 0 5
/-- Class k: its address, length and form. -/
def ckSrc (d : List Byte) (k : Nat) : Nat := natAt d (64 + 32 * k) 8
def ckLen (d : List Byte) (k : Nat) : Nat := natAt d (72 + 32 * k) 8
def ckForm (d : List Byte) (k : Nat) : Nat := natAt d (80 + 32 * k) 1

/-- Whether a descriptor is well formed. -/
def ckWf (d : List Byte) : Bool :=
  let n := ckClasses d
  decide (1 ≤ ckData d) && decide (ckData d ≤ 16) && decide (1 ≤ n) && decide (n ≤ 16) && d.length == 64 + 32 * n && zeroAt d 4 4 && zeroAt d 0x2A 22 &&
    (upTo 17).all (fun m => field (natAt d (8 + 2 * m) 2) 9 7 == 0) &&
    (upTo n).all (fun k => ckLen d k != 0 && ckLen d k % 4096 == 0 && decide (ckForm d k ≤ 2) && addrSpace (BitVec.ofNat 64 (ckSrc d k)) == 0 &&
      zeroAt d (81 + 32 * k) 15)

/-- The group hash: MEMB read as zero (R443). -/
def groupHash (d : List Byte) : List Byte := hash128 (blanked d 8 34)

/-- Pieces of a list, of `n` bytes each, `fuel` at most. -/
def pieces (n : Nat) : Nat → List Byte → List (List Byte)
  | 0, _ => []
  | fuel + 1, b => if b.isEmpty then [] else (cut n b).1 :: pieces n fuel (cut n b).2

/-- A class in its stored form (R216, R443). -/
def encodeBlocks (b : List Byte) : List Byte :=
  let qs := (pieces 128 32 b).map (fun x => mxQuant 8 ((pieces 4 32 x).map (fun w => (fpRead fp32 false (leNat w)).1)))
  qs.flatMap (fun q => q.2.1.map (fun c => BitVec.ofInt 8 c)) ++ qs.map (fun q => BitVec.ofNat 8 q.1)
def encodeClass (form : Nat) (b : List Byte) : List Byte :=
  match form with
  | 1 => (pieces 4 b.length b).flatMap (fun w => leBytes 2 (fpConvert fp32 bf16 .rne false (leNat w)).bits)
  | 2 => (pieces 4096 b.length b).flatMap encodeBlocks
  | _ => b

/-- A class from its stored form: BF16 widens exactly and MXINT8 decodes as R217 gives. -/
def decodeBlocks (b : List Byte) : List Byte :=
  (upTo 32).flatMap (fun k =>
    let scale := natAt b (1024 + k) 1
    (upTo 32).flatMap (fun i => leBytes 4 (fpEncode fp32 .rne false (mxValue 8 scale (signedOf 8 (natAt b (32 * k + i) 1)))).bits))
def decodeClass (form : Nat) (b : List Byte) : List Byte :=
  match form with
  | 1 => (pieces 2 b.length b).flatMap (fun w => leBytes 4 (leNat w * 2 ^ 16))
  | 2 => (pieces 1056 b.length b).flatMap decodeBlocks
  | _ => b

/-- Stored length of a class, and of a shard. -/
def storedLen (form len : Nat) : Nat := if form = 1 then len / 2 else if form = 2 then 33 * len / 128 else len
def shardLen (d : List Byte) : Nat := total ((upTo (ckClasses d)).map (fun k => storedLen (ckForm d k) (ckLen d k)))

/-- The exclusive or of two byte strings. -/
def xorBytes : List Byte → List Byte → List Byte
  | a :: s, b :: t => (a ^^^ b) :: xorBytes s t
  | s, [] => s
  | [], t => t

/-! ### Places (R441, R444) -/

/-- The stored item of member m: the parity at member 0, data member i's shard at member i + 1. -/
def itemOf (d : List Byte) (m : Nat) : Nat := if m = 0 then ckData d else m - 1

/-- Key of a byte of a slot of a member's region: cairn at 0, header at 64, item at 128. -/
def ckKey (d : List Byte) (m slot off : Nat) : Nat :=
  let k := 32 * ckPkg d m + ckDie d m
  keyHbm (ckPkg d m) (ckDie d m * 2 ^ 36 + Config.ckBase k + slot * Config.ckSlot k + off)

/-- Members of a group, the parity member last. -/
def ckMembers (d : List Byte) : List Nat := upTo (ckData d + 1)

/-- A memory key with its home die replaced: SRC is one virtual address on every data member, and names there the memory of the member's own die (R442).
DESIGN CHOICE, unsafe: log entry 63. -/
def atDie (pkg die key : Nat) : Nat := keyHbm pkg 0 + setField (key - keyHbm pkg 0) 36 5 die

/-- Where a byte of a data member's state lies: none where its address faults. -/
def State.memberByte (s : State) (tenant : Nat) (d : List Byte) (m a : Nat) (kind : OffKind) : Option Nat :=
  let pkg := ckPkg d m
  if pkg = Config.ownPackage then
    (match s.globalKey tenant (s.chipRoot tenant) (BitVec.ofNat 64 a) kind with
      | .inl _ => none
      | .inr k =>
        let k1 := atDie pkg (ckDie d m) k
        if s.partitionCode tenant (k1 - keyHbm pkg 0) ≠ 0 then none else some k1)
  else match s.memberKey tenant pkg a kind with
    | .inl _ => none
    | .inr k => some (atDie pkg (ckDie d m) k)

/-- Bytes of a data member's state, line by line: none where an address faults. -/
def State.classBytes (s : State) (tenant : Nat) (d : List Byte) (m : Nat) : Nat → Nat → Option (List Byte)
  | 0, _ => some []
  | n + 1, a => match s.memberByte tenant d m a .read, s.classBytes tenant d m n (a + 64) with
    | some k, some t => some (readBytes s.mem k 64 ++ t)
    | _, _ => none

/-- A data member's shard: none where an address faults. -/
def State.shardOf (s : State) (tenant : Nat) (d : List Byte) (m : Nat) : Option (List Byte) :=
  (upTo (ckClasses d)).foldr (fun k acc =>
    match s.classBytes tenant d m (ckLen d k / 64) (ckSrc d k), acc with
    | some b, some t => some (encodeClass (ckForm d k) b ++ t)
    | _, _ => none) (some [])

/-- The lines of the data members' classes, and those of a slot of every member's region, as its chiplet asks for them at the ports (R63). -/
def State.classLines (s : State) (tenant : Nat) (d : List Byte) (kind : OffKind) : List Nat :=
  (upTo (ckData d)).flatMap (fun m => (upTo (ckClasses d)).flatMap (fun k =>
    (upTo (ckLen d k / 64)).filterMap (fun i => s.memberByte tenant d m (ckSrc d k + 64 * i) kind)))
def slotLines (d : List Byte) (slot : Nat) : List Nat :=
  (ckMembers d).flatMap (fun m => (upTo (2 + linesOf (shardLen d))).map (fun i => ckKey d m slot (64 * i)))

/-- An item header (R444). -/
def itemHeader (step : W64) (m : Nat) (item : List Byte) : List Byte :=
  leBytes 8 step.toNat ++ leBytes 1 m ++ copies 7 0#8 ++ leBytes 8 item.length ++ hash128 item ++ copies 24 0#8

/-- The stripe-map hash (R444): the list of member, as MEMB has its package and die, stored item and length in member order. DESIGN CHOICE, unsafe: log
entry 63. -/
def stripeHash (d : List Byte) : List Byte :=
  hash128 ((ckMembers d).flatMap (fun m => octets d (8 + 2 * m) 2 ++ leBytes 1 (itemOf d m) ++ leBytes 8 (shardLen d)))

/-- Whether some class is not exact. -/
def ckLossy (d : List Byte) : Bool := (upTo (ckClasses d)).any (fun k => ckForm d k != 0)

/-- A cairn from the DIGESTs of the items (R446). -/
def cairnOf (d : List Byte) (step : W64) (slot : Nat) (digests : List (List Byte)) : List Byte :=
  leBytes 8 step.toNat ++ groupHash d ++ stripeHash d ++ hash128 digests.flatten ++ leBytes 4 (2 ^ ckData d - 1) ++ leBytes 1 slot ++ boolByte (ckLossy d) ++
    copies 2 0#8

/-- The valid cairn of a slot at a member (R446). -/
def State.cairnAt (s : State) (d : List Byte) (m slot : Nat) : Option (List Byte) :=
  let b := readBytes s.mem (ckKey d m slot 0) 64
  if octets b 8 16 == groupHash d && natAt b 0x3C 1 == slot && natAt b 0x3A 2 == 0 && decide (natAt b 0x3D 1 < 2) && zeroAt b 0x3E 2 then some b else none

/-- Whether a member is down: its package has been declared failed, or its die, in this package, has tripped or is in reset (R439, R449). -/
def State.memberDown (s : State) (pkg die : Nat) : Bool :=
  s.coll.failedMembers.contains pkg || (pkg == Config.ownPackage && ((s.die die).tripped || (s.die die).inReset))
/-- Members that have not failed. -/
def State.surviving (s : State) (d : List Byte) : List Nat := (ckMembers d).filter (fun m => !s.memberDown (ckPkg d m) (ckDie d m))

/-- The valid cairn of a slot, at the first surviving member that holds one. -/
def State.slotCairn (s : State) (d : List Byte) (slot : Nat) : Option (List Byte) := (s.surviving d).findSome? (fun m => s.cairnAt d m slot)

/-- STEP of a slot's cairn, plus 1; 0 where it has none. -/
def State.slotRank (s : State) (d : List Byte) (slot : Nat) : Nat :=
  match s.slotCairn d slot with
  | some c => natAt c 0 8 + 1
  | none => 0

/-! ### Saves (R445, R447) -/

/-- Why a save or restore does not start, or 0. -/
def State.ckStatus (s : State) (d : List Byte) (save : Bool) (step : W64) : Nat :=
  if !ckWf d then 0x45
  else if s.coll.checkpoints.any (fun k => k.group == ckGroup d) then 0x46
  else if save && decide (step.toNat < max (s.slotRank d 0) (s.slotRank d 1)) then 0x48
  else 0

/-- An item with its header written at its storing member. -/
def State.putItem (s : State) (d : List Byte) (slot m : Nat) (step : W64) (item : List Byte) : State :=
  (s.putKey (ckKey d m slot 64) (itemHeader step m item)).putKey (ckKey d m slot 128) item

/-- A save or a restore begins: it asks for the lines that it reads and writes at the memory ports, as the chiplet (R63, R64). -/
def State.startCk (s : State) (tenant : Nat) (d : List Byte) (step : W64) (slot : Nat) (restore : Bool) (lines : List Nat)
    (packet : Option (Nat × BitVec 32)) : State :=
  let n := s.fresh
  let k : Checkpoint :=
    { id := n.1, group := ckGroup d, tenant := tenant, desc := d, step := step, slot := slot, packet := packet, failed := false, restore := restore,
      written := false }
  (n.2.modColl (fun c => { c with checkpoints := c.checkpoints ++ [k] })).afterPorts 16 lines (.checkpointReadback n.1)

/-- A save begins: its target slot is that of the older cairn (R445). -/
def State.startSave (s : State) (tenant : Nat) (d : List Byte) (step : W64) (packet : Option (Nat × BitVec 32)) : State :=
  let slot := if s.slotRank d 1 < s.slotRank d 0 then 1 else 0
  s.startCk tenant d step slot false (s.classLines tenant d .read ++ slotLines d slot) packet

/-- Steps 1 to 3 of a save: the target slot's cairns are zeroed, shards and parity are written with their headers, and the readback is asked for. A class
that cannot be read fails the save (R445, R447). DESIGN CHOICE, unsafe: log entry 63. -/
def State.saveItems (s : State) (k : Checkpoint) : State :=
  let d := k.desc
  let s1 := (ckMembers d).foldl (fun acc m => acc.putKey (ckKey d m k.slot 0) (copies 64 0#8)) s
  let shards := (upTo (ckData d)).map (fun i => s.shardOf k.tenant d i)
  let found := shards.map (fun x => x.getD [])
  let s2 := (upTo (ckData d)).foldl (fun acc i => acc.putItem d k.slot (i + 1) k.step (nth [] found i)) s1
  let s3 := s2.putItem d k.slot 0 k.step (found.foldl xorBytes [])
  (s3.modColl (fun c => { c with
    checkpoints := listMod (fun x => x.id == k.id) (fun x => { x with written := true, failed := x.failed || shards.any (·.isNone) }) c.checkpoints })).afterPorts
      16 (slotLines d k.slot) (.checkpointReadback k.id)

/-- The DIGEST of the item stored at a member, if its header reads back with the step, zeros where R444 has them (R8), and the right digest. -/
def State.itemDigest (s : State) (d : List Byte) (slot m : Nat) (step : W64) : Option (List Byte) :=
  let h := readBytes s.mem (ckKey d m slot 64) 64
  let item := readBytes s.mem (ckKey d m slot 128) (shardLen d)
  if natAt h 0 8 == step.toNat && natAt h 8 1 == m && zeroAt h 9 7 && zeroAt h 40 24 && natAt h 16 8 == shardLen d && octets h 24 16 == hash128 item then some (hash128 item) else none

/-- Step 4 of a save (R445): only when every header reads back, and no member has failed, does the home write the cairn on every member; the packet ends
with the status of R447. -/
def State.saveEnds (s : State) (k : Checkpoint) : State :=
  let d := k.desc
  let ds := (ckMembers d).map (fun m => s.itemDigest d k.slot m k.step)
  let ok := !k.failed && ds.all (·.isSome) && (ckMembers d).all (fun m => !s.memberDown (ckPkg d m) (ckDie d m))
  let s1 := if ok then
      (ckMembers d).foldl (fun acc m => acc.putKey (ckKey d m k.slot 0) (cairnOf d k.step k.slot (ds.map (fun x => x.getD [])))) s
    else s
  match k.packet with
  | some p => s1.finishPacket p.1 p.2 (if ok then 0 else 0x4D) none
  | none => s1

/-- The descriptor that a packet names, in the queue's address space. -/
def State.packetDesc (s : State) (q : Nat) (a : W64) : Option (List Byte) :=
  let x := s.queue q
  let root := (s.rootsOf x.tenant x.asid).1
  match if addrSpace a ≠ 0 ∨ a.toNat % 64 ≠ 0 then none else s.readLines x.tenant x.asid root 1 a with
  | none => none
  | some h =>
    let n := 64 + 32 * min 16 (natAt h 3 1)
    (s.readLines x.tenant x.asid root (linesOf n) a).map (fun b => (cut n b).1)

/-- PACKET_CHECKPOINT_SAVE (R445, R447) -/
def execPacketCheckpointSave (queue : QueueId) (seq : BitVec 32) (s : State) : Host.Outcome State Fault Refusal :=
  let q := queue.val
  match s.packet q seq with
  | none => .next s
  | some p =>
    match s.packetDesc q (pw p.words 1) with
    | none => .next (s.finishPacket q seq 0x36 none)
    | some d =>
      let st := s.ckStatus d true (pw p.words 2)
      .next (if st ≠ 0 then s.finishPacket q seq st none else s.startSave (s.queue q).tenant d (pw p.words 2) (some (q, seq)))

/-! ### Restores (R448) -/

/-- The data shards of a slot, one rebuilt from the parity at most: none where the slot does not qualify. Where the cairn's stripe map is not that of the
descriptor, a member whose die has no copy of the cairn is one that differs, and its item is missing (R448). DESIGN CHOICE, unsafe: log entry 63. -/
def State.slotShards (s : State) (d : List Byte) (slot : Nat) : Option (List (List Byte) × List Byte) :=
  match s.slotCairn d slot with
  | none => none
  | some c =>
    let step := BitVec.ofNat 64 (natAt c 0 8)
    let mapped := octets c 0x18 16 == stripeHash d
    let alive (m : Nat) : Bool :=
      (s.surviving d).contains m && (s.itemDigest d slot m step).isSome && (mapped || s.cairnAt d m slot == some c)
    let item (m : Nat) : List Byte := readBytes s.mem (ckKey d m slot 128) (shardLen d)
    let lost := (upTo (ckData d)).filter (fun i => !alive (i + 1))
    if !alive 0 ∨ 1 < lost.length then none
    else
      let shards := (upTo (ckData d)).map (fun i =>
        if lost.contains i then ((upTo (ckData d)).filter (· != i)).foldl (fun acc j => xorBytes acc (item (j + 1))) (item 0) else item (i + 1))
      let digests := hash128 (item 0) :: shards.map hash128
      if hash128 digests.flatten = octets c 0x28 16 then some (shards, c) else none

/-- Pieces of a shard: its classes in their stored forms. -/
def classParts (d : List Byte) (shard : List Byte) : List (List Byte) := (cuts ((upTo (ckClasses d)).map (fun k => storedLen (ckForm d k) (ckLen d k))) shard).1

/-- Bytes written over a data member's state, line by line; none where an address faults. -/
def State.putClass (s : State) (tenant : Nat) (d : List Byte) (m : Nat) : Nat → Nat → List Byte → Option State
  | 0, _, _ => some s
  | n + 1, a, b => match s.memberByte tenant d m a .write with
    | none => none
    | some k => (s.putKey k (cut 64 b).1).putClass tenant d m n (a + 64) (cut 64 b).2

/-- A data member's classes written back at SRC; none where an address faults. -/
def State.writeClasses (s : State) (tenant : Nat) (d : List Byte) (m : Nat) (shard : List Byte) : Option State :=
  let parts := classParts d shard
  (upTo (ckClasses d)).foldl (fun acc k =>
    match acc with
    | none => none
    | some t => t.putClass tenant d m (ckLen d k / 64) (ckSrc d k) (decodeClass (ckForm d k) (nth [] parts k))) (some s)

/-- A restore (R448): the qualifying slot with the higher STEP, else the other; none gives 0x56. A data member that is down takes no state back: 0x4D. Word 1
of the record is the restored STEP (R447). -/
def State.restoreEnds (s : State) (k : Checkpoint) : State :=
  let d := k.desc
  let finish (t : State) (st : Nat) (w : Option W64) : State := match k.packet with
    | some p => t.finishPacket p.1 p.2 st w
    | none => t
  let first := if s.slotRank d 0 < s.slotRank d 1 then 1 else 0
  match (s.slotShards d first).or (s.slotShards d (1 - first)) with
  | none => finish s 0x56 none
  | some x =>
    if (upTo (ckData d)).any (fun m => s.memberDown (ckPkg d m) (ckDie d m)) then finish s 0x4D none
    else
      match (upTo (ckData d)).foldl (fun acc i =>
        match acc with
        | none => none
        | some t => t.writeClasses k.tenant d i (nth [] x.1 i)) (some s) with
      | none => finish s 0x36 none
      | some t => finish t (if natAt x.2 0x3D 1 % 2 = 1 then 0x55 else 0) (some (BitVec.ofNat 64 (natAt x.2 0 8)))

/-- CHECKPOINT_READBACK (R445, R448): the accesses of a save or a restore have started: a save writes its items, and at the second time its cairn; a restore
writes the state back -/
def execCheckpointReadback (ck : Nat) (s : State) : Host.Outcome State Fault Refusal :=
  match s.coll.checkpoints.find? (fun k => k.id == ck) with
  | none => .next s
  | some k =>
    let gone := s.modColl (fun c => { c with checkpoints := c.checkpoints.filter (fun x => x.id != ck) })
    .next (if k.restore then gone.restoreEnds k else if k.written then gone.saveEnds k else s.saveItems k)

/-- PACKET_CHECKPOINT_RESTORE (R447, R448): it is in progress until its last access -/
def execPacketCheckpointRestore (queue : QueueId) (seq : BitVec 32) (s : State) : Host.Outcome State Fault Refusal :=
  let q := queue.val
  match s.packet q seq with
  | none => .next s
  | some p =>
    match s.packetDesc q (pw p.words 1) with
    | none => .next (s.finishPacket q seq 0x36 none)
    | some d =>
      let st := s.ckStatus d false 0#64
      let x := s.queue q
      .next (if st ≠ 0 then s.finishPacket q seq st none
        else s.startCk x.tenant d 0#64 0 true (slotLines d 0 ++ slotLines d 1 ++ s.classLines x.tenant d .write) (some (q, seq)))

/-! ### Service at a home (R27, R87, R155) -/

/-- The value of a far load: extended as `ld` extends it. -/
def farValue (size : Nat) (sx : Bool) (b : List Byte) : W64 :=
  if sx then BitVec.ofInt 64 (signedOf (8 * 2 ^ size) (leNat b)) else BitVec.ofNat 64 (leNat b)

/-- A far store performs at its home: at the host after the posted writes sent before it (R451). -/
def State.serveStore (s : State) (core : Nat) (f : FarOp) (k : Nat) (b : List Byte) : State :=
  if s.postedWaits (f.id, 0) then s.schedule (s.cycle + 1) 6 (.farAccessHomeService (coreId core) f.id)
  else
    let s1 : State := { s.dropPosted (f.id, 0) with mem := writeBytes s.mem k b }
    (s1.overwriteKey k b.length).farAnswer core f.id 0#64

/-- A far load or store performed at its home; a `ckpt` starts its save (R155, R299, R447). Data of an uncorrectable word is a free value: the spec
states none. -/
def State.serveFar (s : State) (core : Nat) (f : FarOp) : State :=
  match f.kind with
  | .ckpt =>
    if f.desc.length < f.descNeed then s.descLine core f
    else
      let d := (cut f.descNeed f.desc).1
      let st := s.ckStatus d true f.data
      (if st = 0 then s.startSave (s.tenantOf core) d f.data none else s).farAnswer core f.id (BitVec.ofNat 64 st)
  | _ =>
    match s.farHome core f with
    | .inl c => (s.dropPosted (f.id, 0)).farFault core f.id c
    | .inr k =>
      match f.kind with
      | .load size sx =>
        if s.keyBad k then (s.useFree (coreAgent core)).farAnswer core f.id (Config.freeWord (s.freeIndex (coreAgent core)))
        else s.farAnswer core f.id (farValue size sx (readBytes s.mem k (2 ^ size)))
      | .store size => s.serveStore core f k (leBytes (2 ^ size) f.data.toNat)
      | _ => s

/-- The source line of an engine at its memory port: its bytes, or a fault code, on their way back (R27, R55). -/
def State.serveLine (s : State) (w : PortWait) : State :=
  match s.xfer w.xferRope w.farId with
  | none => s
  | some (eng, y) =>
    let c := s.partitionCode w.tenant w.phys
    let code := if c ≠ 0 then c else if s.hbmLineBad w.phys then 8 else 0
    (s.lineServed w.xferRope eng w.farId w.line (readBytes s.mem (keyHbm Config.ownPackage w.phys) 64) code).scheduleFor (coreAgent y.core) 0
      (.ceOffcoreReadReturn (ropeId w.xferRope) w.farId w.line)

/-- FAR_ACCESS_HOME_SERVICE (R27, R87, R155): a far operation of the core, or a line of an engine or a chiplet that its home serves; one of host memory
follows the posted writes sent before it (R451) -/
def execFarAccessHomeService (core : CoreId) (id : Nat) (s : State) : Host.Outcome State Fault Refusal :=
  match (s.core core.val).farOp id with
  | some f => .next ((s.dropPortWait (fun w => w.what == 0 && w.farId == id)).serveFar core.val f)
  | none =>
    match (s.dies.flatMap (fun d => d.2.portWaits)).find? (fun w => w.id == id && (w.what == 1 || w.what == 4 || w.what == 5) && w.started) with
    | some w =>
      let t := s.dropPortWait (fun x => x.id == id)
      .next (if w.what = 1 then t.serveLine w
        else if w.what = 5 && (hostByte w.key).isSome && !s.host.posted.isEmpty then s.schedule (s.cycle + 1) 0 (.farAccessHomeService core id)
        else t.serveChip w)
    | none => .next (s.dropPosted (id, 0))

end Sys2Proof.Machine
end

