-- ==== Sys2Proof/Machine/Launch.lean ====
section
/-!
DEFINITION. Launches (R169, R170, R176, R181–R187, R403, R411): the broadcast stream, placement and victims, what the loader writes before a launch's
first bundle, retirement and pre-emption reports, and the restore of saved contexts.
-/

namespace Sys2Proof.Machine

/-! ### Distances and bindings (R169, R170) -/

/-- Whether a die may run launches: it has left reset, its wipe is complete, and it has not tripped (R449, R452, R457). -/
def Die.up (d : Die) (now : Nat) : Bool := !d.inReset && !d.tripped && decide (d.readyAt ≤ now)

/-- The first legal binding of a launch with the cores that `free` names free (R170, R182). -/
def State.findBinding (s : State) (l : Launch) (o : BuzilObject) (g : GraphRec) (free : Nat → Bool) : Option (List Nat) :=
  let own := (s.partition l.tenant).cores
  let coreOk (c : Nat) : Bool :=
    own.contains c && free c && (s.die (dieOf c)).up s.cycle && (s.imageFor o l.kernel l.ncore c).isSome
  g.bindFrom (fun i r => (g.positions i).all (fun k => coreOk (4 * r + k))) g.pos.length []

/-! ### What the loader writes (R176, R253, R357, R403) -/

/-- A bundle of an image: of its body, or of the expansion of a compressed one. -/
def imageBundle (o : BuzilObject) (i : Image) (k : Nat) : List Byte := octets (tblGet i.body i.index o.expanded) (64 * k) 64
/-- TIME of a bundle (R106). -/
def bundleTime (b : List Byte) : Nat := field (natAt b 0 4) 12 12

/-- An image that a core takes: where it is a translation that the loader does not hold yet, it holds it from here on, and its bundles are mapped as those
of a native image are at the upload (R401, R419). -/
def State.takeImage (s : State) (l : Launch) (o : BuzilObject) (p : Option TransKey × Image) : State :=
  match p.1 with
  | none => s
  | some t =>
    if s.disp.cache.contains t then s
    else (s.cacheImage p.1).mapImage l.tenant (imageIb (objTag o.bytes) p.2.index) (octets p.2.body 0 (64 * p.2.nbundle))

/-- What a core holds of a launch that has been placed on it. -/
def State.coreLaunch (s : State) (l : Launch) (o : BuzilObject) (core lcore : Nat) (p : Option TransKey × Image) : CoreLaunch :=
  let i := p.2
  { launch := l.id, lcore := lcore, ncore := l.ncore, tenant := l.tenant, objHash := objTag o.bytes, kernel := l.kernel, section_ := i.index,
    ib := imageIb (objTag o.bytes) i.index, mapVersion := ((s.die (dieOf core)).mapAt s.cycle).version, imageMode := BitVec.ofNat 1 i.mode,
    checkDue := true, firmwareTrap := natAt i.launch 8 4 == 0xFFFFFFFF, trans := p.1 }

/-- The trap vector of an image (R403). -/
def trapVector (i : Image) (ib : BitVec 48) : W64 :=
  if natAt i.launch 8 4 = 0xFFFFFFFF then 0#64 else pcWord (bundleAddr ib (natAt i.launch 8 4))

/-- A core as the loader leaves it for a launch or a restored context: its control registers, no rollback and no `mfsel` of an earlier launch, and nothing
of it in flight (R255, R324, R381, R403). Units that a context used here before it left stay marked as used when it comes back to the same core (R317,
R381). A `DISPMODE` write by software takes effect here (R164). -/
def Core.load (c : Core) (x : CoreLaunch) (i : Image) (roots : W64 × W64) (ctx : W64) : Core :=
  let mode := c.dispNext.getD (BitVec.ofNat 64 i.mode)
  { c.csrSetAll [(0x044, trapVector i x.ib), (0x045, BitVec.ofNat 64 (natAt i.launch 0x10 4)), (0x100, roots.1), (0x101, roots.2), (0x102, mode),
      (0x103, 0#64), (0x104, ctx), (0x006, 0#64)] with
    seq := { Sequencer.reset with pc := x.ib }, inflight := c.inflight.filter (fun y => !y.exposed), td := .reset, far := { FarQueue.reset with nextSeq := c.far.nextSeq }, belay := .reset,
    code := { c.code with fetches := [] }, frame := none, replay := none, owed := [], owedFpe := false, owedAt := 0, save := none, slip := none,
    test := none, launch := some x, dispNext := none, evacuate := false, leaving := false, fpRow := none,
    heldXfers := [],
    used := if c.launch.any (fun y => y.launch == x.launch && y.lcore == x.lcore) then c.used else [],
    mx := { c.mx with bind := none } }

/-- A launch claims a core. -/
def State.claim (s : State) (l : Launch) (o : BuzilObject) (core lcore : Nat) (p : Option TransKey × Image) : State :=
  let ctx := BitVec.ofNat 64 ((Config.contextPage (l.id * 2048 + lcore)).toNat * 4096)
  s.modCore core (fun c => c.load (s.coreLaunch l o core lcore p) p.2 (s.rootsOf l.tenant (s.queue l.queue).asid) ctx)

/-- Bring a block of the running image in, locked: a block whose address faults is dropped and FAULT is set (R357). -/
def State.loadLocked (s : State) (core : Nat) (addr : BitVec 48) : State :=
  let c := s.core core
  let root := c.csrGet 0x101
  let fault := s.setCore core (c.csrSet 0x00A (c.csrGet 0x00A ||| 0x20000#64))
  match c.block addr with
  | some b => s.setCore core (c.insertBlock { b with locked := true })
  | none =>
    match s.walk Config.ownPackage true root addr.toNat with
    | .fault _ => fault
    | .page vb _ pb _ _ _ =>
      let phys := pb + (addr.toNat - vb)
      if s.blockCode (s.tenantOf core) phys ≠ 0 then fault
      else
        s.setCore core (c.insertBlock
          { addr := addr, asid := rootAsid root, objHash := c.imageTag.1, section_ := c.imageTag.2,
            bytes := readBytes s.mem (keyHbm Config.ownPackage phys) 1024, locked := true, lastIssue := s.cycle })

/-- Lock blocks as `ilock` does: beyond 128 of the image nothing is locked and OVER is set. -/
def State.lockBlocks (s : State) (core : Nat) (blocks : List (BitVec 48)) : State :=
  let c := s.core core
  if 128 < (c.lockAddrs ++ blocks.filter (fun x => !c.lockAddrs.contains x)).length then
    s.setCore core (c.csrSet 0x00A (c.csrGet 0x00A ||| 0x10000#64))
  else blocks.foldl (fun acc x => acc.loadLocked core x) s

/-- The lock list of an image (R401, R403). -/
def State.applyLocks (s : State) (core : Nat) (i : Image) (ib : BitVec 48) : State :=
  (upTo i.nlock).foldl (fun acc k =>
    acc.lockBlocks core (rangeBlocks (bundleAddr ib (natAt i.locks (8 * k) 4)).toNat (natAt i.locks (8 * k + 4) 4))) s

/-- The format table that an image names, or all-zero entries (R253, R403). -/
def imageFormats (o : BuzilObject) (i : Image) : Tbl W64 :=
  let n := natAt i.launch 0xD 1
  if n = 0xFF then []
  else
    let t := octets ((objSection o.bytes 5).getD []) (512 * n) 512
    tblPutAll 0#64 ((upTo 64).map (fun k => (k, BitVec.ofNat 64 (natAt t (8 * k) 8)))) []

/-- Registers at a launch's first bundle (R176). R176 does not name k0–k15: they read 0 too. DESIGN CHOICE, unsafe: log entry 65. -/
def launchRegs (l : Launch) (lcore : Nat) : RegFile :=
  RegFile.reset.writeAll ((upTo 4).map (fun k => RegWrite.s (k + 1) (nth 0#64 l.args k)) ++
    [.s 5 (BitVec.ofNat 64 lcore), .s 6 (BitVec.ofNat 64 l.ncore)])

/-- The launch's first bundle: that of resume point 0, or the first of an image that has none (R404). -/
def Image.firstBundle (i : Image) : Nat :=
  match i.resumes.find? (fun e => e.desc.kind == 0) with
  | some e => e.bundle
  | none => 0

/-- A core begins a launch at a cycle (R111, R176, R403). DESIGN CHOICE, unsafe: log entry 65. -/
def State.startCore (s : State) (l : Launch) (o : BuzilObject) (core lcore at_ : Nat) (p : Option TransKey × Image) : State :=
  let i := p.2
  let s1 := s.claim l o core lcore p
  let ib := imageIb (objTag o.bytes) i.index
  (s1.modCore core (fun c =>
    { c.csrSetAll [(0x001, 0#64), (0x002, 0#64), (0x003, BitVec.ofNat 64 (natAt i.launch 0 8)), (0x004, 0#64),
        (0x007, BitVec.ofNat 64 (natAt i.launch 0xC 1))] with
      regs := launchRegs l lcore,
      mx := { c.mx with fmt := imageFormats o i, queue := [], pendingV := [] },
      seq := { c.seq with run := .running, pc := bundleAddr ib i.firstBundle, nextIssue := at_ },
      td := { c.td with base := at_ } })).applyLocks core i ib

/-- The slot tables that an image names: a pair of 1,088 and 2,048 bytes (R396, R403). -/
def imageTables (o : BuzilObject) (i : Image) : Option (List Byte × List Byte) :=
  let n := natAt i.launch 0xE 2
  if n = 0xFFFF then none
  else
    let t := (objSection o.bytes 6).getD []
    some (octets t (3136 * n) 1040, octets t (3136 * n + 1088) 2048)

/-- The named tables are installed on each rope and each die of a launch: those of the image of its first core there. -/
def State.loadTables (s : State) (l : Launch) (o : BuzilObject) (cores : List Nat) : State :=
  let table (c : Nat) : Option (List Byte × List Byte) := (s.imageFor o l.kernel l.ncore c).bind (imageTables o)
  let firsts (f : Nat → Nat) : List (Nat × Nat) := cores.foldl (fun acc c => if acc.any (fun e => e.1 == f c) then acc else acc ++ [(f c, c)]) []
  let s1 := (firsts ropeOf).foldl (fun acc e => match table e.2 with
    | some t => acc.installSlots e.1 l.tenant t.1
    | none => acc) s
  (firsts dieOf).foldl (fun acc e => match table e.2 with
    | some t => acc.installPorts e.1 l.tenant t.2
    | none => acc) s1

/-- A launch is bound: its cores start, or, where it has resume records, wait for their restore; its queue's next launch may be chosen from here on (R180,
R182, R183, R187). -/
def State.bindLaunch (s : State) (l : Launch) (o : BuzilObject) (g : GraphRec) (ropes : List Nat) : State :=
  let cs := g.cores ropes
  let s1 := ((s.modLaunch l.id (fun x => { x with phase := .running, ropes := ropes })).loadTables l o (cs.map (·.2))).scheduleFree 6 .launchSelection
  let place (acc : State) (e : Nat × Nat) (f : State → Option TransKey × Image → State) : State :=
    match acc.imageChoice o l.kernel l.ncore e.2 with
    | some p => f (acc.takeImage l o p) p
    | none => acc
  if l.records.isEmpty then
    cs.foldl (fun acc e => place acc e (fun t p =>
      let d := t.freshDelay (coreAgent e.2)
      d.2.startCore l o e.2 e.1 (nextSwap s.cycle + d.1) p)) s1
  else
    (cs.foldl (fun acc e => place acc e (fun t p =>
      (t.claim l o e.2 e.1 p).modCore e.2 (fun c => { c with seq := { c.seq with run := .waiting } }))) s1).scheduleFree 6 (.contextRestore l.id)

/-! ### Placement and victims (R182, R183) -/

/-- Insertion by a key, and a list in ascending order of it. -/
def insertBy {α : Type} (key : α → Nat) (a : α) : List α → List α
  | [] => [a]
  | b :: t => if key a < key b then a :: b :: t else b :: insertBy key a t
def sortBy {α : Type} (key : α → Nat) : List α → List α
  | [] => []
  | a :: t => insertBy key a (sortBy key t)

/-- A launch's place in the stream. -/
def State.streamPos (s : State) (id : Nat) : Nat := indexOf (StreamKind.launch id) (s.disp.stream.map (·.kind))

/-- The victims of a launch: in ascending priority, latest stream position first, until a binding exists; launches that are leaving count as
gone (R183). `try_` says whether one exists once the given launches are gone. DESIGN CHOICE, unsafe: log entry 66. -/
def takeVictims (try_ : List Nat → Bool) : List Nat → List Nat → List Nat → Option (List Nat)
  | [], gone, taken => if try_ gone then some taken else none
  | v :: rest, gone, taken => if try_ gone then some taken else takeVictims try_ rest (gone ++ [v]) (taken ++ [v])

/-- Victims are asked to leave. -/
def State.requestVictims (s : State) (l : Launch) (o : BuzilObject) (g : GraphRec) : State :=
  let gone := (s.disp.launches.filter (fun x => x.phase == .preempting)).map (·.id)
  let low := s.disp.launches.filter (fun x => x.phase == .running && x.tenant == l.tenant && decide (x.prio < l.prio))
  let order := sortBy (fun x : Launch => x.prio * (s.disp.stream.length + 1) + (s.disp.stream.length - s.streamPos x.id)) low
  let free (gone : List Nat) (c : Nat) : Bool := match (s.core c).launch with
    | none => true
    | some x => gone.contains x.launch
  match takeVictims (fun gone => (s.findBinding l o g (free gone)).isSome) (order.map (·.id)) gone [] with
  | none => s
  | some vs => vs.foldl State.preempt s

/-- Whether a launch of the same queue that comes earlier in the stream is still unplaced: the launch is not considered then (R180, R182). -/
def State.queuedBehind (s : State) (l : Launch) : Bool :=
  s.disp.launches.any (fun x => x.queue == l.queue && x.phase == .unplaced && decide (s.streamPos x.id < s.streamPos l.id))

/-- Place one launch, if it has a legal binding; one for whose cores translation fails completes with status 0x33 (R410). -/
def State.placeOne (s : State) (id : Nat) : State :=
  match s.launch id with
  | none => s
  | some l =>
    match s.launchObject l with
    | none => s
    | some o =>
      match objKernel o.bytes l.kernel with
      | none => s
      | some g =>
        if s.queuedBehind l then s
        else match s.findBinding l o g (fun c => (s.core c).launch.isNone) with
          | some ropes => s.bindLaunch l o g ropes
          | none =>
            if s.imageless l o g then
              ({ s with disp := { s.disp with launches := s.disp.launches.filter (fun x => x.id != id) } } : State).finishPacket l.queue l.seq 0x33 none
            else s.requestVictims l o g

/-- Placement (R182): the unplaced launches in stream order, while tenants run (R454). R182 and R173 do not say so, but those of a queue that is switched out, or is being switched
out, wait, and a switch-in runs the placement again. DESIGN CHOICE, unsafe: log entry 66. -/
def State.placement (s : State) : State :=
  let ready := s.disp.launches.filter (fun l => l.phase == .unplaced && (s.queue l.queue).res && !(s.queue l.queue).leaving)
  if !s.lifeRuns then s else ((sortBy (fun l : Launch => s.streamPos l.id) ready).map (·.id)).foldl State.placeOne s

/-! ### The stream (R181) -/

/-- A command processor whose digest differs stops, and the stream halts. -/
def State.distributionFault (s : State) (bad : List Nat) : State :=
  bad.foldl (fun acc d => acc.modDie d (fun x => { x with stopped := true })) { s with disp := { s.disp with halted := true } }

/-- Apply a record in stream order, then run placement: a record waits until those before it have been applied. -/
def State.applyRecord (s : State) (id : Nat) (again : Instr) (body : StreamKind → Option (State → State)) : State :=
  if s.disp.halted || id < s.disp.applied then s
  else
    match s.disp.stream.drop id with
    | [] => s
    | r :: _ =>
      match body r.kind with
      | none => s
      | some f =>
        if s.disp.applied < id then s.scheduleFree 6 again
        else
          let bad := (upTo 32).filter (fun d => (s.die d).digest != r.digest)
          if bad.isEmpty then (f { s with disp := { s.disp with applied := id + 1 } }).placement else s.distributionFault bad

/-- LAUNCH_RECORD (R181, R182) -/
def execLaunchRecord (id : Nat) (s : State) : Host.Outcome State Fault Refusal :=
  .next (s.applyRecord id (.launchRecord id) (fun k => match k with
    | .launch l => some (fun t => t.modLaunch l (fun x => { x with phase := .unplaced }))
    | _ => none))

/-- MAP_RECORD (R181): the command processors adopt the new package digest -/
def execMapRecord (id : Nat) (s : State) : Host.Outcome State Fault Refusal :=
  .next (s.applyRecord id (.mapRecord id) (fun k => match k with
    | .map d => some (fun t => (upTo 32).foldl (fun acc i => acc.modDie i (fun x => { x with digest := d })) t)
    | _ => none))

/-- A core is freed: blocks of images that its class change has left behind go (R380). -/
def State.freeCore (s : State) (core : Nat) : State :=
  let k := core % 64
  let old := s.bindMap core
  let new := (s.die (dieOf core)).mapAt s.cycle
  let s1 := if classKey (old.core k) (old.rope (k / 4)) = classKey (new.core k) (new.rope (k / 4)) then s else s.dropStale core
  s1.modCore core (fun c => { c with launch := none, frame := none, used := [], seq := { c.seq with run := .idle } })

/-- The cores of a launch on a die are free. -/
def State.freeDie (s : State) (launch die : Nat) : State := (s.coresOn launch die).foldl State.freeCore s

/-- Once every die of a launch has its record: a launch with no saved context has completed; any other is unplaced again (R183, R185). -/
def State.launchLeft (s : State) (launch : Nat) : State :=
  match s.launch launch with
  | none => s
  | some l =>
    let dies := diesOf (l.ropes.map (4 * ·))
    let s1 :=
      if !dies.all (fun d => l.retiredDies.contains d || l.savedDies.contains d) then s
      else if l.status = 0 ∧ !l.savedDies.isEmpty then
        s.modLaunch launch (fun x => { x with phase := .unplaced, ropes := [], retiredDies := [], savedDies := [] })
      else
        ({ s with disp := { s.disp with launches := s.disp.launches.filter (fun x => x.id != launch) } } : State).finishPacket l.queue l.seq l.status none
    s1.finishSwitchOut l.queue

/-- RETIREMENT_RECORD (R181, R185) -/
def execRetirementRecord (id : Nat) (s : State) : Host.Outcome State Fault Refusal :=
  .next (s.applyRecord id (.retirementRecord id) (fun k => match k with
    | .retirement l d => some (fun t => ((t.freeDie l d).modLaunch l (fun x => { x with retiredDies := x.retiredDies ++ [d] })).launchLeft l)
    | _ => none))

/-- PREEMPTION_RECORD (R181, R183) -/
def execPreemptionRecord (id : Nat) (s : State) : Host.Outcome State Fault Refusal :=
  .next (s.applyRecord id (.preemptionRecord id) (fun k => match k with
    | .preemption l d => some (fun t => ((t.freeDie l d).modLaunch l (fun x => { x with savedDies := x.savedDies ++ [d] })).launchLeft l)
    | _ => none))

/-- The event that applies a record. -/
def recordEvent (id : Nat) (r : StreamRec) : Instr :=
  match r.kind with
  | .launch _ => .launchRecord id
  | .retirement _ _ => .retirementRecord id
  | .preemption _ _ => .preemptionRecord id
  | .map _ => .mapRecord id

/-- STREAM_RECOVERY (R180, R181): firmware brings every command processor to the digest of the next record, and the stream and the choice of launches go
on -/
def execStreamRecovery (s : State) : Host.Outcome State Fault Refusal :=
  let left := s.disp.stream.drop s.disp.applied
  let digest := match left with
    | r :: _ => r.digest
    | [] => s.disp.digest
  let s1 := (upTo 32).foldl (fun acc d => acc.modDie d (fun x => { x with stopped := false, digest := digest }))
    ({ s with disp := { s.disp with halted := false } } : State)
  .next (((upTo left.length).foldl (fun acc i =>
    match left.drop i with
    | r :: _ => acc.scheduleFree 6 (recordEvent (s.disp.applied + i) r)
    | [] => acc) s1).scheduleFree 6 .launchSelection)

/-! ### Retirement and pre-emption reports (R183, R185) -/

/-- What a core that has issued `end` still waits for (R185). DESIGN CHOICE, unsafe: log entry 67. -/
def State.retireWaits (s : State) (core : Nat) : Bool :=
  let c := s.core core
  s.exposedLeft core || !c.mx.queue.isEmpty || c.farWaits || c.far.fault.isSome || !c.owed.isEmpty || c.owedFpe || (s.rope (ropeOf core)).cefOwed.contains (posOf core) ||
    (s.rope (ropeOf core)).engines.any (fun e => e.2.active.any (fun x => x.core == core) || e.2.tsb.any (fun x => x.core == core))

/-- The trap of a core that waits to retire with a fault to report: of its far operations, or of the engines (R38, R294). -/
def State.retireFault (s : State) (core : Nat) : Option State :=
  match (s.core core).far.fault with
  | some r => some ((s.modCore core Core.farReported).retireTrap core r.records)
  | none =>
    let r := s.rope (ropeOf core)
    if r.cefOwed.contains (posOf core) then some ((s.modRope (ropeOf core) (fun x => x.cefTaken core)).retireTrap core r.cefRecords) else none

/-- CORE_RETIREMENT (R38, R185): the core waits, also while a trap handler runs for it, raises a trap for a fault met meanwhile, and then retires; its
stores still write (R165). Far values held for `eret` land while it waits, for no bundle issues any more (R156). -/
def execCoreRetirement (core : CoreId) (s : State) : Host.Outcome State Fault Refusal :=
  let k := core.val
  let c := s.core k
  let again := s.schedule (s.cycle + 1) 6 (.coreRetirement core)
  match c.frame with
  | some f => .next (if f.retiring && c.seq.run != .halted then again else s)
  | none =>
    if c.seq.run != .retiring then .next s
    else match s.retireFault k with
    | some t => .next (t.schedule (s.cycle + 1) 6 (.coreRetirement core))
    | none =>
    if s.retireWaits k then .next (if s.cycle < c.owedAt then again else again.releaseHeld k)
    else
      let s1 := (s.modCore k (fun x => { x with seq := { x.seq with run := .idle } })).modRope (ropeOf k) (fun r =>
        { r with accs := listMod (fun a => a.core == k) (fun a => { a with orphan := true }) r.accs })
      match c.launch with
      | some l => .next (s1.dieReports k l.launch)
      | none => .next s1

/-- Whether a die has reported a launch and the record has not been applied, or has nothing to report: a core of it has not left. -/
def State.cannotReport (s : State) (die launch : Nat) : Bool :=
  let cs := s.coresOn launch die
  cs.isEmpty || !cs.all (fun c => (s.core c).left) ||
    (s.disp.stream.drop s.disp.applied).any (fun r => r.kind == .retirement launch die || r.kind == .preemption launch die)

/-- RETIREMENT_REPORT (R185): chiplet 0 emits the retirement record of a die -/
def execRetirementReport (die : DieId) (launch : Nat) (s : State) : Host.Outcome State Fault Refusal :=
  .next (if s.cannotReport die.val launch then s else s.emit (.retirement launch die.val))

/-- PREEMPTION_REPORT (R183): chiplet 0 emits the pre-emption record of a die -/
def execPreemptionReport (die : DieId) (launch : Nat) (s : State) : Host.Outcome State Fault Refusal :=
  .next (if s.cannotReport die.val launch then s else s.emit (.preemption launch die.val))

/-- QUEUE_SWITCH_IN (R173): saved contexts may be placed again, and reading goes on at FETCH -/
def execQueueSwitchIn (queue : QueueId) (s : State) : Host.Outcome State Fault Refusal :=
  let q := queue.val
  if (s.queue q).res then .next s else .next (((s.modQueue q (fun x => { x with res := true })).placement).pump q)

/-! ### Restoring contexts (R300, R357, R360, R380, R406, R411) -/

/-- A launch's record at an address, as the loader reads it: the header's line, then LENGTH bytes. -/
def State.readRecord (s : State) (l : Launch) (a : W64) : Option (List Byte) :=
  let asid := (s.queue l.queue).asid
  let root := (s.rootsOf l.tenant asid).1
  match s.readLines l.tenant asid root 1 a with
  | none => none
  | some h => s.readLines l.tenant asid root (natAt h 0x28 4 / 64) a

/-- Whether a record may be restored (R411). -/
def recordOk (o : BuzilObject) (b : List Byte) : Bool :=
  let h := recordHead b
  let ds := objResume o.bytes h.kernel
  recordWf b && h.tag == objTag o.bytes && (objKernel o.bytes h.kernel).isSome && decide (h.rpid < ds.length) &&
    (match ds.find? (fun d => d.rpid == h.rpid) with
      | some d => recordFits b d
      | none => false)

/-- The first cycle at or after `now` that is congruent with `r` modulo 64 (R61). -/
def cycleFrom (now r : Nat) : Nat := now + (r % 64 + 64 - now % 64) % 64

/-- One refill entry: bytes of global memory or of the data section go into the rope's scratchpad or the core's B-store (R406). -/
def State.refill (s : State) (l : Launch) (o : BuzilObject) (core : Nat) (e : List Byte) : State :=
  let dst := BitVec.ofNat 64 (natAt e 0 8)
  let len := natAt e 0x10 4
  let asid := (s.queue l.queue).asid
  let bytes :=
    if natAt e 0x14 4 % 2 = 1 then some (octets ((objSection o.bytes 3).getD []) (natAt e 8 8) len)
    else s.readLines l.tenant asid (s.rootsOf l.tenant asid).1 (len / 64) (BitVec.ofNat 64 (natAt e 8 8))
  match bytes with
  | none => s
  | some b =>
    if addrSpace dst = 1 then
      (upTo (len / 64)).foldl (fun acc k =>
        (acc.linePut (ropeOf core) ((addrOffset dst + 64 * k) % 2 ^ 23) (octets b (64 * k) 64)).getD acc) s
    else
      let off := addrOffset dst
      ({ s with mem := writeBytes s.mem (keyB core off) b } : State).overwrite (fun loc => match loc with
        | .bstore c n => c.val == core && decide (off / 8 ≤ n) && decide (n < (off + len) / 8)
        | _ => false)

/-- A saved transfer is entered again: with its S0, or with the restore cycle + 4 if S0 has passed, which counts in `CELATE`, once for each transfer
(R291, R300). -/
def State.reenter (s : State) (core at_ : Nat) (b : List Byte) : State :=
  let s0 := natAt b 64 8
  let rope := ropeOf core
  let d := { xferDescOf b with root := (s.core core).csrGet 0x100 }
  let handle := if natAt b 72 1 = 1 then some (natAt b 73 1) else none
  let was := natAt b 76 1 == 1
  if s0 < at_ then
    (if was then s else s.modRope rope (fun r => r.lateStart s.cycle)).queueXfer rope core d (at_ + 4) (natAt b 75 1) handle true
  else s.queueXfer rope core d s0 (natAt b 75 1) handle was

/-- The sequencer, registers and units of a core from its record, under an image's resume point (R411). -/
def Core.restore (c : Core) (b : List Byte) (o : BuzilObject) (i : Image) (x : CoreLaunch) (e : ResumeEntry) (m : CoreMap) (at_ : Nat) : Core :=
  let q := recSection b 1
  let v (k : Nat) : W64 := BitVec.ofNat 64 (natAt (recSection b 4) (8 * k) 8)
  let time := bundleTime (imageBundle o i e.bundle)
  { c.csrSetAll [(0x001, v 0), (0x002, v 1), (0x003, v 2), (0x004, v 3), (0x007, v 4), (0x006, v 5 <<< 32)] with
    regs := restoreRegs c.regs b m,
    seq := { c.seq with
      run := .running, pc := bundleAddr x.ib e.bundle, loops := restoreLoops x.ib (q.drop 21) e.loops,
      rets := (e.rets.map (bundleAddr x.ib)).reverse, rrb := BitVec.ofNat 4 (natAt q 2 1), nextIssue := at_, preBoundary := e.desc.kind == 1 },
    td := { c.td with base := at_ - time, loops := restoreLoops x.ib (q.drop 21) e.loops, pre := e.desc.kind == 1 },
    latch := restoreLatch q,
    mx := restoreMatrix (recSection b 5) (recSection b 6),
    xt := restoreXt c.xt (recSection b 7) m at_,
    belay := restoreBelay (recSection b 8) x.ib e (fun k => bundleWord (imageBundle o i k)) at_ }

/-- Handles of open pitches are filled by their core. -/
def State.claimPitches (s : State) (core : Nat) : State :=
  (s.core core).belay.regions.foldl (fun acc g =>
    if g.pitch then acc.modRope (ropeOf core) (fun r => r.setHandle g.hOut { r.handle g.hOut with filler := posOf core + 1 }) else acc) s

/-- The image and resume point under which a record is restored on a core (R410, R411). -/
def State.restorePoint (s : State) (l : Launch) (o : BuzilObject) (core : Nat) (b : List Byte) : Option ((Option TransKey × Image) × ResumeEntry) :=
  let h := recordHead b
  match s.imageChoice o h.kernel l.ncore core with
  | none => none
  | some p => (p.2.resumes.find? (fun e => e.desc.rpid == h.rpid)).map (fun e => (p, e))

/-- The refill entries of the resume point under which a record is restored. -/
def State.refillsOf (s : State) (l : Launch) (o : BuzilObject) (core : Nat) (b : List Byte) : List (List Byte) :=
  match s.restorePoint l o core b with
  | none => []
  | some p => (upTo p.2.nrefp).map (fun k => octets p.1.2.refills (32 * (p.2.ref + k)) 32)

/-- What a record and its resume point give the rope and the B-store: the handles, and the refills (R406, R411). -/
def State.refillContext (s : State) (l : Launch) (o : BuzilObject) (core : Nat) (b : List Byte) : State :=
  match s.restorePoint l o core b with
  | none => s
  | some p =>
    let own (k : Nat) : Bool := s.handleOwned core k
    (s.refillsOf l o core b).foldl (fun acc e => acc.refill l o core e)
      ((s.takeImage l o p.1).modRope (ropeOf core) (fun r => r.restore9 own (recSection b 9)))

/-- A claimed core loaded again for the image it restores under: a request to leave that came meanwhile, and its dispatch mode, stand (R164, R183). -/
def State.reclaim (s : State) (l : Launch) (o : BuzilObject) (core lcore : Nat) (p : Option TransKey × Image) : State :=
  let c := s.core core
  (s.claim l o core lcore p).modCore core (fun x => x.csrSetAll [(0x102, c.csrGet 0x102), (0x103, c.csrGet 0x103)])

/-- One context is restored on its core: it issues its landing bundle at a cycle congruent modulo 64 with SAVECYC (R360). -/
def State.restoreContext (s : State) (l : Launch) (o : BuzilObject) (core : Nat) (x : CoreLaunch) (b : List Byte) : State :=
  let h := recordHead b
  match s.restorePoint l o core b with
  | none => s
  | some (p, e) =>
    let i := p.2
    let d := (s.takeImage l o p).freshDelay (coreAgent core)
    let at_ := cycleFrom (s.cycle + d.1) h.savecyc
    let m := ((s.die (dieOf core)).mapAt s.cycle).core core
    let s1 := d.2.reclaim l o core x.lcore p
    let y := s.coreLaunch l o core x.lcore p
    let s2 := (s1.modCore core (fun c => c.restore b o i y e m at_)).claimPitches core
    let en := recSection b 10
    let s3 := (upTo (en.length / 128)).foldl (fun acc k => acc.reenter core at_ (octets en (128 * k) 128)) s2
    let old := tblGet (translatedSection, []) x.lcore l.locked
    if old.1 = i.index then s3.lockBlocks core old.2 else s3.applyLocks core i y.ib

/-- The records of a launch that its cores restore: physical core, what it holds, and the record's bytes if they can be read. -/
def State.recordsOf (s : State) (l : Launch) : List (Nat × CoreLaunch × Option (List Byte)) :=
  ((s.coresOf l.id).filterMap (fun c => (s.core c).launch.map (fun x => (c, x)))).filterMap (fun e =>
    if l.records.any (fun r => r.1 == e.2.lcore) then some (e.1, e.2, s.readRecord l (tblGet 0#64 e.2.lcore l.records)) else none)

/-- Whether a record that was read may not be restored, or none could be read (R411). -/
def recordBad (o : BuzilObject) (b : Option (List Byte)) : Bool :=
  match b with
  | some b => !recordOk o b
  | none => true

/-- The last step of a restore: every core with a record gets its context, one without a record has ended and is idle, and a die with no other core
reports (R185, R411). -/
def State.startContexts (s : State) (l : Launch) (o : BuzilObject) (recs : List (Nat × CoreLaunch × Option (List Byte))) : State :=
  let s1 := recs.foldl (fun acc e => match e.2.2 with
    | some b => acc.restoreContext l o e.1 e.2.1 b
    | none => acc) s
  let s2 := (s.coresOf l.id).foldl (fun acc c =>
    if (acc.core c).seq.run = .waiting then acc.modCore c (fun x => { x with seq := { x.seq with run := .idle } }) else acc) s1
  let s3 := s2.modLaunch l.id (fun x => { x with records := [], locked := [], refilled := false })
  (diesOf (s.coresOf l.id)).foldl (fun acc d => match acc.coresOn l.id d with
    | c :: _ => acc.dieReports c l.id
    | [] => acc) s3

/-- The lines that the loader reads for a restore: of the records, and of the refills that global memory gives (R63, R406). -/
def State.restoreLines (s : State) (l : Launch) (o : BuzilObject) (recs : List (Nat × CoreLaunch × Option (List Byte))) : List Nat :=
  let asid := (s.queue l.queue).asid
  let root := (s.rootsOf l.tenant asid).1
  let lines (n : Nat) (a : W64) : List Nat := s.lineKeys l.tenant asid root n a .read
  recs.flatMap (fun e =>
    let b := e.2.2.getD []
    lines (max 1 (b.length / 64)) (tblGet 0#64 e.2.1.lcore l.records) ++
      (s.refillsOf l o e.1 b).flatMap (fun r => if natAt r 0x14 4 % 2 = 1 then [] else lines (natAt r 0x10 4 / 64) (BitVec.ofNat 64 (natAt r 8 8))))

/-- CONTEXT_RESTORE (R177, R187, R411): every record of a launch is checked; one refused completes the launch with status 0x3B, and none resumes. The
handles and refills come first, once the ports have started the loader's reads (R63); then the launch's held operations are performed; then its contexts
are on their cores and issue. A launch that has ended meanwhile does not come back, and one on storage that is still wiped waits (R449, R457). -/
def execContextRestore (launch : Nat) (s : State) : Host.Outcome State Fault Refusal :=
  match s.launch launch with
  | none => .next s
  | some l =>
    if l.records.isEmpty || l.ropes.isEmpty || l.status != 0 then .next s
    else if !(diesOf (s.coresOf launch)).all (fun d => (s.die d).up s.cycle) then .next (s.schedule (s.cycle + 1) 6 (.contextRestore launch))
    else match s.launchObject l with
      | none => .next (s.endLaunch launch 0x3B)
      | some o =>
        let recs := s.recordsOf l
        if l.refilled then .next (if recs.any (fun e => recordBad o e.2.2) then s.endLaunch launch 0x3B else s.startContexts l o recs)
        else
          .next (s.afterGrants 16 (s.restoreLines l o recs) (.contextRestore launch) (fun s =>
            if recs.any (fun e => recordBad o e.2.2) then s.endLaunch launch 0x3B
            else
              let s1 := recs.foldl (fun acc e => match e.2.2 with
                | some b => acc.refillContext l o e.1 b
                | none => acc) s
              (s1.modLaunch launch (fun x => { x with refilled := true })).scheduleFree 6 (.heldTriggerPerform launch)))

end Sys2Proof.Machine
end

