-- ==== Sys2Proof/Machine/HostLink.lean ====
section
/-!
DEFINITION. The host link, wipes and bring-up (R20, R172, R449–R464): transactions of both directions, configuration reads, resets and the power-up
map, lifecycle changes, tenant reassignment, quotes, trips and training.
-/

namespace Sys2Proof.Machine

/-! ### The fused defect map (R461) -/

/-- A field of a record of a fused map, of `w` bits, in `n` bytes. -/
def fusedField (die rec k n w : Nat) : List Byte := leBytes n (Config.fusedBits die rec k % 2 ^ w)

/-- A core, rope and HBM channel record of a fused map: its reserved bits are zero. -/
def fusedCore (die k : Nat) : List Byte :=
  fusedField die k 0 1 4 ++ fusedField die k 1 7 54 ++ fusedField die k 2 2 9 ++ fusedField die k 3 2 9 ++ fusedField die k 4 4 32 ++
    fusedField die k 5 24 192 ++ copies 8 0#8
def fusedRope (die k : Nat) : List Byte :=
  fusedField die (64 + k) 0 4 32 ++ fusedField die (64 + k) 1 2 16 ++ fusedField die (64 + k) 2 2 16 ++ copies 8 0#8
def fusedRepair (die k slot : Nat) : List Byte :=
  let x := Config.fusedBits die (80 + k) slot
  leBytes 1 (if x / 64 % 2 = 1 then 128 + x % 64 else 0)
def fusedChannel (die k : Nat) : List Byte := fusedRepair die k 0 ++ fusedRepair die k 1 ++ fusedField die (80 + k) 2 1 1 ++ copies 5 0#8

/-- The fused 4,096-byte defect map of a die (R461). -/
def fusedMap (die : Nat) : List Byte :=
  let b := leBytes 8 0x000000014B46444D ++ leBytes 16 (Config.specimen die).toNat ++ leBytes 1 die ++ [1#8] ++ copies 38 0#8 ++
    (upTo 64).flatMap (fusedCore die) ++ (upTo 16).flatMap (fusedRope die) ++ (upTo 32).flatMap (fusedChannel die) ++ copies 432 0#8
  b ++ hash128 b

/-! ### Transactions (R451) -/

/-- Fields of header word 0. -/
def hdrKind (w : W64) : Nat := bitsNat w 3 0
def hdrLen (w : W64) : Nat := bitsNat w 23 16
def hdrStatus (w : W64) : Nat := bitsNat w 31 24
def hdrQueue (w : W64) : Nat := bitsNat w 41 32
def hdrReserved (w : W64) : Nat := bitsNat w 63 42

/-- Whether the header of a posted write, a read request or a configuration read is well formed: no reserved field, 1 to 4 units, 64-byte aligned. -/
def requestOk (w0 w1 : W64) : Bool :=
  hdrReserved w0 == 0 && hdrQueue w0 == 0 && hdrStatus w0 == 0 && decide (1 ≤ hdrLen w0) && decide (hdrLen w0 ≤ 4) && bitsNat w1 5 0 == 0

/-- The link is up while a module remains (R450). -/
def HostLink.up (h : HostLink) : Bool := h.modules != 0#4

/-- HOST_LINK_TRAINING (R450): the link runs on the modules that trained -/
def execHostLinkTraining (modules : BitVec 4) (s : State) : Host.Outcome State Fault Refusal := .next { s with host := { s.host with modules := modules } }

/-- A message that has reached the host leaves the link. -/
def State.delivered (s : State) (m : HostMsg) : State := { s with host := { s.host with outbox := s.host.outbox.erase m } }

/-- POSTED_WRITE (R101, R451): the units of a write of the host perform at its lines, after those sent before them; one of the device performed when the
link accepted it, and reaches the host after those sent before it. DESIGN CHOICE, unsafe: log entry 70. -/
def execPostedWrite (toDevice : Bool) (w0 : W64) (w1 : W64) (data : List Byte) (s : State) : Host.Outcome State Fault Refusal :=
  let m : HostMsg := { w0 := w0, w1 := w1, data := data }
  if !toDevice then .next (if s.host.outbox.find? (fun x => hdrKind x.w0 == 1) = some m then s.delivered m else s)
  else if !s.host.up || hdrKind w0 != 1 || !requestOk w0 w1 || data.length != 64 * hdrLen w0 then .next s
  else
    let units := (upTo (hdrLen w0)).map (fun k => (w1 + BitVec.ofNat 64 (64 * k), octets data (64 * k) 64))
    let t : State := { s with host := { s.host with inbound := s.host.inbound ++ units } }
    .next (if s.host.inbound.isEmpty then t.inboundNext else t)

/-- The fault code of an access to which the host answers with a status (R37, R451): no such address is a page that is not there, 4; permission or address
fault 5; uncorrectable data 8; malformed 4. DESIGN CHOICE, unsafe: log entry 108. -/
def hostCode (status : Nat) : Nat := if status = 2 then 5 else if status = 3 then 8 else 4

/-- The answer of the host to a read of the device goes to its reader: a far load, a line of an engine, or the command processor (R20, R451). -/
def State.hostAnswer (s : State) (who : HostReader) (status : Nat) (b : List Byte) : State :=
  match who with
  | .far core id => match (s.core core).farOp id with
    | none => s
    | some f =>
      if status ≠ 0 then s.farFault core id (hostCode status)
      else match f.kind with
        | .load size sx => s.farAnswer core id (farValue size sx (octets b (f.phys % 64) (2 ^ size)))
        | _ => s
  | .line rope xfer line => match s.xfer rope xfer with
    | none => s
    | some (eng, x) =>
      (s.lineServed rope eng xfer line b (if status = 0 then 0 else hostCode status)).scheduleFor (coreAgent x.core) 0
        (.ceOffcoreReadReturn (ropeId rope) xfer line)
  | .access id => s.hostStarted id

/-- The answer of the host to the read with a tag, if that is still open. -/
def State.answerTag (s : State) (tag status : Nat) (data : List Byte) : State :=
  match s.host.openReads.find? (fun e => e.1 == tag) with
  | none => s
  | some e => ({ s with host := { s.host with openReads := s.host.openReads.erase e } } : State).hostAnswer e.2 status data

/-- READ_REQUEST (R101, R451): a request of the host is served, unit by unit in ascending order, and answered; one of the device reaches the host, which
answers with what its memory then holds. DESIGN CHOICE, unsafe: log entry 70. -/
def execReadRequest (toDevice : Bool) (w0 : W64) (w1 : W64) (s : State) : Host.Outcome State Fault Refusal :=
  if !toDevice then
    let m : HostMsg := { w0 := w0, w1 := w1, data := [] }
    .next (if s.host.outbox.contains m then
      (s.delivered m).answerTag (hdrTag w0) 0 (readBytes s.mem (keyHost w1.toNat) (64 * hdrLen w0))
    else s)
  else if !s.host.up || hdrKind w0 != 2 then .next s
  else if !requestOk w0 w1 then .next (s.complete w0 (.inl 0x04))
  else
    let n := s.fresh
    let r : HostRead := { id := n.1, w0 := w0, addr := w1, left := hdrLen w0, data := [] }
    .next (({ n.2 with host := { n.2.host with reads := n.2.host.reads ++ [r] } } : State).readNext r)

/-- READ_COMPLETION (R451): the completion of a host request reaches the host; one of a device request goes to the reader that holds its tag, if its length
is that of a success or of an error -/
def execReadCompletion (toDevice : Bool) (w0 : W64) (w1 : W64) (data : List Byte) (s : State) : Host.Outcome State Fault Refusal :=
  if !toDevice then .next (s.delivered { w0 := w0, w1 := w1, data := data })
  else if hdrKind w0 != 3 || !(if hdrStatus w0 = 0 then hdrLen w0 == 1 && data.length == 64 else hdrLen w0 == 0 && data.isEmpty) then .next s
  else .next (s.answerTag (hdrTag w0) (hdrStatus w0) data)

/-- QUEUE_DOORBELL (R172, R451): TAIL of the named queue -/
def execQueueDoorbell (w0 : W64) (w1 : W64) (data : W64) (s : State) : Host.Outcome State Fault Refusal :=
  if !s.host.up || hdrKind w0 != 4 || hdrReserved w0 != 0 || hdrStatus w0 != 0 || hdrLen w0 != 0 || w1 != 0#64 || bitsNat data 63 32 != 0 then .next s
  else .next (s.setTail (hdrQueue w0) (data.setWidth 32))

/-- A 64-byte unit of the configuration space: the queue window, the fused defect maps, and the quote buffer (R172, R451, R462). -/
def State.configUnit (s : State) (off : Nat) : Option (List Byte) :=
  if off < 0x4000 then some ((upTo 4).flatMap (fun i => copies 8 0#8 ++ leBytes 8 (s.queue (off / 16 + i)).qprog.toNat))
  else if 0x100000 ≤ off ∧ off < 0x120000 then
    if s.sec.life = 0#3 then none else some (padTo 64 (octets (fusedMap ((off - 0x100000) / 4096)) (off % 4096) 64))
  else if 0x200000 ≤ off ∧ off < 0x200300 then some (octets (padTo 768 s.sec.quote) (off - 0x200000) 64)
  else none

/-- Units of the configuration space that follow one another. -/
def State.configRead (s : State) : Nat → Nat → Sum Nat (List Byte)
  | 0, _ => .inr []
  | n + 1, off =>
    match s.configUnit off, s.configRead n (off + 64) with
    | some b, .inr t => .inr (b ++ t)
    | _, _ => .inl 0x01

/-- CONFIGURATION_READ (R172, R451, R462) -/
def execConfigurationRead (w0 : W64) (w1 : W64) (s : State) : Host.Outcome State Fault Refusal :=
  if !s.host.up || hdrKind w0 != 5 then .next s
  else if !requestOk w0 w1 then .next (s.complete w0 (.inl 0x04))
  else .next (s.complete w0 (s.configRead (hdrLen w0) w1.toNat))

/-- REFUSED_TRANSACTION (R451): a transaction of kind 0 or 6–15 is discarded and counted -/
def execRefusedTransaction (w0 : W64) (s : State) : Host.Outcome State Fault Refusal :=
  if 1 ≤ hdrKind w0 ∧ hdrKind w0 ≤ 5 then .next s
  else .next { s with host := { s.host with refusedCount := s.host.refusedCount + 1 } }

/-- HOST_WINDOW_DESCRIPTOR_WRITE (R20): bit 0 of `perm` reads, bit 1 writes, bit 2 valid; a length that is no multiple of 4 KiB is not written -/
def execHostWindowDescriptorWrite (asid : BitVec 12) (win : BitVec 6) (base : BitVec 64) (len : Nat) (perm : BitVec 3) (s : State) :
    Host.Outcome State Fault Refusal :=
  if len % 4096 ≠ 0 then .next s
  else
    let w : HostWindow := { base := base, len := len, r := bitAt perm 0, w := bitAt perm 1, valid := bitAt perm 2 }
    .next { s with host := { s.host with windows := tblSet (asid.toNat * 64 + win.toNat) w s.host.windows } }

/-! ### The power-up map (R367, R462) -/

/-- What power-up measures of a unit or a distance. -/
def measured (die core n : Nat) : Nat := (Config.powerUpWord die (256 * core + n)).toNat

/-- State of a unit at power-up: dead where the fused map marks it, else as measured. -/
def powerUpState (defect : Bool) (m : Nat) : Nat := if defect then 3 else if m % 4 = 2 then 0 else m % 4

/-- A core record at power-up (R367, R461, R462): its units' states and adders, the distances, and a rebinding where a bound cluster has lost a
unit. -/
def powerUpCore (die core : Nat) : CoreMap :=
  let f := octets (fusedMap die) (0x40 + 48 * core) 48
  let bad (off n k : Nat) : Bool := field (natAt f off n) k 1 == 1
  let st (key : Nat) (d : Bool) : Nat := powerUpState d (measured die core key)
  let add (key : Nat) : Nat := measured die core key / 4 % 4
  let cols := (upTo 54).map (fun i => st (3 + i) (bad 1 7 i))
  let xs := (upTo 9).map (fun p => st (57 + p) (bad 8 2 p)) ++ (upTo 9).map (fun p => st (66 + p) (bad 0xA 2 p))
  ({ scal := BitVec.ofNat 8 (packFields 2 ((upTo 3).map (fun n => st n (bad 0 1 n)) ++ [st 75 (bad 0 1 3)])), bind := 0x76543210#32,
     colst := BitVec.ofNat 128 (packFields 2 cols), xst := BitVec.ofNat 64 (packFields 2 xs),
     coladd := BitVec.ofNat 128 (packFields 2 ((upTo 54).map (fun i => add (3 + i)))),
     xadd := BitVec.ofNat 64 (packFields 2 ((upTo 18).map (fun i => add (57 + i)) ++ (upTo 3).map add ++ [add 75])),
     dist := BitVec.ofNat 192 (packFields 4 ((upTo 36).map (fun i => measured die core (128 + i)))),
     spared := BitVec.ofNat 192 (natAt f 0x10 24), brep := BitVec.ofNat 32 (natAt f 0xC 4), csince := 1, slow := [] } : CoreMap).rebound

/-- A rope record at power-up: no segment below its fused 2 cycles, no lane that the fused map marks dead. -/
def powerUpRope (die rope : Nat) : RopeMap :=
  let f := octets (fusedMap die) (0xC40 + 16 * rope) 16
  { hop := BitVec.ofNat 32 (natAt f 0 4) ||| (Config.powerUpWord die (16384 + 2 * rope)).setWidth 32,
    deadln := BitVec.ofNat 16 (natAt f 4 2) ||| (Config.powerUpWord die (16384 + 2 * rope + 1)).setWidth 16, bankrep := BitVec.ofNat 16 (natAt f 6 2) }

/-- The power-up map of a die: version 1, with no link latency where there is no neighbour (R371, R373). -/
def powerUpMap (die cycle : Nat) : DieMap :=
  let lat (k : Nat) (there : Bool) : BitVec 16 := if there then (Config.powerUpWord die (16416 + k)).setWidth 16 else 0#16
  let m : DieMap :=
    { version := 1, pubCyc := cycle, cores := (upTo 64).map (fun k => (k, powerUpCore die k)), ropes := (upTo 16).map (fun k => (k, powerUpRope die k)),
      latW := lat 0 (die % 16 != 0), latE := lat 1 (die % 16 != 15), latC := lat 2 true, prev := [], bytes := [] }
  { m with bytes := m.signed die }

/-! ### Wipes (R456, R457) -/

/-- The core, rope and chiplet of a stored word's location. -/
def locDie : StorageLoc → Option Nat
  | .scalarReg c _ => some (dieOf c.val)
  | .vectorLane c _ _ _ => some (dieOf c.val)
  | .lanePred c _ _ => some (dieOf c.val)
  | .scalarPreds c => some (dieOf c.val)
  | .loopIndex c _ => some (dieOf c.val)
  | .snapshot c _ => some (dieOf c.val)
  | .tile c _ _ _ => some (dieOf c.val)
  | .bstore c _ => some (dieOf c.val)
  | .scratch r _ => some (dieOfRope r.val)
  | .laneWord r _ _ => some (dieOfRope r.val)
  | .hbm _ => none

/-- Launches that hold cores which a predicate names. -/
def State.launchesOn (s : State) (p : Nat → Bool) : List Nat :=
  (s.disp.launches.filter (fun l => (s.coresOf l.id).any p)).map (·.id)

/-- The chiplet that serves a die. -/
def servingChip (die : Nat) : Nat := die % 16 / 8

/-- A core with all its SRAM zero; a launch that it held still counts it until its retirement record. -/
def Core.wiped (c : Core) : Core :=
  { Core.reset with launch := c.launch, seq := { Sequencer.reset with run := if c.launch.isSome then .halted else .idle } }

/-- Memory without the scratchpads and B-stores of a die and the chunk buffer of its chiplet. -/
def wipeDieMem (m : List Host.Cell) (die : Nat) : List Host.Cell :=
  let m1 := (dieRopes die).foldl (fun acc r => wipeRange acc (keyPad r 0) (keyPad (r + 1) 0 - 1)) m
  let m2 := (dieCores die).foldl (fun acc c => wipeRange acc (keyB c 0) (keyB (c + 1) 0 - 1)) m1
  let k := 2 * Config.ownPackage + servingChip die
  wipeRange m2 (keyChunk k 0) (keyChunk (k + 1) 0 - 1)

/-- All SRAM of a die zeroed, with the chunk buffer and trigger table of its chiplet: its launches end first, and requests of other dies at its memory
ports stay (R456). -/
def State.wipeDie (s : State) (die : Nat) : State :=
  let s1 := (s.launchesOn (fun c => dieOf c == die)).foldl (fun acc l => acc.endLaunch l 0x02) s
  let d := s1.die die
  { s1 with
    cores := s1.cores.map (fun e => if dieOf e.1 = die then (e.1, e.2.wiped) else e),
    ropes := s1.ropes.filter (fun e => dieOfRope e.1 != die),
    dies := tblSet die { Die.reset with
      maps := d.maps, digest := d.digest, stopped := d.stopped, fenced := d.fenced, laneRepair := d.laneRepair, readyAt := d.readyAt,
      inReset := d.inReset, tripped := d.tripped,
      portWaits := d.portWaits.filter (fun w => decide (3 ≤ w.what) || (dieOf w.farCore != die && dieOfRope w.xferRope != die)) } s1.dies,
    mem := wipeDieMem s1.mem die,
    coll := { s1.coll with triggers := s1.coll.triggers.filter (fun e => e.1 / 1024 != servingChip die) },
    flips := s1.flips.filter (fun f => locDie f.loc != some die) }

/-- Packets may start once the storage is ready: the queues are looked at again then (R457). -/
def State.queuesAt (s : State) (at_ : Nat) : State :=
  (s.disp.queues.map (·.1)).foldl (fun acc q => acc.schedule at_ 6 (.queueAging (queueId q))) s

/-- A die's storage is ready at a cycle. -/
def State.readyDie (s : State) (die at_ : Nat) : State := s.modDie die (fun d => { d with readyAt := max d.readyAt at_ })

/-! ### Reset (R452, R456, R463, R464) -/

/-- The fused repairs of a channel of a die, none where a spare is free (R461). -/
def fusedReps (die k : Nat) : List (Option Nat) :=
  (upTo 2).map (fun o => let x := natAt (fusedMap die) (0xD40 + 8 * k + o) 1; if 128 ≤ x then some (x % 128) else none)

/-- Data lanes of a channel that fail the n-th training, those that a fused repair has replaced apart (R463). -/
def failedLanes (die k n : Nat) : List Nat := (upTo 64).filter (fun i => bitAt (Config.laneFails die k n) i && !(fusedReps die k).contains (some i))

/-- Each failed lane moves onto a free spare: the repairs of the two spares, 64 for none, and the lanes for which none is free (R463). -/
def moveLanes : List (Option Nat) → List Nat → List Nat × List Nat
  | [], lanes => ([], lanes)
  | some x :: t, lanes => let r := moveLanes t lanes; (x :: r.1, r.2)
  | none :: t, [] => let r := moveLanes t []; (64 :: r.1, r.2)
  | none :: t, l :: lanes => let r := moveLanes t lanes; (l :: r.1, r.2)

/-- Lane repairs of the channels of a die after the n-th training (R461, R463). -/
def laneRepairs (die n : Nat) : Tbl (Nat × Nat) :=
  (upTo 32).map (fun k =>
    let r := (moveLanes (fusedReps die k) (failedLanes die k n)).1
    (k, nth 64 r 0, nth 64 r 1))

/-- Whether a channel is fenced at the n-th reset: unusable, or one that fails because a failed lane finds no free spare (R463, R464). -/
def channelFenced (die n k : Nat) : Bool :=
  natAt (fusedMap die) (0xD40 + 8 * k + 2) 1 % 2 == 1 || !(moveLanes (fusedReps die k) (failedLanes die k n)).2.isEmpty
def fencedChannels (die n : Nat) : BitVec 32 := (upTo 32).foldl (fun acc k => setBit acc k (channelFenced die n k)) 0#32

/-- The pattern of 64 KiB that training leaves in each channel that it does not fence (R463). DESIGN CHOICE, safe: log entry 107. -/
def State.trainPattern (s : State) (die n : Nat) : State :=
  ((upTo 32).filter (fun k => !channelFenced die n k)).foldl (fun acc k => (upTo 1024).foldl (fun t j =>
    let p := die * 2 ^ 36 + Config.trainLine die k n j % 2 ^ 30 * 64
    if Config.hbmChannel p % 32 = k then t.putKey (keyHbm Config.ownPackage p) (leBytes 64 (Config.trainWord die k n j).toNat) else t) acc) s

/-- Whether the firmware of a die and of its chiplet's sequencer verifies at the n-th reset (R452). -/
def firmwareRuns (die n : Nat) : Bool := Config.firmwareOk die n && Config.firmwareOk (32 + servingChip die) n

/-- RESET (R452, R456, R463, R464): all SRAM of the die is zero, and a die whose firmware does not verify stays in reset. Else its channels are trained,
those that fail are fenced and reported, and its power-up map is published. DESIGN CHOICE, unsafe: log entry 68. -/
def execReset (die : DieId) (s : State) : Host.Outcome State Fault Refusal :=
  let k := die.val
  let n := s.sec.resets
  let ok := firmwareRuns k n
  let at_ := s.cycle + 1 + Config.freeDelay (s.freeIndex (dieAgent k)) % 41800000
  let s0 := s.useFree (dieAgent k)
  let s1 := ({ s0 with sec := { s0.sec with resets := n + 1 } } : State).wipeDie k
  let s2 := s1.modDie k (fun d =>
    { d with
        maps := if ok then [powerUpMap k s.cycle] else [], fenced := fencedChannels k n, laneRepair := laneRepairs k n, readyAt := at_, inReset := !ok,
        tripped := false, digest := d.digest })
  if !ok then .next s2
  else
    let t := s2.trainPattern k n
    let s3 := { t with sec := { t.sec with
      reported := t.sec.reported.filter (fun (r : Nat × Nat) => r.1 != k) ++ ((upTo 32).filter (channelFenced k n)).map (fun c => (k, c)) } }
    let s4 := s3.markChanged k ((s.die k).mapAt s.cycle) (powerUpMap k s.cycle)
    .next ((s4.emit (.map s4.packageDigest)).queuesAt at_)

/-- LANE_RECENTRE (R463): re-centring a lane changes no memory-port grant cycle, and no other state that the spec names -/
def execLaneRecentre (_die : DieId) (_channel : BitVec 5) (s : State) : Host.Outcome State Fault Refusal := .next s

/-- THERMAL_TRIP (R449): the die's cores halt as at a double trap, and every launch it serves ends with status 0x02 -/
def execThermalTrip (die : DieId) (s : State) : Host.Outcome State Fault Refusal :=
  let s1 := s.modDie die.val (fun d => { d with tripped := true })
  .next ((s1.launchesOn (fun c => dieOf c == die.val)).foldl (fun acc l => acc.endLaunch l 0x02) s1)

/-! ### Lifecycle, tenants, quotes (R454–R457) -/

/-- The transitions of the lifecycle (R454). DESIGN CHOICE, unsafe: log entry 69. -/
def lifeAllows (from_ target : Nat) : Bool :=
  match from_, target with
  | 0, 1 => true
  | 1, 2 => true
  | 3, 2 => true
  | 2, 3 => true
  | f, 4 => f != 4
  | _, _ => false

/-- LIFECYCLE_TRANSITION (R454, R456): all SRAM and then all HBM are zeroed; any other request changes nothing -/
def execLifecycleTransition (target : BitVec 3) (s : State) : Host.Outcome State Fault Refusal :=
  if !lifeAllows s.sec.life.toNat target.toNat then .next s
  else
    let at_ := s.cycle + 1 + Config.freeDelay (s.freeIndex packageAgent) % 95000000
    let s0 := s.useFree packageAgent
    let s1 := (upTo 32).foldl (fun acc d => (acc.wipeDie d).readyDie d at_) { s0 with sec := { s0.sec with life := target } }
    .next ({ s1 with
      mem := wipeRange s1.mem (keyHbm Config.ownPackage 0) (keyHbm (Config.ownPackage + 1) 0 - 1),
      flips := s1.flips.filter (fun f => match f.loc with
        | .hbm _ => false
        | _ => true) }.queuesAt at_)

/-- Whether a memory cell lies in what a tenant's partition gives it: bank partitions, HBM partitions, chunk-buffer ranges, B-stores of its cores. -/
def Partition.holds (p : Partition) (key : Nat) : Bool :=
  p.cores.any (fun c => decide (keyB c 0 ≤ key) && decide (key < keyB (c + 1) 0)) ||
    p.banks.any (fun b => decide (keyPad b.1 0 ≤ key) && decide (key < keyPad (b.1 + 1) 0) && field b.2.1 (bankOf (key - keyPad b.1 0)) 1 == 1) ||
    p.hbm.any (fun r => decide (keyHbm Config.ownPackage r.1 ≤ key) && decide (key ≤ keyHbm Config.ownPackage r.2)) ||
    p.chunks.any (fun r => decide (keyChunk (2 * Config.ownPackage + r.1) r.2.1 ≤ key) && decide (key ≤ keyChunk (2 * Config.ownPackage + r.1) r.2.2))

/-- Whether a stored word lies in a tenant's partition. -/
def partitionLoc (p : Partition) : StorageLoc → Bool
  | .scalarReg c _ => p.cores.contains c.val
  | .vectorLane c _ _ _ => p.cores.contains c.val
  | .lanePred c _ _ => p.cores.contains c.val
  | .scalarPreds c => p.cores.contains c.val
  | .loopIndex c _ => p.cores.contains c.val
  | .snapshot c _ => p.cores.contains c.val
  | .tile c _ _ _ => p.cores.contains c.val
  | .bstore c _ => p.cores.contains c.val
  | .scratch r n => Machine.Partition.holds p (keyPad r.val (8 * n))
  | .laneWord _ _ _ => false
  | .hbm n => Machine.Partition.holds p (keyHbm Config.ownPackage (8 * n))

/-- A rope without what an outgoing tenant leaves there: the type bits of its banks, its handles, and what is left of its cores' accesses and transfers. -/
def Rope.vacated (r : Rope) (p : Partition) (rope : Nat) : Rope :=
  { r with
    accs := r.accs.filter (fun a => !p.cores.contains a.core),
    engines := r.engines.map (fun e => (e.1, { e.2 with
      active := e.2.active.filter (fun x => !p.cores.contains x.core), tsb := e.2.tsb.filter (fun x => !p.cores.contains x.core) })),
    typeBits := r.typeBits.filter (fun w => !Machine.Partition.holds p (keyPad rope (8 * w))),
    handles := r.handles.filter (fun h => !p.handles.any (fun x => x.1 == rope && decide (x.2.1 ≤ h.1) && decide (h.1 ≤ x.2.2))) }

/-- Translation entries of a tenant's address spaces dropped on every die (R36). -/
def State.dropAsids (s : State) (asids : List Nat) : State :=
  (upTo 32).foldl (fun acc d => (acc.dropDtb d (fun e => asids.contains e.asid)).dropItb d (fun e => asids.contains e.asid)) s

/-- The chiplets without what an outgoing tenant leaves there: its trigger entries are disarmed, and its timetables with their calls, instances and copies
go. DESIGN CHOICE, unsafe: log entry 91. -/
def Collective.vacated (c : Collective) (p : Partition) (tenant : Nat) : Collective :=
  { c with
    triggers := c.triggers.filter (fun e => !rangeHolds p.triggers (e.1 / 1024) (e.1 % 1024) (e.1 % 1024)),
    timetables := c.timetables.filter (fun t => t.tenant != tenant), calls := c.calls.filter (fun x => x.tenant != tenant),
    instances := c.instances.filter (fun i => i.tenant != tenant), held := c.held.filter (fun h => h.tenant != tenant),
    copies := c.copies.filter (fun x => x.tenant != tenant) }

/-- Whether an outgoing tenant still runs: a core holds a launch of it, or an access of one of its cores, or of its timetables and copies, has still to
perform; the invalidation that comes first waits for those (R36, R457). -/
def State.tenantRuns (s : State) (tenant : Nat) : Bool :=
  let cs := (s.partition tenant).cores
  s.cores.any (fun e => (match e.2.launch with
    | some l => l.tenant == tenant
    | none => false) || (cs.contains e.1 && decide (0 < e.2.outstanding))) ||
    s.ropes.any (fun r => r.2.accs.any (fun a => cs.contains a.core && !a.dead) ||
      r.2.engines.any (fun e => e.2.active.any (fun x => cs.contains x.core) || e.2.tsb.any (fun x => cs.contains x.core))) ||
    s.coll.instances.any (fun i => i.tenant == tenant && i.started) || s.coll.copies.any (fun c => c.tenant == tenant)

/-- A configuration without the memory-port grants of fenced channels, which no tenant gets (R464). -/
def State.granted (s : State) (p : Partition) : Partition :=
  { p with ports := p.ports.map (fun e => (e.1, Nat.land e.2 (2 ^ 32 - 1 - (s.die e.1).fenced.toNat))) }

/-- TENANT_REASSIGNMENT (R421, R456, R457): translations of the outgoing tenant are invalidated, its partitions zeroed and its trigger entries disarmed,
and the new configuration is installed; nothing happens while the tenant still runs -/
def execTenantReassignment (outgoing : Nat) (incoming : Nat) (part : Partition) (s : State) : Host.Outcome State Fault Refusal :=
  let p := s.partition outgoing
  if s.tenantRuns outgoing then .next s
  else
    let s1 := s.dropAsids (p.roots.map (·.1))
    .next { s1 with
      cores := s1.cores.filter (fun e => !p.cores.contains e.1),
      ropes := s1.ropes.map (fun e => (e.1, e.2.vacated p e.1)),
      mem := s1.mem.filter (fun c => !Machine.Partition.holds p c.1),
      flips := s1.flips.filter (fun f => !partitionLoc p f.loc),
      coll := s1.coll.vacated p outgoing,
      disp := { s1.disp with objects := s1.disp.objects.filter (fun o => o.tenant != outgoing) },
      sec := { s1.sec with
        partitions := tblSet incoming (s.granted part) (tblErase outgoing s1.sec.partitions),
        targetTb := s1.sec.targetTb.filter (fun e => e.asid % 2 ^ 16 != p.domain % 2 ^ 16) } }

/-- The package certificate: the key id and public modulus of dies 0–31 in order, signed with the manufacturing key (R453). -/
def packageCertificate : List Byte :=
  let b := (upTo 32).flatMap (fun d => dieKey d ++ leBytes 512 (Config.dieModulus d).toNat)
  b ++ leBytes 512 (Config.rsaSign Config.makerKey b).toNat

/-- Whether a signing key is one of this package's: the certificate lists it (R453). -/
def certified (key : List Byte) : Bool := (upTo 32).any (fun d => octets packageCertificate (528 * d) 16 == key)

/-- The lowest-numbered die that is live. -/
def State.liveDie (s : State) : Option Nat := (upTo 32).find? (fun d => !(s.die d).inReset && !(s.die d).tripped)

/-- FWMEAS: SHA-512 over the hashes of every firmware image, dies then chiplets (R455). -/
def firmwareMeasure : List Byte := sha512 ((upTo 34).flatMap (fun n => leBytes 64 (Config.firmwareHash n).toNat))

/-- The first 0xC0 bytes of a quote (R455). -/
def State.quoteBody (s : State) (die : Nat) (nonce : List Byte) : List Byte :=
  leBytes 8 0x000000014B515554 ++ octets (padTo 32 nonce) 0 32 ++ leBytes 1 s.sec.life.toNat ++ leBytes 1 die ++ copies 6 0#8 ++ firmwareMeasure ++
    padTo 16 s.packageDigest ++ hash128 (Config.partitionBytes s.sec.partitions) ++ leBytes 8 s.cycle ++ copies 40 0#8

/-- QUOTE_REQUEST (R455): the lowest-numbered live die signs a quote into the quote buffer -/
def execQuoteRequest (nonce : List Byte) (s : State) : Host.Outcome State Fault Refusal :=
  match s.liveDie with
  | none => .next s
  | some d =>
    let b := s.quoteBody d nonce
    .next { s with sec := { s.sec with quote := b ++ leBytes 512 (Config.rsaSign (dieKey d) b).toNat } }

end Sys2Proof.Machine
end

