-- ==== Sys2Proof/Machine/Dispatch.lean ====
section
/-!
DEFINITION. One arm for each constructor of `Instr`: the direct call of its meaning.
-/

namespace Sys2Proof.Machine

def exec (i : Instr) (s : State) : Host.Outcome State Fault Refusal :=
  match i with
  | .add o => Sys2Proof.Machine.execAdd o s
  | .sub o => Sys2Proof.Machine.execSub o s
  | .mul o => Sys2Proof.Machine.execMul o s
  | .mulh o => Sys2Proof.Machine.execMulh o s
  | .mulhn o => Sys2Proof.Machine.execMulhn o s
  | .div o => Sys2Proof.Machine.execDiv o s
  | .divn o => Sys2Proof.Machine.execDivn o s
  | .rem o => Sys2Proof.Machine.execRem o s
  | .remn o => Sys2Proof.Machine.execRemn o s
  | .and o => Sys2Proof.Machine.execAnd o s
  | .or o => Sys2Proof.Machine.execOr o s
  | .xor o => Sys2Proof.Machine.execXor o s
  | .andn o => Sys2Proof.Machine.execAndn o s
  | .shl o => Sys2Proof.Machine.execShl o s
  | .shr o => Sys2Proof.Machine.execShr o s
  | .sra o => Sys2Proof.Machine.execSra o s
  | .rot o => Sys2Proof.Machine.execRot o s
  | .clz o => Sys2Proof.Machine.execClz o s
  | .popc o => Sys2Proof.Machine.execPopc o s
  | .min o => Sys2Proof.Machine.execMin o s
  | .max o => Sys2Proof.Machine.execMax o s
  | .minn o => Sys2Proof.Machine.execMinn o s
  | .maxn o => Sys2Proof.Machine.execMaxn o s
  | .sext o => Sys2Proof.Machine.execSext o s
  | .zext o => Sys2Proof.Machine.execZext o s
  | .bfx o => Sys2Proof.Machine.execBfx o s
  | .bfi o => Sys2Proof.Machine.execBfi o s
  | .lea o => Sys2Proof.Machine.execLea o s
  | .mov o => Sys2Proof.Machine.execMov o s
  | .movl o => Sys2Proof.Machine.execMovl o s
  | .sel o => Sys2Proof.Machine.execSel o s
  | .cmp o => Sys2Proof.Machine.execCmp o s
  | .fadd o => Sys2Proof.Machine.execFadd o s
  | .fsub o => Sys2Proof.Machine.execFsub o s
  | .fmul o => Sys2Proof.Machine.execFmul o s
  | .ffma o => Sys2Proof.Machine.execFfma o s
  | .fmin o => Sys2Proof.Machine.execFmin o s
  | .fmax o => Sys2Proof.Machine.execFmax o s
  | .fcmp o => Sys2Proof.Machine.execFcmp o s
  | .fcvt o => Sys2Proof.Machine.execFcvt o s
  | .lix o => Sys2Proof.Machine.execLix o s
  | .br o => Sys2Proof.Machine.execBr o s
  | .bc o => Sys2Proof.Machine.execBc o s
  | .jmp o => Sys2Proof.Machine.execJmp o s
  | .callRelative o => Sys2Proof.Machine.execCallRelative o s
  | .callRegister o => Sys2Proof.Machine.execCallRegister o s
  | .ret o => Sys2Proof.Machine.execRet o s
  | .loop o => Sys2Proof.Machine.execLoop o s
  | .loopx o => Sys2Proof.Machine.execLoopx o s
  | .vadd o => Sys2Proof.Machine.execVadd o s
  | .vsub o => Sys2Proof.Machine.execVsub o s
  | .vmul o => Sys2Proof.Machine.execVmul o s
  | .vmulh o => Sys2Proof.Machine.execVmulh o s
  | .vfma o => Sys2Proof.Machine.execVfma o s
  | .vfms o => Sys2Proof.Machine.execVfms o s
  | .vfnma o => Sys2Proof.Machine.execVfnma o s
  | .vmin o => Sys2Proof.Machine.execVmin o s
  | .vmax o => Sys2Proof.Machine.execVmax o s
  | .vabs o => Sys2Proof.Machine.execVabs o s
  | .vneg o => Sys2Proof.Machine.execVneg o s
  | .vclamp o => Sys2Proof.Machine.execVclamp o s
  | .vceq o => Sys2Proof.Machine.execVceq o s
  | .vcne o => Sys2Proof.Machine.execVcne o s
  | .vclt o => Sys2Proof.Machine.execVclt o s
  | .vcle o => Sys2Proof.Machine.execVcle o s
  | .vsel o => Sys2Proof.Machine.execVsel o s
  | .vand o => Sys2Proof.Machine.execVand o s
  | .vor o => Sys2Proof.Machine.execVor o s
  | .vxor o => Sys2Proof.Machine.execVxor o s
  | .vnot o => Sys2Proof.Machine.execVnot o s
  | .vshl o => Sys2Proof.Machine.execVshl o s
  | .vshr o => Sys2Proof.Machine.execVshr o s
  | .vsra o => Sys2Proof.Machine.execVsra o s
  | .vcvt o => Sys2Proof.Machine.execVcvt o s
  | .vmov o => Sys2Proof.Machine.execVmov o s
  | .vsplat o => Sys2Proof.Machine.execVsplat o s
  | .vperm o => Sys2Proof.Machine.execVperm o s
  | .vrot o => Sys2Proof.Machine.execVrot o s
  | .vdot o => Sys2Proof.Machine.execVdot o s
  | .vred o => Sys2Proof.Machine.execVred o s
  | .vscan o => Sys2Proof.Machine.execVscan o s
  | .vdraw o => Sys2Proof.Machine.execVdraw o s
  | .vquant o => Sys2Proof.Machine.execVquant o s
  | .vdeq o => Sys2Proof.Machine.execVdeq o s
  | .xexp2 o => Sys2Proof.Machine.execXexp2 o s
  | .xlog2 o => Sys2Proof.Machine.execXlog2 o s
  | .xrcp o => Sys2Proof.Machine.execXrcp o s
  | .xrsq o => Sys2Proof.Machine.execXrsq o s
  | .xsqrt o => Sys2Proof.Machine.execXsqrt o s
  | .xtanh o => Sys2Proof.Machine.execXtanh o s
  | .xsig o => Sys2Proof.Machine.execXsig o s
  | .xsin o => Sys2Proof.Machine.execXsin o s
  | .xcos o => Sys2Proof.Machine.execXcos o s
  | .xfer o => Sys2Proof.Machine.execXfer o s
  | .xbcast o => Sys2Proof.Machine.execXbcast o s
  | .xred o => Sys2Proof.Machine.execXred o s
  | .xdraw o => Sys2Proof.Machine.execXdraw o s
  | .trow o => Sys2Proof.Machine.execTrow o s
  | .tcol o => Sys2Proof.Machine.execTcol o s
  | .tclr o => Sys2Proof.Machine.execTclr o s
  | .tmode o => Sys2Proof.Machine.execTmode o s
  | .mpush o => Sys2Proof.Machine.execMpush o s
  | .mpushT o => Sys2Proof.Machine.execMpushT o s
  | .mmac o => Sys2Proof.Machine.execMmac o s
  | .mmacF o => Sys2Proof.Machine.execMmacF o s
  | .mprom chk => Sys2Proof.Machine.execMprom chk s
  | .mclr o => Sys2Proof.Machine.execMclr o s
  | .mrd o => Sys2Proof.Machine.execMrd o s
  | .mwr o => Sys2Proof.Machine.execMwr o s
  | .mfmt entry r => Sys2Proof.Machine.execMfmt entry r s
  | .mfsel level base => Sys2Proof.Machine.execMfsel level base s
  | .mscq cnt => Sys2Proof.Machine.execMscq cnt s
  | .ld o => Sys2Proof.Machine.execLd o s
  | .ldg o => Sys2Proof.Machine.execLdg o s
  | .vld o => Sys2Proof.Machine.execVld o s
  | .vlds o => Sys2Proof.Machine.execVlds o s
  | .vgat o => Sys2Proof.Machine.execVgat o s
  | .ldsc o => Sys2Proof.Machine.execLdsc o s
  | .st o => Sys2Proof.Machine.execSt o s
  | .stg o => Sys2Proof.Machine.execStg o s
  | .vst o => Sys2Proof.Machine.execVst o s
  | .vsts o => Sys2Proof.Machine.execVsts o s
  | .vsct o => Sys2Proof.Machine.execVsct o s
  | .aadd o => Sys2Proof.Machine.execAadd o s
  | .amin o => Sys2Proof.Machine.execAmin o s
  | .amax o => Sys2Proof.Machine.execAmax o s
  | .axchg o => Sys2Proof.Machine.execAxchg o s
  | .acas o => Sys2Proof.Machine.execAcas o s
  | .aand o => Sys2Proof.Machine.execAand o s
  | .aor o => Sys2Proof.Machine.execAor o s
  | .axor o => Sys2Proof.Machine.execAxor o s
  | .fence scope => Sys2Proof.Machine.execFence scope s
  | .cpy o => Sys2Proof.Machine.execCpy o s
  | .cpyb o => Sys2Proof.Machine.execCpyb o s
  | .bxfer o => Sys2Proof.Machine.execBxfer o s
  | .bxfer2 o => Sys2Proof.Machine.execBxfer2 o s
  | .hset o => Sys2Proof.Machine.execHset o s
  | .hwait handle => Sys2Proof.Machine.execHwait handle s
  | .hrel handle => Sys2Proof.Machine.execHrel handle s
  | .hprobe o => Sys2Proof.Machine.execHprobe o s
  | .ccall o => Sys2Proof.Machine.execCcall o s
  | .ctrig o => Sys2Proof.Machine.execCtrig o s
  | .ckpt o => Sys2Proof.Machine.execCkpt o s
  | .anchor => Sys2Proof.Machine.execAnchor s
  | .endOp => Sys2Proof.Machine.execEndOp s
  | .barInit o => Sys2Proof.Machine.execBarInit o s
  | .barArrive o => Sys2Proof.Machine.execBarArrive o s
  | .barWait a => Sys2Proof.Machine.execBarWait a s
  | .barFini o => Sys2Proof.Machine.execBarFini o s
  | .clk d => Sys2Proof.Machine.execClk d s
  | .waitc a p => Sys2Proof.Machine.execWaitc a p s
  | .wfar => Sys2Proof.Machine.execWfar s
  | .belayBegin => Sys2Proof.Machine.execBelayBegin s
  | .belayBeginPitch hIn hOut => Sys2Proof.Machine.execBelayBeginPitch hIn hOut s
  | .belayKeepS lit => Sys2Proof.Machine.execBelayKeepS lit s
  | .belayKeepV lit => Sys2Proof.Machine.execBelayKeepV lit s
  | .belayKeepA o => Sys2Proof.Machine.execBelayKeepA o s
  | .belayEnd => Sys2Proof.Machine.execBelayEnd s
  | .cmpt o => Sys2Proof.Machine.execCmpt o s
  | .ilock a b => Sys2Proof.Machine.execIlock a b s
  | .iunlock a b => Sys2Proof.Machine.execIunlock a b s
  | .ipref a b => Sys2Proof.Machine.execIpref a b s
  | .trap code => Sys2Proof.Machine.execTrap code s
  | .sys code => Sys2Proof.Machine.execSys code s
  | .eret => Sys2Proof.Machine.execEret s
  | .csrr o => Sys2Proof.Machine.execCsrr o s
  | .csrw o => Sys2Proof.Machine.execCsrw o s
  | .csrs o => Sys2Proof.Machine.execCsrs o s
  | .csrc o => Sys2Proof.Machine.execCsrc o s
  | .yield => Sys2Proof.Machine.execYield s
  | .wfi => Sys2Proof.Machine.execWfi s
  | .bist a => Sys2Proof.Machine.execBist a s
  | .hold => Sys2Proof.Machine.execHold s
  | .timedDispatchRelease core id => Sys2Proof.Machine.execTimedDispatchRelease core id s
  | .matrixQueueStart core => Sys2Proof.Machine.execMatrixQueueStart core s
  | .loopIterationBoundary core => Sys2Proof.Machine.execLoopIterationBoundary core s
  | .instructionStoreSlip core => Sys2Proof.Machine.execInstructionStoreSlip core s
  | .instructionFetchComplete core id => Sys2Proof.Machine.execInstructionFetchComplete core id s
  | .resultLanding core id => Sys2Proof.Machine.execResultLanding core id s
  | .tileRowLanding core id => Sys2Proof.Machine.execTileRowLanding core id s
  | .trapHandlerEntry core => Sys2Proof.Machine.execTrapHandlerEntry core s
  | .watchdogExpiry core => Sys2Proof.Machine.execWatchdogExpiry core s
  | .loadTap core id => Sys2Proof.Machine.execLoadTap core id s
  | .storeBankWrite core id bank => Sys2Proof.Machine.execStoreBankWrite core id bank s
  | .scratchpadAtomicRead core id => Sys2Proof.Machine.execScratchpadAtomicRead core id s
  | .scratchpadAtomicWrite core id => Sys2Proof.Machine.execScratchpadAtomicWrite core id s
  | .barAccessRead core id => Sys2Proof.Machine.execBarAccessRead core id s
  | .barAccessWrite core id => Sys2Proof.Machine.execBarAccessWrite core id s
  | .interlockedAccessPerform core id => Sys2Proof.Machine.execInterlockedAccessPerform core id s
  | .slotTableInstall rope tenant image => Sys2Proof.Machine.execSlotTableInstall rope tenant image s
  | .slotTableSwap rope => Sys2Proof.Machine.execSlotTableSwap rope s
  | .memoryPortTableInstall die tenant image => Sys2Proof.Machine.execMemoryPortTableInstall die tenant image s
  | .memoryPortTableSwap die => Sys2Proof.Machine.execMemoryPortTableSwap die s
  | .memoryPortAccess die channel => Sys2Proof.Machine.execMemoryPortAccess die channel s
  | .translationWalkComplete die id => Sys2Proof.Machine.execTranslationWalkComplete die id s
  | .tbinvPage core => Sys2Proof.Machine.execTbinvPage core s
  | .tbinvAsid core => Sys2Proof.Machine.execTbinvAsid core s
  | .tbinvAll core => Sys2Proof.Machine.execTbinvAll core s
  | .tbinvComplete die => Sys2Proof.Machine.execTbinvComplete die s
  | .farRequestSend core id => Sys2Proof.Machine.execFarRequestSend core id s
  | .farAccessHomeService core id => Sys2Proof.Machine.execFarAccessHomeService core id s
  | .globalAtomicHomeService core id => Sys2Proof.Machine.execGlobalAtomicHomeService core id s
  | .farResponseArrival core id => Sys2Proof.Machine.execFarResponseArrival core id s
  | .transferBegin rope eng => Sys2Proof.Machine.execTransferBegin rope eng s
  | .ceReadBeat rope eng => Sys2Proof.Machine.execCeReadBeat rope eng s
  | .ceOffcoreReadReturn rope id line => Sys2Proof.Machine.execCeOffcoreReadReturn rope id line s
  | .ceWriteBeat rope id line => Sys2Proof.Machine.execCeWriteBeat rope id line s
  | .ceOffcoreWritePerform rope id line => Sys2Proof.Machine.execCeOffcoreWritePerform rope id line s
  | .writeBackBegin rope eng => Sys2Proof.Machine.execWriteBackBegin rope eng s
  | .cefinfoClear rope => Sys2Proof.Machine.execCefinfoClear rope s
  | .portBeat rope id => Sys2Proof.Machine.execPortBeat rope id s
  | .detectedErrorRollback core => Sys2Proof.Machine.execDetectedErrorRollback core s
  | .rollbackRestore core => Sys2Proof.Machine.execRollbackRestore core s
  | .regionRestart core => Sys2Proof.Machine.execRegionRestart core s
  | .bistComplete core => Sys2Proof.Machine.execBistComplete core s
  | .preemptionLanding core => Sys2Proof.Machine.execPreemptionLanding core s
  | .contextSaveComplete core => Sys2Proof.Machine.execContextSaveComplete core s
  | .preemptionReport die launch => Sys2Proof.Machine.execPreemptionReport die launch s
  | .contextRestore launch => Sys2Proof.Machine.execContextRestore launch s
  | .coreRetirement core => Sys2Proof.Machine.execCoreRetirement core s
  | .retirementReport die launch => Sys2Proof.Machine.execRetirementReport die launch s
  | .packetLaunch queue seq => Sys2Proof.Machine.execPacketLaunch queue seq s
  | .packetBulkCopy queue seq => Sys2Proof.Machine.execPacketBulkCopy queue seq s
  | .packetWaitOnValue queue seq => Sys2Proof.Machine.execPacketWaitOnValue queue seq s
  | .packetSignal queue seq => Sys2Proof.Machine.execPacketSignal queue seq s
  | .packetTimetableInstall queue seq => Sys2Proof.Machine.execPacketTimetableInstall queue seq s
  | .packetTimetableRemove queue seq => Sys2Proof.Machine.execPacketTimetableRemove queue seq s
  | .packetCheckpointSave queue seq => Sys2Proof.Machine.execPacketCheckpointSave queue seq s
  | .packetCheckpointRestore queue seq => Sys2Proof.Machine.execPacketCheckpointRestore queue seq s
  | .packetMapQuery queue seq => Sys2Proof.Machine.execPacketMapQuery queue seq s
  | .packetInvalid queue seq => Sys2Proof.Machine.execPacketInvalid queue seq s
  | .waitValuePoll queue seq => Sys2Proof.Machine.execWaitValuePoll queue seq s
  | .packetComplete queue seq => Sys2Proof.Machine.execPacketComplete queue seq s
  | .launchSelection => Sys2Proof.Machine.execLaunchSelection s
  | .queueAging queue => Sys2Proof.Machine.execQueueAging queue s
  | .launchRecord id => Sys2Proof.Machine.execLaunchRecord id s
  | .retirementRecord id => Sys2Proof.Machine.execRetirementRecord id s
  | .preemptionRecord id => Sys2Proof.Machine.execPreemptionRecord id s
  | .mapRecord id => Sys2Proof.Machine.execMapRecord id s
  | .heldTriggerPerform launch => Sys2Proof.Machine.execHeldTriggerPerform launch s
  | .queueTableWrite queue entry => Sys2Proof.Machine.execQueueTableWrite queue entry s
  | .queueSwitchOut queue => Sys2Proof.Machine.execQueueSwitchOut queue s
  | .queueSwitchIn queue => Sys2Proof.Machine.execQueueSwitchIn queue s
  | .queueReset queue => Sys2Proof.Machine.execQueueReset queue s
  | .hostWindowDescriptorWrite asid win base len perm => Sys2Proof.Machine.execHostWindowDescriptorWrite asid win base len perm s
  | .postedWrite toDevice w0 w1 data => Sys2Proof.Machine.execPostedWrite toDevice w0 w1 data s
  | .readRequest toDevice w0 w1 => Sys2Proof.Machine.execReadRequest toDevice w0 w1 s
  | .readCompletion toDevice w0 w1 data => Sys2Proof.Machine.execReadCompletion toDevice w0 w1 data s
  | .queueDoorbell w0 w1 data => Sys2Proof.Machine.execQueueDoorbell w0 w1 data s
  | .configurationRead w0 w1 => Sys2Proof.Machine.execConfigurationRead w0 w1 s
  | .refusedTransaction w0 => Sys2Proof.Machine.execRefusedTransaction w0 s
  | .hostLinkTraining modules => Sys2Proof.Machine.execHostLinkTraining modules s
  | .objectUpload tenant addr len => Sys2Proof.Machine.execObjectUpload tenant addr len s
  | .healthSample die unit margin => Sys2Proof.Machine.execHealthSample die unit margin s
  | .unitRetest die unit res => Sys2Proof.Machine.execUnitRetest die unit res s
  | .mapPublication die => Sys2Proof.Machine.execMapPublication die s
  | .timetableRevalidation tt => Sys2Proof.Machine.execTimetableRevalidation tt s
  | .ccallRequest call => Sys2Proof.Machine.execCcallRequest call s
  | .timetableReservation call chip => Sys2Proof.Machine.execTimetableReservation call chip s
  | .timetableAcceptance call chip => Sys2Proof.Machine.execTimetableAcceptance call chip s
  | .timetableCommit call chip => Sys2Proof.Machine.execTimetableCommit call chip s
  | .timetableAcceptDeadline call => Sys2Proof.Machine.execTimetableAcceptDeadline call s
  | .timetableInstanceStart inst => Sys2Proof.Machine.execTimetableInstanceStart inst s
  | .timetableEntryStart inst entry => Sys2Proof.Machine.execTimetableEntryStart inst entry s
  | .timetableEntryCombine inst entry => Sys2Proof.Machine.execTimetableEntryCombine inst entry s
  | .timetableInstanceEnd inst => Sys2Proof.Machine.execTimetableInstanceEnd inst s
  | .triggerArm core id => Sys2Proof.Machine.execTriggerArm core id s
  | .linkTimeout link => Sys2Proof.Machine.execLinkTimeout link s
  | .switchTimeout switch => Sys2Proof.Machine.execSwitchTimeout switch s
  | .groupTimeout pkg => Sys2Proof.Machine.execGroupTimeout pkg s
  | .linkStateUpdate element epoch path => Sys2Proof.Machine.execLinkStateUpdate element epoch path s
  | .drainRoundEnd epoch => Sys2Proof.Machine.execDrainRoundEnd epoch s
  | .memberFailureRecord pkg epoch => Sys2Proof.Machine.execMemberFailureRecord pkg epoch s
  | .checkpointReadback ck => Sys2Proof.Machine.execCheckpointReadback ck s
  | .reset die => Sys2Proof.Machine.execReset die s
  | .laneRecentre die channel => Sys2Proof.Machine.execLaneRecentre die channel s
  | .thermalTrip die => Sys2Proof.Machine.execThermalTrip die s
  | .lifecycleTransition target => Sys2Proof.Machine.execLifecycleTransition target s
  | .tenantReassignment outgoing incoming part => Sys2Proof.Machine.execTenantReassignment outgoing incoming part s
  | .quoteRequest nonce => Sys2Proof.Machine.execQuoteRequest nonce s
  | .vmarginWrite die v => Sys2Proof.Machine.execVmarginWrite die v s
  | .vmarginSettled die => Sys2Proof.Machine.execVmarginSettled die s
  | .linkmarginScanStart die v => Sys2Proof.Machine.execLinkmarginScanStart die v s
  | .linkmarginScanDone die => Sys2Proof.Machine.execLinkmarginScanDone die s
  | .wfiWakeRequest core => Sys2Proof.Machine.execWfiWakeRequest core s
  | .storageBitFlip loc uncorrectable => Sys2Proof.Machine.execStorageBitFlip loc uncorrectable s
  | .idleFlit link => Sys2Proof.Machine.execIdleFlit link s
  | .streamRecovery => Sys2Proof.Machine.execStreamRecovery s

end Sys2Proof.Machine
end

