-- ==== Sys2Proof/Machine/Step.lean ====
section
/-!
DEFINITION. One step of the machine: the next slot of the bundle that is issuing, the next event of the agenda, the next core's turn, or the next
cycle; and how the host places an instruction where the machine fetches.
-/

namespace Sys2Proof.Machine

/-- One step. -/
def step (s : State) : Host.Outcome State Fault Refusal :=
  match s.nextWork with
  | .run i t => exec i t
  | .done t => .next t
  | .past c => .fault (.pastDue c)

/-- An instruction stored where `step` fetches the next one: core 0's instruction store, at its pc. DESIGN CHOICE, safe: log entry 9. -/
def State.withFetchWord (s : State) (_nbits w : Nat) : State := s.placeWord (BitVec.ofNat 32 w)

end Sys2Proof.Machine
end

