-- ==== Sys2Proof/Safety.lean ====
section
/-!
DEFINITION. The terms that statements use: when an operation of a slot runs with nothing in its way, what it puts in flight, what it leaves
alone, and the invariants of the machine.
-/

namespace Sys2Proof.Machine

/-! ### An operation of a slot with nothing in its way -/

/-- None of the checks that every operation of a slot makes stops it, its guard apart: the slot issues (it is not only asked for its registers,
R168), no unit it reaches is dead (R376), none it occupies was declared dead (R338) or is held (R116), no register it names is pending (R132), and no
stored word of the machine is flipped (R41). -/
structure State.Clear (s : State) (u : SlotUse) : Prop where
  issues : s.bnd.probing = false
  alive : u.reach.any (fun k => s.mapNow.keyState k == 3) = false
  sound : u.units.any (fun k => (s.die (dieOf s.bnd.core)).failed.any
    (fun e => e.1 == unitRefOf s.bnd.core k && decide (e.2 < s.cycle))) = false
  free : u.units.any (s.unitHeld s.bm (s.core s.bnd.core)) = false
  settled : (s.core s.bnd.core).pendingKeys.any
    (fun k => (s.bnd.readsRegs && u.reads.contains k) || u.writes.contains k) = false
  clean : s.flips = []

/-- Results of the issuing bundle go to the core's own list: the core is not frozen, or the bundle is its handler's (R339). -/
def State.Live (s : State) : Prop := (s.core s.bnd.core).frame = none ∨ s.bnd.handler = true

/-- The state in which an operation that passed its checks acts: `RNDSEQ` taken where it rounds stochastically (R210), its units occupied (R114). -/
def State.accept (s : State) (u : SlotUse) : State :=
  let s1 := if u.rs then s.takeSq else s
  s1.modCore s1.bnd.core (fun c => c.occupy s1.cycle u)

/-- What an operation of a slot puts in flight: exactly the results listed, each with its landing delay, effect and flags, issued now by this
slot and bundle (an operation of the matrix queue: when its bundle issued), and each due to land (R40, R130). -/
def Results (s t : State) (rs : List (Nat × Effect × FpFlags)) : Prop :=
  ∃ ls : List Landing,
    (t.core s.bnd.core).inflight = (s.core s.bnd.core).inflight ++ ls ∧
    ls.map (fun l => (l.at_, l.eff, l.flags)) = rs.map (fun r => (s.cycle + r.1, r.2)) ∧
    ∀ l ∈ ls, l.issue = s.bnd.queued.getD s.cycle ∧ l.slot = s.bnd.slot.num ∧ l.pc = s.bnd.lat.pc ∧ l.word = s.bnd.word ∧ s.nextId ≤ l.id ∧
      ∃ d ∈ t.agenda, d.at_ = l.at_ ∧ d.ev = l.event s.bnd.core

/-- What every operation of a slot that does not fault leaves alone outside its own core and rope: memory, every other core, the dies and the
package, and of the issuing bundle its operands and its faults. -/
structure Around (s t : State) : Prop where
  cycle : t.cycle = s.cycle
  turn : t.turn = s.turn
  mem : t.mem = s.mem
  dies : t.dies = s.dies
  disp : t.disp = s.disp
  coll : t.coll = s.coll
  host : t.host = s.host
  sec : t.sec = s.sec
  flips : t.flips = s.flips
  others : ∀ j, j ≠ s.bnd.core → t.core j = s.core j
  bndCore : t.bnd.core = s.bnd.core
  bndSlot : t.bnd.slot = s.bnd.slot
  bndRegs : t.bnd.lat.regs = s.bnd.lat.regs
  bndQueued : t.bnd.queued = s.bnd.queued
  noFault : t.bnd.faulted = s.bnd.faulted

/-- What such an operation leaves alone of its own core: every register, every control register but `RNDSEQ`, which a stochastic rounding takes
(R210), and the matrix, transposing, belay, instruction-store, trap and launch state. -/
structure Inside (x y : Core) : Prop where
  regs : y.regs = x.regs
  csr : ∀ n, n ≠ 0x004 → y.csrGet n = x.csrGet n
  td : y.td = x.td
  mx : y.mx = x.mx
  xt : y.xt = x.xt
  belay : y.belay = x.belay
  code : y.code = x.code
  frame : y.frame = x.frame
  replay : y.replay = x.replay
  save : y.save = x.save
  slip : y.slip = x.slip
  test : y.test = x.test
  launch : y.launch = x.launch

/-- What an operation whose effects are all results in flight leaves alone when it issues: all that R40 does not let it change before the landing. -/
structure Keeps (s t : State) : Prop where
  around : Around s t
  ropes : t.ropes = s.ropes
  inside : Inside (s.core s.bnd.core) (t.core s.bnd.core)
  seq : (t.core s.bnd.core).seq = (s.core s.bnd.core).seq
  far : (t.core s.bnd.core).far = (s.core s.bnd.core).far
  latch : (t.core s.bnd.core).latch = (s.core s.bnd.core).latch

/-- An operation runs, puts exactly `rs` in flight and leaves the rest alone; no transfer is taken. -/
def Gives (o : Host.Outcome State Fault Refusal) (s : State) (rs : List (Nat × Effect × FpFlags)) : Prop :=
  ∃ t, o = .next t ∧ Results s t rs ∧ Keeps s t ∧ t.bnd.ctl = s.bnd.ctl

/-! ### The units and registers of each shape of operation -/

/-- A scalar form that reads sA where `a`, operand b where `b`, sD where `d`, and writes the registers named (R117–R119). -/
def State.scalarUse (s : State) (o : ScalarOp) (a b d holds rs : Bool) (writes : List Nat) : SlotUse :=
  { reach := [o.unit.toNat], units := [o.unit.toNat], reads := s.scalarReads o a b d, writes := writes, holds := holds, rs := rs }

/-- A vector form of the vector registers `srcs` and lane predicate q that writes the vector registers `dsts` and lane predicates `qd` (R109, R121). -/
def State.vecUse (s : State) (o : VecOp) (srcs dsts qd sRegs : List Nat) (rs : Bool) : SlotUse :=
  let ps := s.clusters.map s.bm.phys
  { reach := if ps.isEmpty then [] else (upTo 8).map (fun c => colKey (s.bm.phys c) o.unit.toNat),
    units := ps.map (fun p => colKey p o.unit.toNat),
    reads := s.vecKeys ps srcs [o.q.toNat] ++ sRegs,
    writes := s.vecKeys ps dsts qd, holds := true, rs := rs }

/-- An XF form whose sources lie in the logical clusters `from_` (R122, R243, R244). -/
def State.xfUse (s : State) (o : XfOp) (srcs from_ dsts : List Nat) : SlotUse :=
  let ps := s.clusters.map s.bm.phys
  { reach := ps.map xfKey, units := ps.map xfKey,
    reads := s.vecKeys (from_.map s.bm.phys) srcs [] ++ s.vecKeys ps [] [o.q.toNat],
    writes := s.vecKeys ps dsts [], holds := true, rs := false }

/-- An XT form (R123, R271). -/
def State.xtUse (s : State) (reads writes : List Nat) : SlotUse :=
  let ps := s.clusters.map s.bm.phys
  { reach := ps.map xtKey, units := ps.map xtKey, reads := s.vecKeys ps reads [], writes := s.vecKeys ps writes [], holds := true, rs := false }

/-- An operation that names registers and no unit of the map: LD, ST, CE and SY (R114). -/
def portUse (reads writes : List Nat) : SlotUse :=
  { reach := [], units := [], reads := reads, writes := writes, holds := false, rs := false }

/-- An MX operation (R114, R260). -/
def mxUse (reads writes : List Nat) : SlotUse :=
  { reach := [arrayKey], units := [arrayKey], reads := reads, writes := writes, holds := true, rs := false }

/-- An operation whose one result writes lanes of vector registers, all landing together, and leaves the rest alone: in every enabled cluster, every lane
that `mask` selects of the physical cluster gets the word `f` answers for it in register `reg`, and no other lane is written; its flags are the union of
those the lanes raise (R109, R228). -/
def State.WritesLanes (s : State) (i : Instr) (delay reg : Nat) (mask : Nat → BitVec 16) (f : Nat → Nat → W32 × FpFlags) : Prop :=
  ∃ outs : List LaneOut,
    Gives (exec i s) s [(delay, .regs (outs.map (fun x => .v (vKey x.phys x.reg x.lane) x.w)), outs.foldl (fun acc x => acc ||| x.fl) 0#6)] ∧
    ∀ x, x ∈ outs ↔ ∃ c k, c < 8 ∧ s.bnd.lat.cmask.getLsbD c = true ∧ k < 16 ∧ (mask (s.bm.phys c)).getLsbD k = true ∧
      x = { cluster := c, phys := s.bm.phys c, reg := reg, lane := k, w := (f (s.bm.phys c) k).1, fl := (f (s.bm.phys c) k).2 }

/-- An operation whose one result writes lanes of a group of vector registers, all landing together, and leaves the rest alone: `P` says which lanes it
forms, with their words and flags, and `on` which of those it writes; its flags are the union of those they raise (R228–R230). -/
def State.WritesGroup (s : State) (i : Instr) (delay : Nat) (on : LaneOut → Bool) (P : LaneOut → Prop) : Prop :=
  ∃ outs : List LaneOut,
    Gives (exec i s) s [(delay, .regs ((outs.filter on).map (fun x => .v (vKey x.phys x.reg x.lane) x.w)), outs.foldl (fun acc x => acc ||| x.fl) 0#6)] ∧
    ∀ x, x ∈ outs ↔ P x

/-- An operation with one result per enabled cluster, each landing at the delay of that cluster's unit, that leaves the rest alone: a cluster in which
`mask` selects no lane gets none (R131, R243). -/
def State.WritesByCluster (s : State) (i : Instr) (delay : Nat → Nat) (reg : Nat) (mask : Nat → BitVec 16) (f : Nat → Nat → W32 × FpFlags) : Prop :=
  Gives (exec i s) s (((List.range 8).filter (fun c => s.bnd.lat.cmask.getLsbD c && mask (s.bm.phys c) != 0#16)).map (fun c =>
    let p := s.bm.phys c
    let ks := (List.range 16).filter (fun k => (mask p).getLsbD k)
    (delay p, .regs (ks.map (fun k => .v (vKey p reg k) (f p k).1)), ks.foldl (fun acc k => acc ||| (f p k).2) 0#6)))

/-- A matrix operation starts as it issues: in lockstep, or in timed dispatch with nothing queued before it (R262). -/
def State.MxDirect (s : State) : Prop :=
  (s.core s.bnd.core).timedContext = false ∨ ((s.core s.bnd.core).mx.queue = [] ∧ s.mxStarted s.bnd.core = false)

/-! ### Accesses to the scratchpad -/

/-- The segment bookings of an access of the issuing core over a path from issue + 2 on (R50–R52). -/
def State.pathOf (s : State) (lane station : Nat) (segs : List Nat) : List LaneBooking :=
  pathBookings (s.coreRope s.bnd.core) lane (transferTag s.cycle) station (s.cycle + 2) segs

/-- The rope of the issuing core with a path and bank cycles booked (R53, R57). -/
def State.booked (s : State) (lane station : Nat) (segs : List Nat) (uses : List (Nat × Nat)) : Rope :=
  ((s.rope (ropeOf s.bnd.core)).bookLanes s.cycle (s.pathOf lane station segs)).bookBanks s.cycle station uses

/-- An access is put in flight, its events are due, its rope is `r` with the access added, and nothing else changes. -/
def Accepts (o : Host.Outcome State Fault Refusal) (s : State) (r : Rope) (x : Access) (evs : List Due) : Prop :=
  ∃ t, o = .next t ∧ Around s t ∧ (∀ j, t.core j = s.core j) ∧ (∀ k, k ≠ ropeOf s.bnd.core → t.rope k = s.rope k) ∧
    t.rope (ropeOf s.bnd.core) = { r with accs := r.accs ++ [x] } ∧ (∀ d ∈ evs, d ∈ t.agenda) ∧ t.bnd.ctl = s.bnd.ctl

/-- A statically timed access of the issuing core at address `a`: the checks of R143 in their order (alignment, address, lane and path, bank cycles),
each with its own fault, and with none of them the access `x` in flight with its path and bank cycles booked. -/
def State.PadAccess (s : State) (i : Instr) (u : SlotUse) (a : W64) (n : Nat) (allowed : List Nat) (segs : List Nat) (want : Option Nat) (x : Access)
    (evs : List Due) : Prop :=
  s.Clear u →
    let rope := ropeOf s.bnd.core
    let code := addrCode s.sec.members allowed a
    let lane := s.laneFault rope x.lane (s.pathOf x.lane x.station segs) want x.tap
    let bank := (s.rope rope).bankFault x.station x.banks
    (a.toNat % n ≠ 0 → exec i s = .next ((s.accept u).slotFault 12 0 true [])) ∧
    (a.toNat % n = 0 → code ≠ 0 →
      exec i s = .next ((s.accept u).slotFault 10 0 true [(0x012, BitVec.ofNat 64 code), (0x013, a)])) ∧
    (a.toNat % n = 0 → code = 0 →
      (∀ c, lane = some c → exec i s = .next ((s.accept u).slotFault 6 0 true [(0x010, sfinfoWord c x.lane 0#6 0#6 0 0 0)])) ∧
      (∀ f, lane = none → bank = some f → exec i s = .next ((s.accept u).bankConflict rope x.station f)) ∧
      (lane = none → bank = none → Accepts (exec i s) s (s.booked x.lane x.station segs x.banks) x evs))

/-- An operation joins the issuing core's far queue with its operands, last in the order of the core's off-core accesses; its request is tried in a later
cycle, and nothing else changes (R88, R155, R156). -/
def State.IssuesFar (s : State) (i : Instr) (kind : FarKind) (a data cmp : W64) (dest : Nat) : Prop :=
  let c := s.core s.bnd.core
  ∃ (t : State) (f : FarOp) (at_ : Nat), exec i s = .next t ∧ Around s t ∧ t.ropes = s.ropes ∧ t.bnd.ctl = s.bnd.ctl ∧
    t.core s.bnd.core = { c with far := { c.far with ops := c.far.ops ++ [f], nextSeq := c.far.nextSeq + 1 } } ∧
    f.id = s.nextId ∧ f.seq = c.far.nextSeq ∧ f.kind = kind ∧ f.addr = a ∧ f.data = data ∧ f.cmp = cmp ∧ f.dest = dest ∧ f.phase = .queued ∧
    f.fault = 0 ∧ f.root = c.csrGet 0x100 ∧ f.pc = s.bnd.lat.pc ∧ s.cycle < at_ ∧
    { at_ := at_, prio := 6, ev := .farRequestSend (coreId s.bnd.core) f.id } ∈ t.agenda

/-- Of memory exactly the bytes from a key up are written. -/
def Writes (s t : State) (k : Nat) (bs : List Byte) : Prop :=
  (∀ i, i < bs.length → memGet t.mem (k + i) = nth 0#8 bs i) ∧ ∀ a, a < k ∨ k + bs.length ≤ a → memGet t.mem a = memGet s.mem a

/-! ### Packets and the stream -/

/-- An event follows later than now: it is due, or it waits until its line has started at its memory port (R63, R64). -/
def Follows (s t : State) (ev : Instr) : Prop :=
  (∃ d ∈ t.agenda, s.cycle < d.at_ ∧ d.ev = ev) ∨ ∃ die, ∃ w ∈ (t.die die).portWaits, w.started = false ∧ w.ev = some ev

/-- A packet of a queue ends with a status: it holds the status and word 1 of its record, its completion follows, memory is `mem`, and no core and
no rope changes (R177–R179). -/
def Finishes (o : Host.Outcome State Fault Refusal) (s : State) (queue : QueueId) (seq : BitVec 32) (p : Packet) (st : Nat) (word1 : Option W64)
    (mem : List Host.Cell) : Prop :=
  ∃ t, o = .next t ∧ t.mem = mem ∧ t.cores = s.cores ∧ t.ropes = s.ropes ∧
    t.packet queue.val seq = some { p with status := BitVec.ofNat 16 st, word1 := word1 } ∧ Follows s t (.packetComplete queue seq)

/-- A record joins the broadcast stream with the sender's digest, its event is due later, and memory and cores do not change (R181). -/
def Emits (o : Host.Outcome State Fault Refusal) (s : State) (k : StreamKind) (ev : Instr) : Prop :=
  ∃ t, o = .next t ∧ t.mem = s.mem ∧ t.cores = s.cores ∧ t.disp.stream = s.disp.stream ++ [{ kind := k, digest := s.disp.digest }] ∧
    ∃ d ∈ t.agenda, s.cycle < d.at_ ∧ d.ev = ev

/-- The record at a place of the stream is the next to apply, and every command processor holds the digest it carries (R181). -/
structure State.Applies (s : State) (id : Nat) (r : StreamRec) : Prop where
  goes : s.disp.halted = false
  next : s.disp.applied = id
  here : s.disp.stream[id]? = some r
  agrees : ∀ d, d < 32 → (s.die d).digest = r.digest

/-! ### Invariants -/

/-- Memory is in its canonical form: keys strictly rising, and no cell that holds what an unlisted one reads as. -/
def State.MemForm (s : State) : Prop := memWf s.mem = true

end Sys2Proof.Machine
end

