-- ==== Sys2Proof/Certificates/Slice0/Obligations.lean ====
section
/-!
DEFINITION. The statements for the provers.
-/

open Sys2Proof Sys2Proof.Machine

/-! ### Scalar forms (R188–R198) -/

/-- The integer forms whose result lands one cycle after issue, or three for the products: each puts its one result in flight and leaves
the rest of the machine alone (R39, R190, R191, R193). The guard reads 1; when it reads 0 see `GuardOff`. -/
def Obligations.ScalarIntegerResults : Prop :=
  ∀ (s : State) (o : ScalarOp),
    s.Live → s.bnd.lat.regs.pGet o.guard.toNat = true → s.Clear (s.scalarUse o true true false true false [s.sIdx o.d]) →
    let a := s.rdS o.a
    let b := s.opB o
    let gives (i : Instr) (nominal : Nat) (v : W64) : Prop :=
      Gives (exec i s) s [(s.aluDelay o nominal, .regs [.s (s.sIdx o.d) v], 0#6)]
    gives (.add o) 1 (a + b) ∧ gives (.sub o) 1 (a - b) ∧ gives (.mul o) 3 (a * b) ∧
    gives (.mulh o) 3 (BitVec.ofInt 64 (a.toInt * b.toInt / 2 ^ 64)) ∧ gives (.mulhn o) 3 (BitVec.ofNat 64 (a.toNat * b.toNat / 2 ^ 64)) ∧
    gives (.and o) 1 (a &&& b) ∧ gives (.or o) 1 (a ||| b) ∧ gives (.xor o) 1 (a ^^^ b) ∧ gives (.andn o) 1 (a &&& ~~~b) ∧
    gives (.shl o) 1 (a <<< (b.toNat % 64)) ∧ gives (.shr o) 1 (a >>> (b.toNat % 64)) ∧ gives (.sra o) 1 (a.sshiftRight (b.toNat % 64)) ∧
    gives (.rot o) 1 (a.rotateRight (b.toNat % 64)) ∧
    gives (.min o) 1 (if a.toInt ≤ b.toInt then a else b) ∧ gives (.max o) 1 (if a.toInt ≤ b.toInt then b else a) ∧
    gives (.minn o) 1 (if a.toNat ≤ b.toNat then a else b) ∧ gives (.maxn o) 1 (if a.toNat ≤ b.toNat then b else a) ∧
    gives (.lea o) 1 (a + (b <<< o.funct.toNat)) ∧ gives (.sel o) 1 (if s.bnd.lat.regs.pGet o.funct.toNat then a else b) ∧
    gives (.bfx o) 1 (bfxField a b (o.funct == 1#3))

/-- The integer forms that read a alone, the literal alone, or sD as a third source (R191, R193, R197). -/
def Obligations.ScalarOtherResults : Prop :=
  ∀ (s : State) (o : ScalarOp), s.Live → s.bnd.lat.regs.pGet o.guard.toNat = true →
    let a := s.rdS o.a
    let b := s.opB o
    let d := s.rdS o.d
    let gives (i : Instr) (v : W64) : Prop := Gives (exec i s) s [(s.aluDelay o 1, .regs [.s (s.sIdx o.d) v], 0#6)]
    (s.Clear (s.scalarUse o true false false true false [s.sIdx o.d]) →
      gives (.mov o) a ∧
      gives (.clz o) (BitVec.ofNat 64 (if a = 0#64 then 64 else 63 - Nat.log2 a.toNat)) ∧
      gives (.popc o) (BitVec.ofNat 64 ((List.range 64).countP (fun i => a.getLsbD i))) ∧
      (o.funct = 0#3 → gives (.sext o) ((a.setWidth 8).signExtend 64) ∧ gives (.zext o) ((a.setWidth 8).setWidth 64)) ∧
      (o.funct = 1#3 → gives (.sext o) ((a.setWidth 16).signExtend 64) ∧ gives (.zext o) ((a.setWidth 16).setWidth 64)) ∧
      (o.funct = 2#3 → gives (.sext o) ((a.setWidth 32).signExtend 64) ∧ gives (.zext o) ((a.setWidth 32).setWidth 64))) ∧
    (s.Clear (s.scalarUse o false true false true false [s.sIdx o.d]) → gives (.movl o) b) ∧
    (s.Clear (s.scalarUse o true true true true false [s.sIdx o.d]) →
      ∃ v : W64, gives (.bfi o) v ∧
        ∀ j, j < 64 → v.getLsbD j =
          if b.toNat % 64 ≤ j ∧ j ≤ b.toNat % 64 + b.toNat / 64 % 64 then a.getLsbD (j - b.toNat % 64) else d.getLsbD j)

/-- The division forms: truncation toward zero, the two corners, and no trap and no flag on any operand (R190, R192). -/
def Obligations.ScalarDivisionResults : Prop :=
  ∀ (s : State) (o : ScalarOp),
    s.Live → s.bnd.lat.regs.pGet o.guard.toNat = true → s.Clear (s.scalarUse o true true false false false [s.sIdx o.d]) →
    let a := s.rdS o.a
    let b := s.opB o
    let gives (i : Instr) (v : W64) : Prop := Gives (exec i s) s [(s.aluDelay o 20, .regs [.s (s.sIdx o.d) v], 0#6)]
    (b = 0#64 → gives (.div o) (BitVec.allOnes 64) ∧ gives (.divn o) (BitVec.allOnes 64) ∧ gives (.rem o) a ∧ gives (.remn o) a) ∧
    (a = BitVec.intMin 64 ∧ b = BitVec.allOnes 64 → gives (.div o) (BitVec.intMin 64) ∧ gives (.rem o) 0#64) ∧
    (b ≠ 0#64 →
      gives (.div o) (BitVec.ofInt 64 (a.toInt.tdiv b.toInt)) ∧ gives (.rem o) (BitVec.ofInt 64 (a.toInt - b.toInt * a.toInt.tdiv b.toInt)) ∧
      gives (.divn o) (BitVec.ofNat 64 (a.toNat / b.toNat)) ∧ gives (.remn o) (BitVec.ofNat 64 (a.toNat - b.toNat * (a.toNat / b.toNat))))

/-- `cmp` lands its predicate at +1, `fcmp` at +4 with its flags, and `lix` the index of a level the stack holds; a level it does not hold is an
illegal operand (R194, R196, R198). -/
def Obligations.CompareAndLoopIndex : Prop :=
  ∀ (s : State) (o : ScalarOp), s.Live → s.bnd.lat.regs.pGet o.guard.toNat = true →
    let a := s.rdS o.a
    let b := s.opB o
    let p := o.d.toNat % 8
    (s.Clear (s.scalarUse o true true false true false []) →
      let gives (c : Bool) : Prop := Gives (exec (.cmp o) s) s [(s.aluDelay o 1, .regs [.p p c], 0#6)]
      (o.funct = 0#3 → gives (decide (a = b))) ∧ (o.funct = 1#3 → gives (decide (a ≠ b))) ∧
      (o.d.getLsbD 4 = false →
        (o.funct = 2#3 → gives (decide (a.toInt < b.toInt))) ∧ (o.funct = 3#3 → gives (decide (a.toInt ≤ b.toInt))) ∧
        (o.funct = 4#3 → gives (decide (b.toInt < a.toInt))) ∧ (o.funct = 5#3 → gives (decide (b.toInt ≤ a.toInt)))) ∧
      (o.d.getLsbD 4 = true →
        (o.funct = 2#3 → gives (decide (a.toNat < b.toNat))) ∧ (o.funct = 3#3 → gives (decide (a.toNat ≤ b.toNat))) ∧
        (o.funct = 4#3 → gives (decide (b.toNat < a.toNat))) ∧ (o.funct = 5#3 → gives (decide (b.toNat ≤ a.toNat)))) ∧
      Gives (exec (.fcmp o) s) s
        [(s.aluDelay o 4, .regs [.p p (fpCond fp32 s.bnd.lat.il o.funct.toNat (a.toNat % 2 ^ 32) (b.toNat % 2 ^ 32)).1],
          (fpCond fp32 s.bnd.lat.il o.funct.toNat (a.toNat % 2 ^ 32) (b.toNat % 2 ^ 32)).2)]) ∧
    (s.Clear (s.scalarUse o false false false true false [s.sIdx o.d]) →
      (∀ l, s.bnd.lat.loops[o.funct.toNat]? = some l →
        Gives (exec (.lix o) s) s [(s.aluDelay o 1, .regs [.s (s.sIdx o.d) (l.index.setWidth 64)], 0#6)]) ∧
      (s.bnd.lat.loops.length ≤ o.funct.toNat →
        exec (.lix o) s = .next (s.accept (s.scalarUse o false false false true false [s.sIdx o.d])).illegalOperand))

/-- The FP32 forms: one rounding, the result zero-extended with its flags; `min` and `max` do not round (R195–R197). The rounding mode is that of
FUNCT with element index 0. -/
def Obligations.ScalarFloatResults : Prop :=
  ∀ (s : State) (o : ScalarOp), s.Live → s.bnd.lat.regs.pGet o.guard.toNat = true →
    let rs := o.funct == 4#3
    let a := (s.rdS o.a).toNat % 2 ^ 32
    let b := (s.opB o).toNat % 2 ^ 32
    let d := (s.rdS o.d).toNat % 2 ^ 32
    let il := s.bnd.lat.il
    let mode (u : SlotUse) : RMode := rmodeOf o.funct.toNat ((s.core s.bnd.core).csrGet 0x003) (s.accept u).sq 0
    let gives (i : Instr) (nominal : Nat) (r : FpRes) : Prop :=
      Gives (exec i s) s [(s.aluDelay o nominal, .regs [.s (s.sIdx o.d) (BitVec.ofNat 64 r.bits)], r.fl)]
    (let u := s.scalarUse o true true false true rs [s.sIdx o.d]
     s.Clear u →
      gives (.fadd o) 4 (fpAdd fp32 (mode u) il a b) ∧ gives (.fsub o) 4 (fpSub fp32 (mode u) il a b) ∧
      gives (.fmul o) 4 (fpMul fp32 (mode u) il a b) ∧ gives (.fmin o) 4 (fpMinMax fp32 il false a b) ∧ gives (.fmax o) 4 (fpMinMax fp32 il true a b)) ∧
    (let u := s.scalarUse o true true true true rs [s.sIdx o.d]
     s.Clear u → gives (.ffma o) 4 (fpFma fp32 (mode u) il false false a b d)) ∧
    (let u := s.scalarUse o true false false true rs [s.sIdx o.d]
     s.Clear u →
      Gives (exec (.fcvt o) s) s
        [(s.aluDelay o 3, .regs [.s (s.sIdx o.d) (fcvtResult o.b.toNat (mode u) il (s.rdS o.a)).1],
          (fcvtResult o.b.toNat (mode u) il (s.rdS o.a)).2)])

/-- A scalar or control operation whose guard reads 0 performs nothing (R119, R190): it occupies its unit, as every released operation does (R111, R114;
the model's reading, log entry 79), and nothing else changes, but that a transfer has its two delay bundles, taken or not (R200). A control form also
needs its place to be legal (R201). That a dead unit and an illegal place are found before the guard, and that the guarded-off transfer has delay
bundles, is the model's reading (log entry 17). Predicate 0 reads 1, so GUARD = 0 always executes (R39, R119). -/
def Obligations.GuardOff : Prop :=
  (∀ r : RegFile, r.pGet 0 = true) ∧ ∀ (s : State) (o : ScalarOp),
    s.bnd.probing = false → s.flips = [] → s.bnd.lat.regs.pGet o.guard.toNat = false → s.mapNow.keyState o.unit.toNat ≠ 3 →
    let taken (hold : Nat) : State :=
      s.modCore s.bnd.core (fun c => { c with units := tblSet o.unit.toNat (2 * (s.cycle + 1) + hold) c.units })
    (∀ i ∈ [Instr.div o, .divn o, .rem o, .remn o], exec i s = .next (taken 0)) ∧
    (∀ i ∈ [Instr.add o, .sub o, .mul o, .mulh o, .mulhn o, .and o, .or o, .xor o, .andn o, .shl o, .shr o, .sra o,
        .rot o, .clz o, .popc o, .min o, .max o, .minn o, .maxn o, .sext o, .zext o, .bfx o, .bfi o, .lea o, .mov o, .movl o, .sel o,
        .cmp o, .fadd o, .fsub o, .fmul o, .ffma o, .fmin o, .fmax o, .fcmp o, .fcvt o, .lix o], exec i s = .next (taken 1)) ∧
    ((s.core s.bnd.core).seq.inDelay = false →
      (∀ i ∈ [Instr.loop o, .loopx o], exec i s = .next (taken 1)) ∧
      (crossesBoundary (s.core s.bnd.core).seq.loops s.bnd.lat.pc = false →
        ∀ i ∈ [Instr.br o, .bc o, .jmp o, .callRelative o, .callRegister o, .ret o],
          exec i s = .next { taken 1 with bnd := { s.bnd with ctl := { s.bnd.ctl with form := true } } }))

/-! ### Control forms (R199–R204) -/

/-- The transfers: each gives its bundle two delay bundles, records its target for the bundle after the second where it is taken, changes the return
stack as R200 says, and nothing else; a full or empty return stack is a call-depth trap and a malformed register target an illegal operand (R162, R199, R200).
That a `bc` that is not taken has its two delay bundles all the same is the model's reading (log entry 17). -/
def Obligations.Transfers : Prop :=
  ∀ (s : State) (o : ScalarOp), s.bnd.lat.regs.pGet o.guard.toNat = true →
    (s.core s.bnd.core).seq.inDelay = false → crossesBoundary (s.core s.bnd.core).seq.loops s.bnd.lat.pc = false →
    let seq := (s.core s.bnd.core).seq
    let form : State := { s with bnd := { s.bnd with ctl := { s.bnd.ctl with form := true } } }
    let relative := s.bnd.lat.pc + ((s.lit (o.b.toNat % 16)).signExtend 48) * 64#48
    let goes (i : Instr) (target : Option (BitVec 48)) (rets : List (BitVec 48)) : Prop :=
      ∃ t, exec i s = .next t ∧ Results s t [] ∧ Around s t ∧ t.ropes = s.ropes ∧ Inside (s.core s.bnd.core) (t.core s.bnd.core) ∧
        (t.core s.bnd.core).seq = { seq with rets := rets } ∧
        t.bnd.ctl = (match target with
          | some a => { s.bnd.ctl with form := true, taken := some a }
          | none => { s.bnd.ctl with form := true })
    (let u := s.scalarUse o false false false true false []
     s.Clear u →
      goes (.br o) (some relative) seq.rets ∧
      (seq.rets.length < 8 → goes (.callRelative o) (some relative) ((s.bnd.lat.pc + 192#48) :: seq.rets)) ∧
      (8 ≤ seq.rets.length → exec (.callRelative o) s = .next ((form.accept u).slotFault 22 0 true [])) ∧
      (∀ a rest, seq.rets = a :: rest → goes (.ret o) (some a) rest) ∧
      (seq.rets = [] → exec (.ret o) s = .next ((form.accept u).slotFault 22 0 true []))) ∧
    (let u := s.scalarUse o true false false true false []
     let v := s.rdS o.a
     s.Clear u →
      (condInt o.funct.toNat v.toInt 0 = true → (o.d.getLsbD 0 && s.bnd.lat.cmptFail) = false → goes (.bc o) (some relative) seq.rets) ∧
      ((condInt o.funct.toNat v.toInt 0 = false ∨ (o.d.getLsbD 0 && s.bnd.lat.cmptFail) = true) → goes (.bc o) none seq.rets) ∧
      (v.toNat < 2 ^ 48 ∧ v.toNat % 64 = 0 →
        goes (.jmp o) (some (v.setWidth 48)) seq.rets ∧
        (seq.rets.length < 8 → goes (.callRegister o) (some (v.setWidth 48)) ((s.bnd.lat.pc + 192#48) :: seq.rets)) ∧
        (8 ≤ seq.rets.length → exec (.callRegister o) s = .next ((form.accept u).slotFault 22 0 true []))) ∧
      (¬ (v.toNat < 2 ^ 48 ∧ v.toNat % 64 = 0) →
        exec (.jmp o) s = .next (form.accept u).illegalOperand ∧ exec (.callRegister o) s = .next (form.accept u).illegalOperand))

/-- `loop` in the order of R203: the operand cases, the count, the depth, then the push; `loopx` pops its levels or is an illegal operand (R163, R203,
R204). -/
def Obligations.LoopForms : Prop :=
  ∀ (s : State) (o : ScalarOp), s.bnd.lat.regs.pGet o.guard.toNat = true → (s.core s.bnd.core).seq.inDelay = false →
    let c := s.core s.bnd.core
    let offset := s.lit (o.b.toNat % 16)
    let stop := s.bnd.lat.pc + (offset.signExtend 48) * 64#48
    let count := (s.rdS o.a).setWidth 32
    let outside : Prop := ∃ l rest, c.seq.loops = l :: rest ∧ (l.stop ++ 0#6).toNat ≤ stop.toNat
    (let u := s.scalarUse o true false false true false []
     let v := s.accept u
     s.Clear u →
      (offset.toInt < 1 ∨ outside → exec (.loop o) s = .next v.illegalOperand) ∧
      (1 ≤ offset.toInt → ¬ outside →
        (count = 0#32 → exec (.loop o) s = .next { v with bnd := { v.bnd with ctl := { v.bnd.ctl with jump := some (stop + 64#48) } } }) ∧
        (count ≠ 0#32 → 6 ≤ c.seq.loops.length → exec (.loop o) s = .next (v.slotFault 22 0 true [])) ∧
        (count ≠ 0#32 → c.seq.loops.length < 6 →
          ∃ t, exec (.loop o) s = .next t ∧ Around s t ∧ t.ropes = s.ropes ∧ t.bnd.ctl = s.bnd.ctl ∧
            (t.core s.bnd.core).seq.loops =
              { start := (s.bnd.lat.pc + 64#48).extractLsb' 6 42, stop := stop.extractLsb' 6 42, count := count, index := 0#32,
                rot := o.funct.getLsbD 0, pre := o.funct.getLsbD 1, il := o.funct.getLsbD 2 } :: c.seq.loops ∧
            (t.core s.bnd.core).regs.p = (if o.funct.getLsbD 0 then (c.regs.p &&& 0x0F#8) ||| 0x10#8 else c.regs.p) ∧
            (t.core s.bnd.core).regs.s = c.regs.s ∧ (t.core s.bnd.core).regs.v = c.regs.v ∧ (t.core s.bnd.core).regs.q = c.regs.q))) ∧
    (let u := s.scalarUse o false false false true false []
     s.Clear u →
      (c.seq.loops.length < o.funct.toNat + 1 → exec (.loopx o) s = .next (s.accept u).illegalOperand) ∧
      (o.funct.toNat + 1 ≤ c.seq.loops.length →
        ∃ t, exec (.loopx o) s = .next t ∧ Around s t ∧ t.ropes = s.ropes ∧ Inside c (t.core s.bnd.core) ∧ t.bnd.ctl = s.bnd.ctl ∧
          (t.core s.bnd.core).seq.loops = c.seq.loops.drop (o.funct.toNat + 1) ∧ (t.core s.bnd.core).seq.rrb = c.seq.rrb ∧
          (t.core s.bnd.core).seq.ilLeave = (c.seq.ilLeave || (c.seq.loops.take (o.funct.toNat + 1)).any (fun l => l.il)) ∧
          (t.core s.bnd.core).seq.rets = c.seq.rets))

/-- No control form stands in a delay bundle of a transfer, taken or not, and no transfer stands where its delay bundles would cross the iteration boundary of the innermost
level: each is an illegal instruction of its slot (R201). That it is so whatever the guard reads, and whether or not the transfer is taken, is the
model's reading (log entry 17). -/
def Obligations.ControlInDelayBundle : Prop :=
  ∀ (s : State) (o : ScalarOp),
    ((s.core s.bnd.core).seq.inDelay = true →
      ∀ i ∈ [Instr.br o, .bc o, .jmp o, .callRelative o, .callRegister o, .ret o, .loop o, .loopx o], exec i s = .next s.illegalInstruction) ∧
    (∀ l rest, (s.core s.bnd.core).seq.loops = l :: rest →
      (l.stop ++ 0#6 = s.bnd.lat.pc + 64#48 ∨ l.stop ++ 0#6 = s.bnd.lat.pc + 128#48) →
      ∀ i ∈ [Instr.br o, .bc o, .jmp o, .callRelative o, .callRegister o, .ret o], exec i s = .next s.illegalInstruction)

/-! ### Vector forms (R227–R241) -/

/-- Elementwise arithmetic: each element is the float operation rounded to nearest even, or the integer operation modulo its width (R206, R228, R231,
R232). Lanes whose predicate bit is 0 are not written. -/
def Obligations.VectorArithmetic : Prop :=
  ∀ (s : State) (o : VecOp), s.Live →
    let ty := o.ty.toNat
    let w := typeWidth ty
    let fm := typeFmt ty
    let il := s.bnd.lat.il
    let reg := s.vreg o.d.toNat
    let q : Nat → BitVec 16 := fun p => s.qAt p o.q.toNat
    let A : Nat → Nat → W32 := fun p i => s.vAt p (s.vreg o.a.toNat) i
    let B : Nat → Nat → W32 := fun p i => s.vecB o p i
    let D : Nat → Nat → W32 := fun p i => s.vAt p reg i
    let int (x : Int) : FpRes := { bits := (x % (2 ^ w : Nat)).toNat, fl := 0#6 }
    let val (x : W32) (j : Nat) : Int := intElem ty (elemAt w j x)
    let two (i : Instr) (nominal : Nat) (ff : Nat → Nat → FpRes) (fi : Int → Int → Int) : Prop :=
      s.WritesLanes i (s.colDelay o.unit.toNat nominal) reg q (fun p k => perElem w (fun j =>
        if typeFloat ty then ff (elemAt w j (A p k)) (elemAt w j (B p k)) else int (fi (val (A p k) j) (val (B p k) j))))
    let fused (i : Instr) (negProd negAdd : Bool) : Prop :=
      s.WritesLanes i (s.colDelay o.unit.toNat 4) reg q (fun p k => perElem w (fun j =>
        fpFma fm .rne il negProd negAdd (elemAt w j (A p k)) (elemAt w j (B p k)) (elemAt w j (D p k))))
    (s.Clear (s.vecUse o (srcAB o) [o.d.toNat] [] [] false) →
      two (.vadd o) 2 (fpAdd fm .rne il) (fun a b => a + b) ∧ two (.vsub o) 2 (fpSub fm .rne il) (fun a b => a - b) ∧
      two (.vmul o) 4 (fpMul fm .rne il) (fun a b => a * b) ∧
      two (.vmulh o) 4 (fpMul fm .rne il) (fun a b => a * b / (2 ^ w : Nat)) ∧
      two (.vmin o) 2 (fpMinMax fm il false) (fun a b => if a ≤ b then a else b) ∧
      two (.vmax o) 2 (fpMinMax fm il true) (fun a b => if a ≤ b then b else a)) ∧
    (s.Clear (s.vecUse o [o.a.toNat] [o.d.toNat] [] [] false) →
      s.WritesLanes (.vabs o) (s.colDelay o.unit.toNat 2) reg q (fun p k => perElem w (fun j =>
        if typeFloat ty then { bits := elemAt w j (A p k) % fm.signBit, fl := 0#6 } else int (((val (A p k) j).natAbs : Nat) : Int))) ∧
      s.WritesLanes (.vneg o) (s.colDelay o.unit.toNat 2) reg q (fun p k => perElem w (fun j =>
        if typeFloat ty then { bits := (elemAt w j (A p k) + fm.signBit) % (2 * fm.signBit), fl := 0#6 } else int (-(val (A p k) j))))) ∧
    (s.Clear (s.vecUse o (srcAB o ++ [o.d.toNat]) [o.d.toNat] [] [] false) →
      fused (.vfma o) false false ∧ fused (.vfms o) false true ∧ fused (.vfnma o) true false ∧
      s.WritesLanes (.vclamp o) (s.colDelay o.unit.toNat 2) reg q (fun p k => perElem w (fun j =>
        if typeFloat ty then
          let lo := fpMinMax fm il true (elemAt w j (A p k)) (elemAt w j (B p k))
          let hi := fpMinMax fm il false lo.bits (elemAt w j (D p k))
          { hi with fl := hi.fl ||| lo.fl }
        else int (smaller (larger (val (A p k) j) (val (B p k) j)) (val (D p k) j)))) ∧
      s.WritesLanes (.vdot o) (s.colDelay o.unit.toNat 3) reg q (fun p k => dotLane ty il (A p k) (B p k) (D p k)))

/-- Logic, shifts and moves: whole lanes or elements, no flag (R234, R235, R237). A shift's amount is taken modulo the element width. -/
def Obligations.VectorLogicAndMoves : Prop :=
  ∀ (s : State) (o : VecOp), s.Live →
    let ty := o.ty.toNat
    let w := typeWidth ty
    let reg := s.vreg o.d.toNat
    let q : Nat → BitVec 16 := fun p => s.qAt p o.q.toNat
    let A : Nat → Nat → W32 := fun p i => s.vAt p (s.vreg o.a.toNat) i
    let B : Nat → Nat → W32 := fun p i => s.vecB o p i
    let lanes (i : Instr) (mask : Nat → BitVec 16) (f : Nat → Nat → W32) : Prop :=
      s.WritesLanes i (s.colDelay o.unit.toNat 2) reg mask (fun p k => (f p k, 0#6))
    let shift (i : Instr) (f : Nat → Nat → Nat) : Prop :=
      s.WritesLanes i (s.colDelay o.unit.toNat 2) reg q (fun p k => perElem w (fun j =>
        { bits := f (elemAt w j (A p k)) (elemAt w j (B p k) % w), fl := 0#6 }))
    (s.Clear (s.vecUse o (srcAB o) [o.d.toNat] [] [] false) →
      lanes (.vand o) q (fun p k => A p k &&& B p k) ∧ lanes (.vor o) q (fun p k => A p k ||| B p k) ∧
      lanes (.vxor o) q (fun p k => A p k ^^^ B p k) ∧
      lanes (.vsel o) (fun _ => 0xFFFF#16) (fun p k => if (q p).getLsbD k then A p k else B p k) ∧
      lanes (.vperm o) q (fun p k => A p ((B p k).toNat % 16)) ∧
      lanes (.vrot o) q (fun p k => A p ((k + (B p 0).toNat % 16) % 16)) ∧
      shift (.vshl o) (fun x n => x * 2 ^ n % 2 ^ w) ∧ shift (.vshr o) (fun x n => x / 2 ^ n) ∧
      shift (.vsra o) (fun x n => (signedOf w x / (2 ^ n : Nat) % (2 ^ w : Nat)).toNat)) ∧
    (s.Clear (s.vecUse o [o.a.toNat] [o.d.toNat] [] [] false) →
      lanes (.vnot o) q (fun p k => ~~~(A p k)) ∧ lanes (.vmov o) q A) ∧
    (s.Clear (s.vecUse o [] [o.d.toNat] [] (if o.l = 0#1 then [o.b.toNat] else []) false) →
      let x := if o.l = 0#1 then (s.rdPlain o.b).toNat else (s.lit (o.b.toNat % 16)).toNat
      s.WritesLanes (.vsplat o) (s.colDelay o.unit.toNat 1) reg q (fun _ _ =>
        ((perElem w (fun _ => { bits := x % 2 ^ w, fl := 0#6 })).1, 0#6)))

/-- The compares write one lane predicate: of each enabled cluster the bits of the enabled lanes, 1 where the condition holds for every element of the
lane (R233). -/
def Obligations.VectorCompare : Prop :=
  ∀ (s : State) (o : VecOp), s.Live → s.Clear (s.vecUse o (srcAB o) [] [o.d.toNat % 8] [] false) →
    ∀ e ∈ [(Instr.vceq o, 0), (Instr.vcne o, 1), (Instr.vclt o, 2), (Instr.vcle o, 3)],
      let holds (p k : Nat) : Bool × FpFlags :=
        laneCond o.ty.toNat e.2 s.bnd.lat.il (s.vAt p (s.vreg o.a.toNat) k) (s.vecB o p k)
      ∃ (ws : List (Nat × BitVec 16 × BitVec 16)) (fl : FpFlags),
        Gives (exec e.1 s) s [(s.colDelay o.unit.toNat 2, .regs (ws.map (fun x => .q x.1 x.2.1 x.2.2)), fl)] ∧
        (∀ x ∈ ws, ∃ c, c < 8 ∧ s.bnd.lat.cmask.getLsbD c = true ∧ x.1 = qKey (s.bm.phys c) (o.d.toNat % 8) ∧
          x.2.1 = s.qAt (s.bm.phys c) o.q.toNat ∧
          ∀ k, k < 16 → x.2.2.getLsbD k = (x.2.1.getLsbD k && (holds (s.bm.phys c) k).1)) ∧
        (∀ c, c < 8 → s.bnd.lat.cmask.getLsbD c = true → ∃ x ∈ ws, x.1 = qKey (s.bm.phys c) (o.d.toNat % 8))

/-- Conversions, reductions, scans and the scaled formats: the words they put into lanes of their destination registers, in the enabled clusters alone,
landing together at the form's delay (R229, R230, R236, R239–R241). An unaligned register group, or an odd pair of a draw, is an illegal operand. -/
def Obligations.VectorGroupForms : Prop :=
  ∀ (s : State) (o : VecOp), s.Live →
    let a := o.a.toNat
    let d := o.d.toNat
    let ty := o.ty.toNat
    let code := o.b.toNat
    let il := s.bnd.lat.il
    let delay (nominal : Nat) : Nat := s.colDelay o.unit.toNat nominal
    let q : Nat → BitVec 16 := fun p => s.qAt p o.q.toNat
    let src : Nat → Nat → W32 := fun p i => s.vAt p (s.vreg a) i
    let every : LaneOut → Bool := fun _ => true
    let enabled (c : Nat) : Prop := c < 8 ∧ s.bnd.lat.cmask.getLsbD c = true
    let out (c r i : Nat) (w : W32) (fl : FpFlags) : LaneOut := { cluster := c, phys := s.bm.phys c, reg := s.vreg r, lane := i, w := w, fl := fl }
    (let ns := cvtSrcs code
     let nd := cvtDsts code
     let w := cvtWidth code
     let u := s.vecUse o ((List.range ns).map (fun j => a + j)) ((List.range nd).map (fun j => d + j)) [] [] (o.ty == 4#3)
     let word (c i k : Nat) : W32 × FpFlags := perElem w (fun j =>
       cvtElem code il (rmodeOf ty ((s.core s.bnd.core).csrGet 0x003) (s.accept u).sq ((16 * c + i) * (32 / w) + j))
         (fun n => s.vAt (s.bm.phys c) (s.vreg (a + n)) i) k j)
     (a % ns ≠ 0 ∨ d % nd ≠ 0 → exec (.vcvt o) s = .next s.illegalOperand) ∧
     (a % ns = 0 → d % nd = 0 → s.Clear u →
       s.WritesGroup (.vcvt o) (delay 3) every (fun x => ∃ c i k, enabled c ∧ i < 16 ∧ (q (s.bm.phys c)).getLsbD i = true ∧ k < nd ∧
         x = out c (d + k) i (word c i k).1 (word c i k).2))) ∧
    (s.Clear (s.vecUse o [a] [d] [] [] false) →
      let combine := redCombine (typeFloat ty) code il
      let ins (c : Nat) : List FpRes := redInputs ty code il (q (s.bm.phys c)) (src (s.bm.phys c))
      let sum (c : Nat) : FpRes := nth { bits := 0, fl := 0#6 } (treeReduce combine 5 (ins c)) 0
      let prefix_ (c i : Nat) : FpRes := nth { bits := 0, fl := 0#6 } (scanFrom combine (redIdentity (typeFloat ty) code) (ins c)) i
      s.WritesGroup (.vred o) (delay 6) every (fun x => ∃ c, enabled c ∧ x = out c d 0 (BitVec.ofNat 32 (sum c).bits) (sum c).fl) ∧
      s.WritesGroup (.vscan o) (delay 8) every (fun x => ∃ c i, enabled c ∧ i < 16 ∧
        x = out c d i (BitVec.ofNat 32 (prefix_ c i).bits) (prefix_ c i).fl)) ∧
    (let n := mxWidth code
     let fm := typeFmt ty
     let raw (c : Nat) : List Nat := (List.range 32).map (fun k =>
       if ty = 0 then (s.vAt (s.bm.phys c) (s.vreg (a + k / 16)) (k % 16)).toNat else elemAt 16 (k % 2) (src (s.bm.phys c) (k / 2)))
     let ins (c : Nat) : List (FpVal × FpFlags) := (raw c).map (fpRead fm il)
     let block (c : Nat) : Nat × List Int × FpFlags := mxQuant n ((ins c).map (·.1))
     let flags (c : Nat) : FpFlags := ((ins c).map (·.2)).foldl (fun acc e => acc ||| e) (block c).2.2
     let written : LaneOut → Bool := fun x => (q x.phys).getLsbD x.lane
     (ty = 0 → a % 2 ≠ 0 → exec (.vquant o) s = .next s.illegalOperand) ∧
     ((ty = 0 → a % 2 = 0) → s.Clear (s.vecUse o (if ty = 0 then [a, a + 1] else [a]) [d] [] [] false) →
       s.WritesGroup (.vquant o) (delay 3) written (fun x => ∃ c i, enabled c ∧ i < 16 ∧
         x = out c d i (quantWord n (block c).1 (block c).2.1 i) (if i = 0 then flags c else 0#6)))) ∧
    (let n := mxWidth code
     let one (c k : Nat) : FpRes := deqElem n (typeFmt ty) il (src (s.bm.phys c)) k
     let two (c i : Nat) : W32 × FpFlags := perElem 16 (fun j => one c (2 * i + j))
     (ty = 0 → d % 2 ≠ 0 → exec (.vdeq o) s = .next s.illegalOperand) ∧
     (ty = 0 → d % 2 = 0 → s.Clear (s.vecUse o [a] [d, d + 1] [] [] false) →
       s.WritesGroup (.vdeq o) (delay 3) every (fun x => ∃ c i h, enabled c ∧ i < 16 ∧ (q (s.bm.phys c)).getLsbD i = true ∧ h < 2 ∧
         x = out c (d + h) i (BitVec.ofNat 32 (one c (i + 16 * h)).bits) (one c (i + 16 * h)).fl)) ∧
     (ty ≠ 0 → s.Clear (s.vecUse o [a] [d] [] [] false) →
       s.WritesGroup (.vdeq o) (delay 3) every (fun x => ∃ c i, enabled c ∧ i < 16 ∧ (q (s.bm.phys c)).getLsbD i = true ∧
         x = out c d i (two c i).1 (two c i).2))) ∧
    (d % 2 ≠ 0 → exec (.vdraw o) s = .next s.illegalOperand)

/-- The draws write a record in lanes 0 and 1 of their register pair in every enabled cluster: `vdraw` its cluster's own, ten cycles later; `xdraw` one
merged record in all, a root of zero mass with the sentinel INDEX and Z (R273, R279–R283). An odd pair, a bad base, or records that do not merge are an illegal
operand. Subnormal log2-masses of `xdraw` are operands as of any computational form: in exposed code they read as zero and raise D (R211, R212); that this
holds for a record that meets no sibling too is the model's reading (log entry 52). -/
def Obligations.Draws : Prop :=
  (∀ (s : State) (o : VecOp), s.Live → o.d.toNat % 2 = 1 → exec (.vdraw o) s = .next s.illegalOperand) ∧
  (∀ (s : State) (o : XfOp), s.Live → o.d.toNat % 2 = 1 ∨ o.a.toNat % 2 = 1 → exec (.xdraw o) s = .next s.illegalOperand) ∧
  (∀ (s : State) (o : VecOp), s.Live → o.d.toNat % 2 = 0 →
    let d := o.d.toNat
    let w := if o.ty = 0#3 then 16 else 32
    let base (c : Nat) : Nat := (s.vAt (s.bm.phys c) (s.vreg o.b.toNat) 1).toNat
    let u := s.vecUse o [o.a.toNat, o.b.toNat] [d, d + 1] [] [] false
    s.Clear u →
    ((∃ c, c < 8 ∧ s.bnd.lat.cmask.getLsbD c = true ∧ (base c % w ≠ 0 ∨ 0xFFFFFF00 < base c + w)) →
      exec (.vdraw o) s = .next (s.accept u).illegalOperand) ∧
    ((∀ c, c < 8 → s.bnd.lat.cmask.getLsbD c = true → base c % w = 0 ∧ base c + w ≤ 0xFFFFFF00) →
      ∃ (ws : List RegWrite) (fl : FpFlags), Gives (exec (.vdraw o) s) s [(s.colDelay o.unit.toNat 10, .regs ws, fl)] ∧
        (∀ j, j < 6 → (fl.getLsbD j = true ↔ ∃ c, c < 8 ∧ s.bnd.lat.cmask.getLsbD c = true ∧
          (let p := s.bm.phys c
           let il := s.bnd.lat.il
           let desc := s.drawDesc p (s.vreg o.b.toNat)
           let mode := drawMode il desc.temp
           mode.2.getLsbD j = true ∨ (mode.1 ≠ .invalid ∧
             ((j = 1 ∧ (s.drawCluster o p).1.emptyRoot desc.root = true) ∨
              ∃ i k, i < 16 ∧ k < typeElems o.ty.toNat ∧ (s.qAt p o.q.toNat).getLsbD i = true ∧
                (drawLeaf il (typeFmt o.ty.toNat) mode.1 (elemAt (typeWidth o.ty.toNat) k (s.vAt p (s.vreg o.a.toNat) i))).2.getLsbD j = true))))) ∧
        ∀ x, x ∈ ws ↔ ∃ c, c < 8 ∧ s.bnd.lat.cmask.getLsbD c = true ∧
          (let p := s.bm.phys c
           let r := (s.drawCluster o p).1
           x ∈ [RegWrite.v (vKey p (s.vreg d) 0) (BitVec.ofNat 32 r.lm), .v (vKey p (s.vreg (d + 1)) 0) (BitVec.ofNat 32 r.index),
             .v (vKey p (s.vreg d) 1) (BitVec.ofNat 32 r.start), .v (vKey p (s.vreg (d + 1)) 1) r.lvf]))) ∧
  (∀ (s : State) (o : XfOp), s.Live → o.d.toNat % 2 = 0 → o.a.toNat % 2 = 0 →
    let d := o.d.toNat
    let a := o.a.toNat
    let ps := s.clusters.map s.bm.phys
    let u : SlotUse :=
      { reach := ps.map xfKey, units := ps.map xfKey,
        reads := s.vecKeys ps [a, a + 1] [o.q.toNat] ++ s.vecKeys [s.bm.phys o.c1.toNat] [o.b.toNat] [],
        writes := s.vecKeys ps [d, d + 1] [], holds := true, rs := false }
    let desc := s.drawDesc (s.bm.phys o.c1.toNat) (s.vreg o.b.toNat)
    let ins := (List.range 8).map (fun c =>
      let p := s.bm.phys c
      if s.bnd.lat.cmask.getLsbD c && (s.qAt p o.q.toNat).getLsbD 0 then
        some (drawOf (s.vAt p (s.vreg a) 0) (s.vAt p (s.vreg (a + 1)) 0) (s.vAt p (s.vreg a) 1) (s.vAt p (s.vreg (a + 1)) 1))
      else none)
    let subnormal (x : DrawRec) : Bool := !s.bnd.lat.il && decide (0 < x.lm % 2 ^ 31) && decide (x.lm % 2 ^ 31 < 2 ^ 23)
    let read (x : DrawRec) : DrawRec := if subnormal x then { x with lm := x.lm / 2 ^ 31 * 2 ^ 31 } else x
    let raised (x : DrawRec) : FpFlags := if 0x7F800000 < x.lm % 2 ^ 31 then flV else if subnormal x then flD else 0#6
    let given : FpFlags := ins.foldl (fun acc x => match x with | some y => acc ||| raised y | none => acc) 0#6
    let merged := drawRounds desc.seed desc.drawid 3 (ins.map (fun x => x.map read))
    s.Clear u →
    (∀ r, merged = some [some r] →
      let out := r.rooted desc.root
      Gives (exec (.xdraw o) s) s (s.clusters.map (fun c =>
        let p := s.bm.phys c
        (s.xfDelay p 14, Effect.regs
          [.v (vKey p (s.vreg d) 0) (BitVec.ofNat 32 out.lm), .v (vKey p (s.vreg (d + 1)) 0) (BitVec.ofNat 32 out.index),
           .v (vKey p (s.vreg d) 1) (BitVec.ofNat 32 out.start), .v (vKey p (s.vreg (d + 1)) 1) out.lvf],
         if s.clusters.head? = some c then (if r.emptyRoot desc.root then given ||| flZ else given) else 0#6)))) ∧
    ((∀ r, merged ≠ some [some r]) → exec (.xdraw o) s = .next (s.accept u).illegalOperand))

/-! ### Special functions and cross-cluster forms (R243–R245) -/

/-- The nine functions: each element of each enabled lane, correctly rounded, eight cycles later at the unit's own rate and adder; in an `.il` body
subnormals keep their value (R212, R214, R243). -/
def Obligations.SpecialFunctions : Prop :=
  ∀ (s : State) (o : XfOp), s.Live → s.Clear (s.xfUse o [o.a.toNat] s.clusters [o.d.toNat]) →
    let w := typeWidth o.ty.toNat
    ∀ e ∈ [(Instr.xexp2 o, 1), (Instr.xlog2 o, 2), (Instr.xrcp o, 3), (Instr.xrsq o, 4), (Instr.xsqrt o, 5), (Instr.xtanh o, 6), (Instr.xsig o, 7),
        (Instr.xsin o, 8), (Instr.xcos o, 9)],
      s.WritesByCluster e.1 (fun p => s.xfDelay p 8) (s.vreg o.d.toNat) (fun p => s.qAt p o.q.toNat)
        (fun p k => perElem w (fun j => xFunction e.2 (typeFmt o.ty.toNat) s.bnd.lat.il (elemAt w j (s.vAt p (s.vreg o.a.toNat) k))))

/-- `xfer` and `xbcast` move lanes of another cluster, whatever that cluster's enable; `xred` lands the tree's result in lane 0 of every enabled
cluster (R244, R245). -/
def Obligations.CrossCluster : Prop :=
  ∀ (s : State) (o : XfOp), s.Live →
    let reg := s.vreg o.d.toNat
    let q : Nat → BitVec 16 := fun p => s.qAt p o.q.toNat
    let on : List Nat := (List.range 8).filter (fun c => s.bnd.lat.cmask.getLsbD c && q (s.bm.phys c) != 0#16)
    let moves (i : Instr) (src : Nat → Nat) (delay : Nat → Nat → Nat) : Prop :=
      Gives (exec i s) s (on.map (fun c =>
        let p := s.bm.phys c
        (delay p (s.bm.phys (src c)),
          .regs (((List.range 16).filter (fun k => (q p).getLsbD k)).map (fun k => .v (vKey p reg k) (s.vAt (s.bm.phys (src c)) (s.vreg o.a.toNat) k))),
          0#6)))
    (let src : Nat → Nat := fun c => (c + o.c1.toNat) % 8
     s.Clear (s.xfUse o [o.a.toNat] (s.clusters.map src) [o.d.toNat]) →
      moves (.xfer o) src (fun p from_ => s.xfDelay p 4 + s.bm.distance p from_)) ∧
    (s.Clear (s.xfUse o [o.a.toNat] (s.clusters.map (fun _ => o.c1.toNat)) [o.d.toNat]) →
      moves (.xbcast o) (fun _ => o.c1.toNat) (fun p _ => s.xfDelay p 5)) ∧
    (s.Clear (s.xfUse o [o.a.toNat] s.clusters [o.d.toNat]) →
      ∃ rs : List (Nat × Effect × FpFlags), Gives (exec (.xred o) s) s rs ∧
        rs.map (fun x => (x.1, x.2.1)) = s.clusters.map (fun c =>
          (s.xfDelay (s.bm.phys c) 10, Effect.regs [.v (vKey (s.bm.phys c) reg 0) (BitVec.ofNat 32
            (nth { bits := 0, fl := 0#6 } (treeReduce (redCombine true o.b.toNat s.bnd.lat.il) 3 ((List.range 8).map (fun c' =>
              if s.bnd.lat.cmask.getLsbD c' && (q (s.bm.phys c')).getLsbD 0 then
                { bits := (s.vAt (s.bm.phys c') (s.vreg o.a.toNat) 0).toNat, fl := 0#6 }
              else { bits := redIdentity true o.b.toNat, fl := 0#6 }))) 0).bits)])))

/-! ### Transposing units (R270–R272) -/

/-- `trow`, `tclr` and `tmode` act at +1 in each enabled cluster; `tcol` captures a full block, or reads the last capture once it is ready, and lands the
column; a unit that can do neither is a timing fault, and a row above 15 or another element size an illegal operand (R270–R272). -/
def Obligations.Transposer : Prop :=
  ∀ (s : State) (o : XtOp), s.Live →
    let c := s.core s.bnd.core
    let bad : Prop := o.idx.getLsbD 4 = true ∨ ∃ k ∈ s.clusters, (c.xtUnit (s.bm.phys k)).esize ≠ o.esize
    let eff (nominal : Nat) (e : Nat → Effect) : List (Nat × Effect × FpFlags) :=
      s.clusters.map (fun k => (s.xtDelay (s.bm.phys k) nominal, e (s.bm.phys k), 0#6))
    (bad → exec (.trow o) s = .next s.illegalOperand ∧ exec (.tcol o) s = .next s.illegalOperand) ∧
    (¬ bad → s.Clear (s.xtUse [o.v.toNat] []) →
      Gives (exec (.trow o) s) s (eff 1 (fun p => .xtRow o.idx.toNat [(p, s.vRow p (s.vreg o.v.toNat))]))) ∧
    (s.Clear (s.xtUse [] []) →
      Gives (exec (.tclr o) s) s (eff 1 (fun p => .xtClear [p] none)) ∧
      Gives (exec (.tmode o) s) s (eff 1 (fun p => .xtClear [p] (some o.esize)))) ∧
    (¬ bad → s.Clear (s.xtUse [] [o.v.toNat]) →
      let unit (k : Nat) : Machine.Transposer := c.xtUnit (s.bm.phys k)
      let ready (k : Nat) : Prop := (unit k).capV = true ∧ (unit k).capCycle + 15 ≤ s.cycle
      ((∃ k ∈ s.clusters, (unit k).mask ≠ 0xFFFF#16 ∧ ¬ ready k) → exec (.tcol o) s = .next ((s.accept (s.xtUse [] [o.v.toNat])).timingFault 12)) ∧
      ((∀ k ∈ s.clusters, (unit k).mask = 0xFFFF#16) → s.clusters.Nodup → (s.clusters.map s.bm.phys).Nodup →
        ∃ t, exec (.tcol o) s = .next t ∧ Around s t ∧ t.ropes = s.ropes ∧ t.bnd.ctl = s.bnd.ctl ∧ (t.core s.bnd.core).regs = c.regs ∧
          Results s t (s.clusters.map (fun k =>
            (s.xtDelay (s.bm.phys k) 16,
              .regs ((List.range 16).map (fun i => .v (vKey (s.bm.phys k) (s.vreg o.v.toNat) i)
                (BitVec.ofNat 32 (leNat (cut 4 (cut (4 * i) (xtColumn (unit k).block (unit k).esize o.idx.toNat)).2).1)))), 0#6))) ∧
          ∀ k ∈ s.clusters, (t.core s.bnd.core).xtUnit (s.bm.phys k) =
            { unit k with capture := (unit k).block, mask := 0#16, capV := true, capCycle := s.cycle }) ∧
      ((∀ k ∈ s.clusters, (unit k).mask ≠ 0xFFFF#16 ∧ ready k) → (s.clusters.map s.bm.phys).Nodup →
        ∃ t, exec (.tcol o) s = .next t ∧ Around s t ∧ t.ropes = s.ropes ∧ (t.core s.bnd.core).regs = c.regs ∧
          Results s t (s.clusters.map (fun k =>
            (s.xtDelay (s.bm.phys k) 2,
              .regs ((List.range 16).map (fun i => .v (vKey (s.bm.phys k) (s.vreg o.v.toNat) i)
                (BitVec.ofNat 32 (leNat (cut 4 (cut (4 * i) (xtColumn (unit k).capture (unit k).esize o.idx.toNat)).2).1)))), 0#6)))))

/-! ### Matrix forms (R249–R269) -/

/-- The matrix forms whose only effect is a result in flight, started in lockstep or with an empty matrix queue: `mpush` and `mpush.t` a row of 96 bytes
at +2, `mwr` a tile row at +4, `mclr` zeros at +2, and `mfmt`, `mfsel` and `mscq` theirs at +1, `mscq` on the entries of the `ldsc`s issued before it; and the operands on which each is illegal, busy or short
(R252, R254, R255, R265, R266, R268, R269). -/
def Obligations.MatrixMoves : Prop :=
  ∀ (s : State), s.Live → s.MxDirect →
    let c := s.core s.bnd.core
    (∀ o : MpushOp,
      (o.a.toNat % 2 = 1 → exec (.mpush o) s = .next s.illegalOperand) ∧
      (o.a.toNat % 2 = 0 → s.Clear (mxUse (s.clusterKeys o.c.toNat [o.a.toNat, o.a.toNat + 1]) []) →
        Gives (exec (.mpush o) s) s
          [(2, .rowBuffer o.row.toNat (s.vBytes o.c.toNat o.a.toNat ++ (s.vBytes o.c.toNat (o.a.toNat + 1)).take 32), 0#6)])) ∧
    (∀ o : MpushTOp,
      let x := c.xtUnit (s.bm.phys o.c.toNat)
      let y := c.xtUnit (s.bm.phys (o.c.toNat + 1))
      (o.c.toNat % 2 = 1 → exec (.mpushT o) s = .next s.illegalOperand) ∧
      (o.c.toNat % 2 = 0 → s.Clear (mxUse [] []) → x.readable s.cycle = true → y.readable s.cycle = true →
        Gives (exec (.mpushT o) s) s
          [(2, .rowBuffer o.row.toNat (xtColumn x.capture x.esize o.col.toNat ++ (xtColumn y.capture y.esize o.col.toNat).take 32), 0#6)]) ∧
      (o.c.toNat % 2 = 0 → s.Clear (mxUse [] []) → (x.readable s.cycle = false ∨ y.readable s.cycle = false) →
        exec (.mpushT o) s = .next ((s.accept (mxUse [] [])).timingFault 12))) ∧
    (∀ o : MrowOp,
      let u := mxUse (s.clusterKeys o.c.toNat [o.v.toNat, o.v.toNat + 1]) []
      (o.v.toNat % 2 = 1 ∨ 191 < o.tile.toNat ∨ (o.i = 1#1 ∧ s.bnd.lat.loops = []) → exec (.mwr o) s = .next s.illegalOperand) ∧
      (o.v.toNat % 2 = 0 → o.tile.toNat ≤ 191 → (o.i = 1#1 → s.bnd.lat.loops ≠ []) → s.Clear u →
        (c.tilesBusy o.tile.toNat 1 = false →
          Gives (exec (.mwr o) s) s
            [(s.arrayDelay 4, .writeRow o.tile.toNat (s.mxRow o)
              ((List.range 32).map (fun k => s.vAt (s.bm.phys o.c.toNat) (s.vreg (o.v.toNat + k / 16)) (k % 16))), 0#6)]) ∧
        (c.tilesBusy o.tile.toNat 1 = true → c.timedContext = false → exec (.mwr o) s = .next ((s.accept u).timingFault 6)))) ∧
    (∀ o : MclrOp,
      let t := o.tile.toNat
      let n := o.nm1.toNat + 1
      (192 < t + n → exec (.mclr o) s = .next s.illegalOperand) ∧
      (t + n ≤ 192 → s.Clear (mxUse [] []) →
        (c.tilesBusy t n = false → Gives (exec (.mclr o) s) s [(2, .clearTiles t n, 0#6)]) ∧
        (c.tilesBusy t n = true → c.timedContext = false → exec (.mclr o) s = .next ((s.accept (mxUse [] [])).timingFault 6)))) ∧
    (∀ (e : BitVec 6) (r : BitVec 5), s.Clear (mxUse [r.toNat] []) →
      let v := s.bnd.lat.regs.sGet r.toNat
      let legal : Prop := v.toNat < 2 ^ 21 ∧ v.getLsbD 4 = false ∧ fmtA v ≠ 3 ∧ fmtB v ≠ 3 ∧
        (v.getLsbD 5 = true → fmtBlocks v ≤ fmtP v ∧ (v.getLsbD 12 = true ∨ fmtP v ≤ safeRun (fmtA v) (fmtB v)))
      (legal → Gives (exec (.mfmt e r) s) s [(1, .format e.toNat v, 0#6)]) ∧
      (¬ legal → exec (.mfmt e r) s = .next ((s.accept (mxUse [r.toNat] [])).illegalOperand))) ∧
    (∀ (l : BitVec 3) (b : BitVec 6), s.Clear (mxUse [] []) → Gives (exec (.mfsel l b) s) s [(1, .binding l.toNat b.toNat, 0#6)]) ∧
    (∀ n : BitVec 6,
      let before := s.bnd.queued.getD s.cycle
      let held := (c.mx.scaleIssue.filter (fun i => decide (i < before))).length +
        ((s.scalesInFlight s.bnd.core).filter (fun x => decide (x.2.1 < before))).length
      (32 < n.toNat → exec (.mscq n) s = .next s.illegalOperand) ∧
      (n.toNat ≤ 32 → s.Clear (mxUse [] []) →
        (n.toNat ≤ held → Gives (exec (.mscq n) s) s [(1, .discardScales (if n = 0#6 then held else n.toNat), 0#6)]) ∧
        (held < n.toNat → exec (.mscq n) s = .next ((s.accept (mxUse [] [])).slotFault 8 0 true []))))

/-- `mrd` reads one tile row as it starts and lands it in a register pair, which is pending until then; an odd register, a tile above 191 or `.i` outside
any loop is an illegal operand, and a busy tile a timing fault in lockstep (R44, R262, R265, R268). -/
def Obligations.MatrixRead : Prop :=
  ∀ (s : State) (o : MrowOp), s.Live → s.MxDirect →
    let c := s.core s.bnd.core
    let keys := s.clusterKeys o.c.toNat [o.v.toNat, o.v.toNat + 1]
    let u := mxUse [] keys
    (o.v.toNat % 2 = 1 ∨ 191 < o.tile.toNat ∨ (o.i = 1#1 ∧ s.bnd.lat.loops = []) → exec (.mrd o) s = .next s.illegalOperand) ∧
    (o.v.toNat % 2 = 0 → o.tile.toNat ≤ 191 → (o.i = 1#1 → s.bnd.lat.loops ≠ []) → s.Clear u →
      (c.tilesBusy o.tile.toNat 1 = false →
        ∃ t, exec (.mrd o) s = .next t ∧ Around s t ∧ t.ropes = s.ropes ∧ t.bnd.ctl = s.bnd.ctl ∧
          Results s t [(s.arrayDelay 6,
            .regs ((List.range 32).map (fun k =>
              .v (vKey (s.bm.phys o.c.toNat) (s.vreg (o.v.toNat + k / 16)) (k % 16)) (c.mx.elem o.tile.toNat (s.mxRow o) k))), 0#6)] ∧
          (t.core s.bnd.core).regs = c.regs ∧ (t.core s.bnd.core).csr = c.csr ∧
          (t.core s.bnd.core).mx = { c.mx with pendingV := c.mx.pendingV ++ keys.map (fun k => k - 1000) }) ∧
      (c.tilesBusy o.tile.toNat 1 = true → c.timedContext = false → exec (.mrd o) s = .next ((s.accept u).timingFault 6)))

/-- `mmac` and `mmac.f` with nothing in their way: one result per row of A, landing at the array's rate from +13 on, the scale entries popped, the array
busy for the rows, and in run mode the run opened or continued; and the checks of R267 in their order: the operand, the array, the tiles, the run length,
the scale queue (R249, R252, R255–R257, R260, R261, R267). -/
def Obligations.MatrixMultiply : Prop :=
  ∀ (s : State) (o : MmacOp), s.Live → s.MxDirect → s.Clear (mxUse [o.cs.toNat] []) →
    let c := s.core s.bnd.core
    let v := s.bnd.lat.regs.sGet o.cs.toNat
    let t := o.tile.toNat
    let n := o.mm1.toNat + 1
    let a := s.accept (mxUse [o.cs.toNat] [])
    ∀ x ∈ [(Instr.mmac o, some o.fmt.toNat), (Instr.mmacF o, s.boundEntry)],
      (x.2 = none → exec x.1 s = .next a.illegalOperand) ∧
      (∀ i, x.2 = some i →
        let run := c.mx.run
        let cont := fmtRun (c.mx.entry i) && run.isOpen
        let e := if cont then run.entry else c.mx.entry i
        let need := if fmtRun e then (if cont then 0 else (n + 63) / 64) else (n * fmtBlocks e + 63) / 64
        let legal : Prop := v &&& ~~~0x7F03FF#64 = 0#64 ∧ (cont = true → run.rt = t ∧ run.rm = n ∧ run.re = i) ∧ fmtA e ≠ 3 ∧ fmtB e ≠ 3 ∧
          t + fmtTiles e ≤ 192
        let inRun : Prop := fmtRun e = true → (if cont then run.count else 0) + fmtBlocks e ≤ fmtP e
        let held := c.mx.scaleQ.length
        (¬ legal → exec x.1 s = .next a.illegalOperand) ∧
        (legal → s.cycle < c.mx.arrayFree → c.timedContext = false → exec x.1 s = .next (a.timingFault 7)) ∧
        (legal → c.mx.arrayFree ≤ s.cycle → c.groupBusy t (fmtTiles e) = true → c.timedContext = false → exec x.1 s = .next (a.timingFault 6)) ∧
        (legal → c.mx.arrayFree ≤ s.cycle → c.groupBusy t (fmtTiles e) = false →
          (¬ inRun → exec x.1 s = .next (a.slotFault 16 0 true [])) ∧
          (inRun → held < need →
            (held + (s.scalesInFlight s.bnd.core).length < need → exec x.1 s = .next (a.slotFault 8 0 true [])) ∧
            (need ≤ held + (s.scalesInFlight s.bnd.core).length → c.timedContext = false → exec x.1 s = .next (a.timingFault 8))) ∧
          (inRun → need ≤ held →
            let scales := (c.mx.scaleQ.take need).flatten
            let opened : MatrixRun :=
              { isOpen := true, rt := t, rm := n, re := i, entry := e, count := fmtBlocks e, ovf := false, rsa := scales.take n, rsb := [], inner := [] }
            ∃ s', exec x.1 s = .next s' ∧ Around s s' ∧ s'.ropes = s.ropes ∧ s'.bnd.ctl = s.bnd.ctl ∧ (s'.core s.bnd.core).regs = c.regs ∧
              (s'.core s.bnd.core).csr = c.csr ∧
              Results s s' ((List.range n).map (fun m =>
                (s.arrayDelay (13 + m),
                  .mmacRow { op := s.nextId, tile := t, m := m, lastRow := decide (m + 1 = n), rowIdx := (v.toNat / 2 ^ 16 % 128 + m) % 128,
                             chunk := v.toNat % 1024, entry := e,
                             scales := if fmtRun e then [] else (scales.drop (m * fmtBlocks e)).take (fmtBlocks e),
                             run := fmtRun e, ovf := false, capAt := s.cycle + 1 + m, arow := none }, 0#6))) ∧
              (s'.core s.bnd.core).mx = { c.mx with
                scaleQ := c.mx.scaleQ.drop need, scaleIssue := c.mx.scaleIssue.drop need, arrayFree := s.cycle + n,
                run := if fmtRun e = false then run
                  else if cont then { run with count := run.count + fmtBlocks e }
                  else opened })))

/-- `mprom` with no run open has no effect; with one it lands the promoted elements of the whole group at once, eight cycles later at the array's rate,
and closes the run; `.chk` with OVF set is an accumulator overflow that changes no tile (R257, R258). -/
def Obligations.Promotion : Prop :=
  ∀ (s : State) (chk : BitVec 1), s.Live → s.MxDirect → s.Clear (mxUse [] []) →
    let c := s.core s.bnd.core
    let r := c.mx.run
    let n := fmtTiles r.entry
    let a := s.accept (mxUse [] [])
    (r.isOpen = false → Gives (exec (.mprom chk) s) s []) ∧
    (r.isOpen = true →
      (s.cycle < c.mx.arrayFree → c.timedContext = false → exec (.mprom chk) s = .next (a.timingFault 7)) ∧
      (c.mx.arrayFree ≤ s.cycle → c.tilesBusy r.rt n = true → c.timedContext = false → exec (.mprom chk) s = .next (a.timingFault 6)) ∧
      (c.mx.arrayFree ≤ s.cycle → c.tilesBusy r.rt n = false →
        (chk = 1#1 → r.ovf = true → exec (.mprom chk) s = .next (a.slotFault 15 0 true [])) ∧
        (chk = 0#1 ∨ r.ovf = false →
          ∃ (t : State) (vals : List (Nat × W32)) (fl : FpFlags),
            exec (.mprom chk) s = .next t ∧ Around s t ∧ t.ropes = s.ropes ∧ t.bnd.ctl = s.bnd.ctl ∧ (t.core s.bnd.core).regs = c.regs ∧
            (t.core s.bnd.core).csr = c.csr ∧ (t.core s.bnd.core).mx = { c.mx with run := .reset } ∧
            Results s t [(s.arrayDelay 8, .promote r.rt n vals r.ovf, fl)] ∧
            ∀ k w, (k, w) ∈ vals ↔ ∃ m j, m < r.rm ∧ j < fmtN r.entry ∧ k = tileKey (r.rt + j / 32) m (j % 32) ∧
              w = BitVec.ofNat 32 (fpAdd fp32 .rne false (c.mx.elem (r.rt + j / 32) m (j % 32)).toNat
                (partialVal r.entry (nth 0#8 r.rsa m).toNat (nth 0#8 r.rsb j).toNat (tblGet 0 (m * 192 + j) r.inner)).bits).bits)))

/-! ### Loads and stores (R138–R158) -/

/-- The statically timed loads: the checks of R143 in order, then the access with its bank read at issue + 2 and its tap at issue + t. `ldsc` also needs
room in the scale queue (R51, R53, R57, R143, R145–R147). -/
def Obligations.StaticLoads : Prop :=
  ∀ (s : State),
    let core := s.bnd.core
    let st := loadStation core
    let time (segs : List Nat) : Nat := segsTime (s.coreRope core) segs
    let events (tap : Nat) : List Due :=
      [{ at_ := s.cycle + 2, prio := 3, ev := .loadTap (coreId core) s.nextId }, { at_ := s.cycle + tap, prio := 4, ev := .loadTap (coreId core) s.nextId }]
    let line (lane : Nat) (a : W64) : List Nat := pathSegs lane (2 * (a.toNat / 64 % 16)) (2 * st + 1)
    let bank (a : W64) : List (Nat × Nat) := [(a.toNat / 64 % 16, s.cycle + 2)]
    (∀ o : LdOp, o.il = 0#1 →
      let a := s.rdPlain o.a
      let segs := line o.lane.toNat a
      s.PadAccess (.ld o) (portUse [o.a.toNat] [o.d.toNat]) a (2 ^ o.size.toNat) [1] segs none
        { s.newAccess (.ld o.size.toNat (o.sx == 1#1)) (a.toNat % 2 ^ 23) o.lane.toNat o.tap.toNat st with
            dest := o.d.toNat, lanes := 0#16, travel := time segs, banks := bank a } (events o.tap.toNat)) ∧
    (∀ o : VldOp, o.il = 0#1 → o.h = 0#1 →
      let a := s.rdPlain o.a
      let p := s.bm.phys o.c.toNat
      let segs := line o.lane.toNat a
      s.PadAccess (.vld o) (portUse [o.a.toNat] [vRegKey p (s.vreg o.d.toNat)]) a 64 [1] segs none
        { s.newAccess .vld (a.toNat % 2 ^ 23) o.lane.toNat o.tap.toNat st with
            dest := s.vreg o.d.toNat, phys := p, travel := time segs, banks := bank a } (events o.tap.toNat)) ∧
    (∀ o : VmaskOp,
      let a := s.rdPlain o.a
      let p := s.bm.phys o.c.toNat
      let segs := line o.lane.toNat a
      s.PadAccess (.vlds o) (portUse (o.a.toNat :: (if o.q = 0#3 then [] else [10000 + qKey p o.q.toNat])) [vRegKey p (s.vreg o.v.toNat)]) a 64 [1] segs
        none
        { s.newAccess .vlds (a.toNat % 2 ^ 23) o.lane.toNat o.tap.toNat st with
            dest := s.vreg o.v.toNat, phys := p, lanes := s.qAt p o.q.toNat, travel := time segs, banks := bank a } (events o.tap.toNat)) ∧
    (∀ o : VwinOp,
      let a := s.rdPlain o.a
      let p := s.bm.phys o.c.toNat
      let v := s.vreg o.v.toNat
      let far := if o.lane.toNat < 8 then (2 * st + 2) % 32 else 2 * st
      let segs := pathSegs o.lane.toNat far (2 * st + 1)
      s.PadAccess (.vgat o) (portUse [o.a.toNat, vRegKey p v] [vRegKey p v]) a 1024 [1] segs none
        { s.newAccess .vgat (a.toNat % 2 ^ 23) o.lane.toNat o.tap.toNat st with
            dest := v, phys := p, idx := (List.range 16).map (fun i => (s.vAt p v i).toNat % 256), travel := time segs,
            banks := (List.range 16).map (fun b => (b, s.cycle + 2)) } (events o.tap.toNat)) ∧
    (∀ o : LdscOp, (s.core core).mx.scaleQ.length + (s.scalesInFlight core).length < 32 →
      let a := s.rdPlain o.a
      let segs := line o.lane.toNat a
      s.PadAccess (.ldsc o) (portUse [o.a.toNat] []) a 64 [1] segs none
        { s.newAccess .ldsc (a.toNat % 2 ^ 23) o.lane.toNat o.tap.toNat st with lanes := 0#16, travel := time segs, banks := bank a } (events o.tap.toNat))

/-- A tagged `vld`: an odd base register or a check register with other bits set is an illegal operand; a faulted or foreign handle, or a line outside it,
a handle fault; a handle that is not full, or another tag on the core's first check, a schedule fault; otherwise the load, with the core's CHK bit set
(R65, R68, R142, R145). -/
def Obligations.TaggedLoads : Prop :=
  ∀ (s : State) (o : VldOp), o.h = 1#1 → o.il = 0#1 →
    let core := s.bnd.core
    let rope := ropeOf core
    let p := s.bm.phys o.c.toNat
    let reg := s.vreg o.d.toNat
    let a := s.rdPlain o.a
    let chk := s.rdPlain (o.a + 1#5)
    let h := chk.toNat / 2 ^ 16
    let x := (s.rope rope).handle h
    let u := portUse [o.a.toNat, o.a.toNat + 1] [vRegKey p reg]
    let line := a.toNat % 2 ^ 23 / 64
    let segs := pathSegs o.lane.toNat (2 * (a.toNat / 64 % 16)) (2 * loadStation core + 1)
    let acc : Access := { s.newAccess .vld (a.toNat % 2 ^ 23) o.lane.toNat o.tap.toNat (loadStation core) with
      dest := reg, phys := p, travel := segsTime (s.coreRope core) segs, banks := [(a.toNat / 64 % 16, s.cycle + 2)] }
    (o.a.toNat % 2 = 1 → exec (.vld o) s = .next s.illegalOperand) ∧
    (o.a.toNat % 2 = 0 → s.Clear u →
      (2 ^ 22 ≤ chk.toNat → exec (.vld o) s = .next (s.accept u).illegalOperand) ∧
      (chk.toNat < 2 ^ 22 → a.toNat % 64 = 0 → addrCode s.sec.members [1] a = 0 →
        let bad : Prop := s.handleOwned core h = false ∨ x.st = .faulted ∨ line < x.base ∨ x.base + x.len < line
        let first : Prop := x.chk.getLsbD (core % 4) = false ∧ x.tag ≠ chk.setWidth 16
        (bad → exec (.vld o) s = .next ((s.accept u).slotFault 9 0 true [])) ∧
        (¬ bad → x.st ≠ .full →
          exec (.vld o) s = .next ((s.accept u).slotFault 6 0 true [(0x010, sfinfoWord 6 0 0#6 0#6 0 0 h)])) ∧
        (¬ bad → x.st = .full → first →
          exec (.vld o) s = .next ((s.accept u).slotFault 6 0 true [(0x010, sfinfoWord 5 0 0#6 0#6 (chk.toNat % 2 ^ 16) x.tag.toNat h)])) ∧
        (¬ bad → x.st = .full → ¬ first →
          s.laneFault rope o.lane.toNat (s.pathOf o.lane.toNat (loadStation core) segs) none o.tap.toNat = none →
          (s.rope rope).bankFault (loadStation core) acc.banks = none →
          ∃ t, exec (.vld o) s = .next t ∧ Around s t ∧ (∀ j, t.core j = s.core j) ∧
            (t.rope rope).accs = (s.rope rope).accs ++ [acc] ∧ ((t.rope rope).handle h) = { x with chk := setBit x.chk (core % 4) true } ∧
            (∀ k, k ≠ h → (t.rope rope).handle k = (s.rope rope).handle k) ∧
            ∀ d ∈ [({ at_ := s.cycle + 2, prio := 3, ev := .loadTap (coreId core) s.nextId } : Due),
              { at_ := s.cycle + o.tap.toNat, prio := 4, ev := .loadTap (coreId core) s.nextId }], d ∈ t.agenda)))

/-- The statically timed stores: the checks of R143 in order, the arrival named by the instruction among them, then the access with the bytes it writes and
a write at each of its banks' cycles. A store with the completer `.g` in a bundle whose `cmpt` differs does nothing (R51, R53, R57, R143, R148–R150). -/
def Obligations.StaticStores : Prop :=
  ∀ (s : State),
    let core := s.bnd.core
    let st := storeStation core
    let m := s.coreRope core
    let path (lane b : Nat) : List Nat := pathSegs lane (2 * st + 1) (2 * b)
    let stores (i : Instr) (u : SlotUse) (a : W64) (n lane tap : Nat) (kind : AccKind) (segs : List Nat) (banks : List (Nat × Nat))
        (wr : List (Nat × Byte)) : Prop :=
      s.PadAccess i u a n [1] segs (some (2 + segsTime m segs))
        { s.newAccess kind (a.toNat % 2 ^ 23) lane tap st with travel := segsTime m segs, wr := wr, banks := banks }
        (banks.map (fun b => { at_ := b.2, prio := 3, ev := .storeBankWrite (coreId core) s.nextId (BitVec.ofNat 4 b.1) }))
    let bank (a : W64) : Nat := a.toNat / 64 % 16
    let word (a : W64) (p v i : Nat) : List (Nat × Byte) := bytesAt (a.toNat % 2 ^ 23 + 4 * i) (leBytes 4 (s.vAt p v i).toNat)
    (∀ o : StOp, o.il = 0#1 →
      let a := s.rdPlain o.a
      (o.g = 1#1 ∧ s.bnd.lat.cmptFail = true → exec (.st o) s = .next s) ∧
      (o.g = 0#1 ∨ s.bnd.lat.cmptFail = false →
        stores (.st o) (portUse [o.s.toNat, o.a.toNat] []) a (2 ^ o.size.toNat) o.lane.toNat o.tap.toNat .st (path o.lane.toNat (bank a))
          [(bank a, s.cycle + o.tap.toNat)] (bytesAt (a.toNat % 2 ^ 23) (leBytes (2 ^ o.size.toNat) (s.rdPlain o.s).toNat)))) ∧
    (∀ o : VstOp, o.il = 0#1 →
      let a := s.rdPlain o.a
      let p := s.bm.phys o.c.toNat
      let v := s.vreg o.s.toNat
      (o.g = 1#1 ∧ s.bnd.lat.cmptFail = true → exec (.vst o) s = .next s) ∧
      (o.g = 0#1 ∨ s.bnd.lat.cmptFail = false →
        stores (.vst o) (portUse [o.a.toNat, vRegKey p v] []) a 64 o.lane.toNat o.tap.toNat .vst (path o.lane.toNat (bank a))
          [(bank a, s.cycle + o.tap.toNat)] ((List.range 16).flatMap (word a p v)))) ∧
    (∀ o : VmaskOp,
      let a := s.rdPlain o.a
      let p := s.bm.phys o.c.toNat
      let v := s.vreg o.v.toNat
      stores (.vsts o) (portUse ([o.a.toNat, vRegKey p v] ++ (if o.q = 0#3 then [] else [10000 + qKey p o.q.toNat])) []) a 64 o.lane.toNat o.tap.toNat .vsts
        (path o.lane.toNat (bank a)) [(bank a, s.cycle + o.tap.toNat)]
        (((List.range 16).filter (fun i => (s.qAt p o.q.toNat).getLsbD i)).flatMap (word a p v))) ∧
    (∀ o : VwinOp,
      let a := s.rdPlain o.a
      let p := s.bm.phys o.c.toNat
      let v := s.vreg o.v.toNat
      let idx := s.vreg (o.v.toNat + 1)
      let target (i : Nat) : Nat := (s.vAt p idx i).toNat % 256
      let last := if o.lane.toNat < 8 then 2 * st else (2 * st + 2) % 32
      (o.v.toNat % 2 = 1 → exec (.vsct o) s = .next s.illegalOperand) ∧
      (o.v.toNat % 2 = 0 →
        stores (.vsct o) (portUse [o.a.toNat, vRegKey p v, vRegKey p idx] []) a 1024 o.lane.toNat o.tap.toNat .vsct
          (pathSegs o.lane.toNat (2 * st + 1) last)
          ((List.range 16).map (fun b => (b, s.cycle + 2 + segsTime m (path o.lane.toNat b))))
          (((List.range 16).filter (fun i => (List.range 16).all (fun j => decide (j ≤ i) || target j != target i))).flatMap (fun i =>
            bytesAt (a.toNat % 2 ^ 23 + 4 * target i) (leBytes 4 (s.vAt p v i).toNat)))))

/-- The interlocked forms outside an `.il` loop are illegal instructions; inside one they name no bank cycle, and look for theirs from issue + 2 on, a tagged
load with its handle and tag (R142, R157). -/
def Obligations.InterlockedAccesses : Prop :=
  ∀ (s : State),
    let core := s.bnd.core
    let waits (i : Instr) (u : SlotUse) (x : Access) : Prop :=
      (s.bnd.lat.il = false → exec i s = .next s.illegalInstruction) ∧
      (s.bnd.lat.il = true → s.Clear u →
        Accepts (exec i s) s (s.rope (ropeOf core)) { x with interlocked := true }
          [{ at_ := s.cycle + 2, prio := 3, ev := .interlockedAccessPerform (coreId core) s.nextId }])
    (∀ o : LdOp, o.il = 1#1 →
      let a := s.rdPlain o.a
      waits (.ld o) (portUse [o.a.toNat] [o.d.toNat])
        { s.newAccess (.ld o.size.toNat (o.sx == 1#1)) (a.toNat % 2 ^ 23) o.lane.toNat 0 (loadStation core) with dest := o.d.toNat, cmp := a }) ∧
    (∀ o : VldOp, o.il = 1#1 → o.h = 0#1 →
      let a := s.rdPlain o.a
      let p := s.bm.phys o.c.toNat
      waits (.vld o) (portUse [o.a.toNat] [vRegKey p (s.vreg o.d.toNat)])
        { s.newAccess .vld (a.toNat % 2 ^ 23) o.lane.toNat 0 (loadStation core) with dest := s.vreg o.d.toNat, phys := p, cmp := a }) ∧
    (∀ o : VldOp, o.il = 1#1 → o.h = 1#1 →
      let a := s.rdPlain o.a
      let chk := s.rdPlain (o.a + 1#5)
      let p := s.bm.phys o.c.toNat
      let u := portUse [o.a.toNat, o.a.toNat + 1] [vRegKey p (s.vreg o.d.toNat)]
      (s.bnd.lat.il = false → exec (.vld o) s = .next s.illegalInstruction) ∧
      (s.bnd.lat.il = true →
        (o.a.toNat % 2 = 1 → exec (.vld o) s = .next s.illegalOperand) ∧
        (o.a.toNat % 2 = 0 → s.Clear u →
          (2 ^ 22 ≤ chk.toNat → exec (.vld o) s = .next (s.accept u).illegalOperand) ∧
          (chk.toNat < 2 ^ 22 →
            Accepts (exec (.vld o) s) s (s.rope (ropeOf core))
              { s.newAccess .vld (a.toNat % 2 ^ 23) o.lane.toNat 0 (loadStation core) with
                  dest := s.vreg o.d.toNat, phys := p, cmp := a, tagged := some (chk.toNat / 2 ^ 16, chk.setWidth 16), interlocked := true }
              [{ at_ := s.cycle + 2, prio := 3, ev := .interlockedAccessPerform (coreId core) s.nextId }])))) ∧
    (∀ o : StOp, o.il = 1#1 → s.suppressed o.g = false →
      let a := s.rdPlain o.a
      waits (.st o) (portUse [o.s.toNat, o.a.toNat] [])
        { s.newAccess .st (a.toNat % 2 ^ 23) o.lane.toNat (2 ^ o.size.toNat) (storeStation core) with
            wr := bytesAt (a.toNat % 2 ^ 23) (leBytes (2 ^ o.size.toNat) (s.rdPlain o.s).toNat), cmp := a }) ∧
    (∀ o : VstOp, o.il = 1#1 → s.suppressed o.g = false →
      let a := s.rdPlain o.a
      let p := s.bm.phys o.c.toNat
      let v := s.vreg o.s.toNat
      waits (.vst o) (portUse [o.a.toNat, vRegKey p v] [])
        { s.newAccess .vst (a.toNat % 2 ^ 23) o.lane.toNat 64 (storeStation core) with
            wr := (List.range 16).flatMap (fun i => bytesAt (a.toNat % 2 ^ 23 + 4 * i) (leBytes 4 (s.vAt p v i).toNat)), cmp := a })

/-- The atomics on the scratchpad: the checks of R143, then an access that reads its word at issue + 2 + travel and writes it at issue + 4 + 2 × travel
(R18, R51, R143, R152, R153). -/
def Obligations.ScratchpadAtomics : Prop :=
  ∀ (s : State) (o : AtomOp),
    let core := s.bnd.core
    let a := s.rdPlain o.a
    let st := storeStation core
    let segs := pathSegs o.lane.toNat (2 * st + 1) (2 * (a.toNat / 64 % 16))
    let w := segsTime (s.coreRope core) segs
    a.toNat / 2 ^ 60 ≠ 0 → a.toNat / 2 ^ 60 ≠ 5 →
    ∀ e ∈ [(Instr.aadd o, 6), (.amin o, 7), (.amax o, 8), (.axchg o, 9), (.acas o, 10), (.aand o, 11), (.aor o, 12), (.axor o, 13)],
      s.PadAccess e.1 (portUse ([o.s.toNat, o.a.toNat] ++ (if e.2 = 10 then [o.d.toNat] else [])) [o.d.toNat]) a 8 [0, 1, 5] segs (some (2 + w))
        { s.newAccess (.atomic e.2 (o.n == 1#1)) (a.toNat % 2 ^ 23) o.lane.toNat o.tap.toNat st with
            travel := w, dest := o.d.toNat, opnd := s.rdPlain o.s, cmp := s.rdPlain o.d,
            banks := [(a.toNat / 64 % 16, s.cycle + 2 + w), (a.toNat / 64 % 16, s.cycle + 4 + 2 * w)] }
        [{ at_ := s.cycle + 2 + w, prio := 3, ev := .scratchpadAtomicRead (coreId core) s.nextId },
          { at_ := s.cycle + 4 + 2 * w, prio := 3, ev := .scratchpadAtomicWrite (coreId core) s.nextId }]

/-- Far operations: at issue only registers, alignment and the count of outstanding operations are checked; the operation joins the core's queue with its
operands, and its request leaves later. `fence` takes a place in the order of the core's off-core accesses (R90, R144, R155, R156, R158). -/
def Obligations.FarOperations : Prop :=
  ∀ (s : State),
    let core := s.bnd.core
    let c := s.core core
    let far (i : Instr) (u : SlotUse) (a : W64) (n : Nat) (kind : FarKind) (data cmp : W64) (dest : Nat) : Prop :=
      s.Clear u →
        (a.toNat % n ≠ 0 → exec i s = .next ((s.accept u).slotFault 12 0 true [])) ∧
        (a.toNat % n = 0 → 32 ≤ c.outstanding → exec i s = .next ((s.accept u).timingFault 9)) ∧
        (a.toNat % n = 0 → c.outstanding < 32 →
          s.IssuesFar i kind a data cmp dest)
    (∀ o : LdgOp, far (.ldg o) (portUse [o.a.toNat] [o.d.toNat]) (s.rdPlain o.a) (2 ^ o.size.toNat) (.load o.size.toNat (o.sx == 1#1)) 0#64 0#64 o.d.toNat) ∧
    (∀ o : StgOp,
      (o.g = 1#1 ∧ s.bnd.lat.cmptFail = true → exec (.stg o) s = .next s) ∧
      (o.g = 0#1 ∨ s.bnd.lat.cmptFail = false →
        far (.stg o) (portUse [o.s.toNat, o.a.toNat] []) (s.rdPlain o.a) (2 ^ o.size.toNat) (.store o.size.toNat) (s.rdPlain o.s) 0#64 0)) ∧
    (∀ o : AtomOp, (s.rdPlain o.a).toNat / 2 ^ 60 = 0 ∨ (s.rdPlain o.a).toNat / 2 ^ 60 = 5 →
      ∀ e ∈ [(Instr.aadd o, 6), (.amin o, 7), (.amax o, 8), (.axchg o, 9), (.acas o, 10), (.aand o, 11), (.aor o, 12), (.axor o, 13)],
        far e.1 (portUse ([o.s.toNat, o.a.toNat] ++ (if e.2 = 10 then [o.d.toNat] else [])) [o.d.toNat]) (s.rdPlain o.a) 8 (.atomic e.2 (o.n == 1#1))
          (s.rdPlain o.s) (s.rdPlain o.d) o.d.toNat) ∧
    (∀ k : BitVec 3,
      (5 ≤ k.toNat → exec (.fence k) s = .next s.illegalInstruction) ∧
      (k.toNat < 5 → ∃ t, exec (.fence k) s = .next t ∧ Around s t ∧ t.ropes = s.ropes ∧ (c.far.nextSeq, s.cycle) ∈ (t.core core).far.fences ∧
        (t.core core).far.nextSeq = c.far.nextSeq + 1 ∧ (t.core core).far.ops = c.far.ops ∧ (t.core core).regs = c.regs ∧
        (t.core core).inflight = c.inflight))

/-- The barrier forms: with a region open or a bad operand an illegal operand; else the checks of R143 and an access that reads and writes its word.
`bar.arrive` needs a write cycle after the core's earlier writes and takes the latch; `bar.wait` gives it back (R69, R84, R308, R309, R311). -/
def Obligations.BarrierForms : Prop :=
  ∀ (s : State) (o : BarOp),
    let core := s.bnd.core
    let rope := ropeOf core
    let c := s.core core
    let a := s.rdPlain o.a
    let b := s.rdPlain o.b
    let st := storeStation core
    let segs := pathSegs o.lane.toNat (2 * st + 1) (2 * (a.toNat / 64 % 16))
    let w := segsTime (s.coreRope core) segs
    let banks := [(a.toNat / 64 % 16, s.cycle + 2 + w), (a.toNat / 64 % 16, s.cycle + 4 + 2 * w)]
    let acc (kind : AccKind) (opnd : W64) : Access :=
      { s.newAccess kind (a.toNat % 2 ^ 23) o.lane.toNat o.tap.toNat st with travel := w, opnd := opnd, banks := banks }
    let events : List Due := [{ at_ := s.cycle + 2 + w, prio := 3, ev := .barAccessRead (coreId core) s.nextId },
      { at_ := s.cycle + 4 + 2 * w, prio := 3, ev := .barAccessWrite (coreId core) s.nextId }]
    let one := portUse [o.a.toNat] []
    let two := portUse [o.a.toNat, o.b.toNat] []
    (s.Clear two → c.belay.regions ≠ [] ∨ b = 0#64 ∨ 2 ^ 16 ≤ b.toNat → exec (.barInit o) s = .next (s.accept two).illegalOperand) ∧
    (c.belay.regions = [] → b ≠ 0#64 → b.toNat < 2 ^ 16 → s.PadAccess (.barInit o) two a 8 [1] segs (some (2 + w)) (acc .barInit b) events) ∧
    (s.Clear one → c.belay.regions ≠ [] → exec (.barFini o) s = .next (s.accept one).illegalOperand ∧
      exec (.barArrive o) s = .next (s.accept one).illegalOperand) ∧
    (c.belay.regions = [] → s.PadAccess (.barFini o) one a 8 [1] segs (some (2 + w)) (acc .barFini 0#64) events) ∧
    (c.belay.regions = [] → s.Clear one → o.nw = 0#1 → c.latch.valid = true → exec (.barArrive o) s = .next (s.accept one).illegalOperand) ∧
    (c.belay.regions = [] → s.Clear one → (o.nw = 0#1 → c.latch.valid = false) → a.toNat % 8 = 0 → addrCode s.sec.members [1] a = 0 →
      s.laneFault rope o.lane.toNat (s.pathOf o.lane.toNat st segs) (some (2 + w)) o.tap.toNat = none → (s.rope rope).bankFault st banks = none →
      (s.writesAt core (s.cycle + 4 + 2 * w) = true → exec (.barArrive o) s = .next ((s.accept one).timingFault 10)) ∧
      (s.writesAt core (s.cycle + 4 + 2 * w) = false →
        ∃ t, exec (.barArrive o) s = .next t ∧ Around s t ∧
          t.rope rope = { (s.booked o.lane.toNat st segs banks) with accs := (s.rope rope).accs ++ [acc (.barArrive (o.nw == 1#1)) 0#64] } ∧
          (∀ d ∈ events, d ∈ t.agenda) ∧
          (t.core core).latch = (if o.nw = 1#1 then c.latch else { valid := true, addr := a, released := false, cycle := 0 }) ∧
          (t.core core).regs = c.regs ∧ (t.core core).csr = c.csr)) ∧
    (∀ r : BitVec 5, s.Clear (portUse [r.toNat] []) →
      let bad : Prop := c.belay.regions ≠ [] ∨ c.latch.valid = false ∨ c.latch.addr ≠ s.rdPlain r
      (bad → exec (.barWait r) s = .next (s.accept (portUse [r.toNat] [])).illegalOperand) ∧
      (¬ bad → ∃ t, exec (.barWait r) s = .next t ∧ Around s t ∧ t.ropes = s.ropes ∧
        t.core core = { c with latch := { c.latch with valid := false } }))

/-! ### Copy engines, handles and collective commands (R286–R299) -/

/-- The transfers: a malformed descriptor group is an illegal operand; then alignment, the addresses of both sides, the handle, and the start cycle or a
full buffer, each with its own fault; and with none of them the transfer waits in its engine's buffer for its start cycle, its handle filling
(R287, R289–R291). -/
def Obligations.EngineTransfers : Prop :=
  ∀ (s : State) (o : XferOp), ∀ e ∈ [(Instr.cpy o, 1), (.cpyb o, 2), (.bxfer o, 3), (.bxfer2 o, 4)],
    let core := s.bnd.core
    let rope := ropeOf core
    let op := e.2
    let two : Prop := op = 4
    let x := o.x.toNat
    let reg (i : Nat) : W64 := s.bnd.lat.regs.sGet (x + i)
    let len := (reg 2).toNat % 2 ^ 32
    let u := portUse ((List.range (if op = 4 then 7 else if op = 3 then 4 else 3)).map (fun i => x + i)) []
    let a := s.accept u
    let legal : Prop := x ≠ 0 ∧ x % (if op = 4 then 8 else 4) = 0 ∧ (reg 2).toNat / 2 ^ 32 % 2 ^ 16 = 0 ∧ len ≠ 0 ∧ len % 64 = 0 ∧
      (two → (reg 4).toNat < 2 ^ 16 ∧ (reg 4).toNat ≠ 0)
    let d : XferDesc :=
      { op := op, src := reg 0, dst := reg 1, tag := (reg 2 >>> 48).setWidth 16, len := len, rows := if op = 4 then (reg 4).toNat else 1,
        sstr := if op = 4 then (reg 5).toInt else 0, dstr := if op = 4 then (reg 6).toInt else 0, eng := o.e.toNat,
        root := (s.core core).csrGet 0x100 }
    let sides := sideCode s.sec.members (if op = 2 then [1] else [0, 1, 3, 4, 5]) d.src d.sstr d
    let sided := sideCode s.sec.members (if op = 2 then [2] else [0, 1, 2, 3, 4, 5]) d.dst d.dstr d
    let h := (s.rope rope).handle o.handle.toNat
    let bad : Prop := o.h = 1#1 ∧ (s.handleOwned core o.handle.toNat = false ∨ h.st ≠ .free ∨ (addrSpace d.dst = 1 ∧ h.covers d = false))
    let start := if op = 3 ∨ op = 4 then s.cycle / 2 ^ 64 * 2 ^ 64 + (reg 3).toNat else s.cycle + 4
    let waiting := (((s.rope rope).engine d.eng).tsb.filter (fun x => x.rank == 2)).length
    let whole : Prop := d.src.toNat % 64 = 0 ∧ d.dst.toNat % 64 = 0 ∧ d.sstr % 64 = 0 ∧ d.dstr % 64 = 0
    s.Clear u →
      (¬ legal → exec e.1 s = .next a.illegalOperand) ∧
      (legal → ¬ whole → exec e.1 s = .next (a.slotFault 12 0 true [])) ∧
      (legal → whole →
        (sides ≠ 0 → exec e.1 s = .next (a.addrFault sides d.src)) ∧
        (sides = 0 → sided ≠ 0 → exec e.1 s = .next (a.addrFault sided d.dst)) ∧
        (sides = 0 → sided = 0 →
          (bad → exec e.1 s = .next (a.slotFault 9 0 true [])) ∧
          (¬ bad → (start < s.cycle + 4 ∨ 32 ≤ waiting) → exec e.1 s = .next (a.timingFault 13)) ∧
          (¬ bad → s.cycle + 4 ≤ start → waiting < 32 →
            ∃ (t : State) (y : Xfer), exec e.1 s = .next t ∧ t.mem = s.mem ∧ t.bnd.faulted = s.bnd.faulted ∧
              (∀ j, j ≠ core → t.core j = s.core j) ∧
              t.core core = { s.core core with far := { (s.core core).far with nextSeq := (s.core core).far.nextSeq + 1 } } ∧
              y ∈ ((t.rope rope).engine d.eng).tsb ∧ y.desc = d ∧ y.s0 = start ∧ y.rank = 2 ∧ y.core = core ∧ y.issued = s.cycle ∧ y.began = false ∧
              y.handle = (if o.h = 1#1 then some o.handle.toNat else none) ∧
              (o.h = 1#1 → (t.rope rope).handle o.handle.toNat = { h with st := .filling, filler := 0 }) ∧
              (o.h = 0#1 → (t.rope rope).handles = (s.rope rope).handles) ∧
              ∃ w ∈ t.agenda, s.cycle ≤ w.at_ ∧ (w.ev = .transferBegin (ropeId rope) o.e ∨ w.ev = .writeBackBegin (ropeId rope) o.e))))

/-- The handle instructions: `hset` gives a free handle its range and write-back; `hwait` passes once the handle is full; `hrel` frees a full or faulted
one, or starts its write-back; `hprobe` lands whether the state matches. A foreign handle, or a state the form does not allow, is a handle fault, and
malformed operands of `hset` are an illegal operand (R65, R66, R288, R295–R297). -/
def Obligations.HandleForms : Prop :=
  ∀ (s : State),
    let core := s.bnd.core
    let rope := ropeOf core
    let r := s.rope rope
    let changes (i : Instr) (h : Nat) (x : Handle) : Prop :=
      ∃ t, exec i s = .next t ∧ Around s t ∧ (∀ j, t.core j = s.core j) ∧ (∀ k, k ≠ rope → t.rope k = s.rope k) ∧ t.rope rope = r.setHandle h x
    (∀ o : HsetOp,
      let u := portUse ([o.a.toNat, o.b.toNat] ++ (if o.wb = 1#1 then [o.c.toNat] else [])) []
      let h := o.handle.toNat
      let x := r.handle h
      let a := s.rdPlain o.a
      let b := (s.rdPlain o.b).toNat
      let c := s.rdPlain o.c
      let legal : Prop := addrCode s.sec.members [1] a = 0 ∧ a.toNat % 64 = 0 ∧ b ≠ 0 ∧ b % 64 = 0 ∧ a.toNat % 2 ^ 23 / 64 + b / 64 - 1 ≤ 131071 ∧
        (o.wb = 1#1 → (addrSpace c = 0 ∨ addrSpace c = 4 ∨ addrSpace c = 5) ∧ c.toNat % 64 = 0)
      s.Clear u →
        (s.handleOwned core h = false ∨ x.st ≠ .free → exec (.hset o) s = .next ((s.accept u).slotFault 9 0 true [])) ∧
        (s.handleOwned core h = true → x.st = .free →
          (¬ legal → exec (.hset o) s = .next (s.accept u).illegalOperand) ∧
          (legal → changes (.hset o) h { x with base := a.toNat % 2 ^ 23 / 64, len := b / 64 - 1, wb := o.wb == 1#1, tag := 0#16, chk := 0#4,
                                                wbAddr := if o.wb = 1#1 then c else x.wbAddr }))) ∧
    (s.Clear (portUse [] []) →
      (∀ h : BitVec 6,
        let x := r.handle h.toNat
        let own := s.handleOwned core h.toNat
        let a := s.accept (portUse [] [])
        (own = true → x.st ≠ .faulted → Gives (exec (.hwait h) s) s []) ∧
        (own = false ∨ x.st = .faulted → exec (.hwait h) s = .next (a.anchorFault 9 0 [])) ∧
        (own = false ∨ (x.st ≠ .full ∧ x.st ≠ .faulted) → exec (.hrel h) s = .next (a.slotFault 9 0 true [])) ∧
        (own = true → x.st = .full → x.wb = false → changes (.hrel h) h.toNat { x with st := .free }) ∧
        (own = true → x.st = .faulted → changes (.hrel h) h.toNat { x with st := .free, fcode := 0, faddr := 0#64 }) ∧
        (own = true → x.st = .full → x.wb = true →
          ∃ (t : State) (y : Xfer), exec (.hrel h) s = .next t ∧ t.mem = s.mem ∧ (t.rope rope).handle h.toNat = { x with st := .draining } ∧
            y ∈ ((t.rope rope).engine (h.toNat % 2)).tsb ∧ y.rank = 1 ∧ y.s0 = s.cycle + 4 ∧ y.handle = some h.toNat ∧ y.desc.op = 7 ∧
            y.desc.src = BitVec.ofNat 64 (2 ^ 60 + x.base * 64) ∧ y.desc.dst = x.wbAddr ∧ y.desc.len = (x.len + 1) * 64 ∧ y.desc.rows = 1)) ∧
      (∀ o : HprobeOp,
        let st := (r.handle o.handle.toNat).st
        let holds : Bool := match o.cond.toNat with
          | 0 => st == .full
          | 1 => st == .free
          | 2 => st == .filling
          | 3 => st == .draining
          | 4 => st == .faulted
          | _ => st == .full || st == .faulted
        (s.handleOwned core o.handle.toNat = false → exec (.hprobe o) s = .next ((s.accept (portUse [] [])).slotFault 9 0 true [])) ∧
        (s.Live → s.handleOwned core o.handle.toNat = true → Gives (exec (.hprobe o) s) s [(1, .regs [.p o.p.toNat holds], 0#6)])))

/-- The collective commands leave as far operations of the core: `ccall` with its start cycle and timetable number, `ctrig` with its entry and
descriptor address, `ckpt` with its descriptor address and step number; a number above 16 bits is an illegal operand, and a descriptor address that is
not a multiple of 64 an alignment fault, and a command beside 32 outstanding operations a timing fault (R144, R156, R299). -/
def Obligations.CollectiveCommands : Prop :=
  ∀ (s : State) (o : CollOp),
    let u := portUse [o.a.toNat, o.b.toNat] [o.d.toNat]
    let a := s.rdPlain o.a
    let b := s.rdPlain o.b
    let n := (s.core s.bnd.core).outstanding
    s.Clear u →
      (2 ^ 16 ≤ b.toNat → exec (.ccall o) s = .next (s.accept u).illegalOperand) ∧
      (b.toNat < 2 ^ 16 → n < 32 → s.IssuesFar (.ccall o) .ccall 0#64 a b o.d.toNat) ∧
      (b.toNat < 2 ^ 16 → 32 ≤ n → exec (.ccall o) s = .next ((s.accept u).timingFault 9)) ∧
      (2 ^ 16 ≤ a.toNat → exec (.ctrig o) s = .next (s.accept u).illegalOperand) ∧
      (a.toNat < 2 ^ 16 → b.toNat % 64 ≠ 0 → exec (.ctrig o) s = .next ((s.accept u).slotFault 12 0 true [])) ∧
      (a.toNat < 2 ^ 16 → b.toNat % 64 = 0 → n < 32 → s.IssuesFar (.ctrig o) .ctrig b a 0#64 o.d.toNat) ∧
      (a.toNat < 2 ^ 16 → b.toNat % 64 = 0 → 32 ≤ n → exec (.ctrig o) s = .next ((s.accept u).timingFault 9)) ∧
      (a.toNat % 64 ≠ 0 → exec (.ckpt o) s = .next ((s.accept u).slotFault 12 0 true [])) ∧
      (a.toNat % 64 = 0 → n < 32 → s.IssuesFar (.ckpt o) .ckpt a b 0#64 o.d.toNat) ∧
      (a.toNat % 64 = 0 → 32 ≤ n → exec (.ckpt o) s = .next ((s.accept u).timingFault 9))

/-! ### The SY slot (R302–R318, R347–R363) -/

/-- Anchors and time: `anchor` only makes its bundle an anchor, `end` ends the context unless a region is open, `clk` lands the issue cycle, `waitc`
whether its target lies before the issue cycle, `wfar` reports a far fault in place of passing, `cmpt` detects a difference, and `hold` ends its bundle
(R113, R304–R307, R317, R318). -/
def Obligations.AnchorsAndTime : Prop :=
  ∀ (s : State),
    let core := s.bnd.core
    let c := s.core core
    exec .anchor s = .next s ∧
    (c.belay.regions = [] → exec .endOp s = .next { s with bnd := { s.bnd with ctl := { s.bnd.ctl with ended := true } } }) ∧
    (c.belay.regions ≠ [] → exec .endOp s = .next s.illegalOperand) ∧
    (∀ d : BitVec 5, s.Live → s.Clear (portUse [] [d.toNat]) →
      Gives (exec (.clk d) s) s [(1, .regs [.s d.toNat (BitVec.ofNat 64 s.bnd.lat.clk)], 0#6)]) ∧
    (∀ (a : BitVec 5) (p : BitVec 3), s.Live → s.Clear (portUse [a.toNat] []) →
      Gives (exec (.waitc a p) s) s [(1, .regs [.p p.toNat (decide ((s.rdPlain a).toNat < s.cycle % 2 ^ 64))], 0#6)]) ∧
    (c.far.fault = none → exec .wfar s = .next s) ∧
    (∀ f, c.far.fault = some f → exec .wfar s = .next ((s.modCore core Core.farReported).anchorFault 10 0
      [(0x012, BitVec.ofNat 64 (f.code + if f.more then 2 ^ 63 else 0)), (0x013, f.addr), (0x014, pcWord f.pc)])) ∧
    (∀ o : CmptOp,
      let u := portUse (s.cmptReads o) []
      let same : Prop :=
        (o.v = 0#1 → s.rdPlain o.a = s.rdPlain o.b) ∧
        (o.v = 1#1 → ∀ k i, k < 8 → i < 16 → s.vAt (s.bm.phys k) (s.vreg o.a.toNat) i = s.vAt (s.bm.phys k) (s.vreg o.b.toNat) i)
      s.Clear u →
        (same → Gives (exec (.cmpt o) s) s []) ∧
        (¬ same → ∃ t, exec (.cmpt o) s = .next t ∧ Around s t ∧ t.ropes = s.ropes ∧ (∀ j, t.core j = s.core j) ∧
          { at_ := s.cycle, prio := 6, ev := .detectedErrorRollback (coreId core) } ∈ t.agenda)) ∧
    (s.bnd.active = true → s.bnd.handler = false → c.frame = none → c.seq.run = .running → c.timed = false → s.bnd.ctl = .reset →
      c.seq.loops.length = s.bnd.lat.loops.length → (∀ l rest, c.seq.loops = l :: rest → l.stop ++ 0#6 ≠ s.bnd.lat.pc) →
      ∃ t, exec .hold s = .next t ∧ t.bnd.active = false ∧ t.mem = s.mem ∧ t.ropes = s.ropes ∧ t.agenda = s.agenda ∧ (∀ j, j ≠ core → t.core j = s.core j) ∧
        (t.core core).regs = c.regs ∧ (t.core core).csr = c.csr ∧ (t.core core).inflight = c.inflight ∧
        (t.core core).seq.nextIssue = s.cycle + 1 + s.bnd.lat.time ∧ (t.core core).seq.loops = c.seq.loops ∧ (t.core core).seq.rets = c.seq.rets ∧
        (c.seq.transfer = none → (t.core core).seq.pc = s.bnd.lat.pc + 64#48 ∧ (t.core core).seq.transfer = none) ∧
        (∀ x, c.seq.transfer = some x → x.left ≤ 1 → (t.core core).seq.pc = x.target ∧ (t.core core).seq.transfer = none) ∧
        (∀ x, c.seq.transfer = some x → 1 < x.left →
          (t.core core).seq.pc = s.bnd.lat.pc + 64#48 ∧ (t.core core).seq.transfer = some { x with left := x.left - 1 }))

/-- Regions: `belay.begin` pushes one with what a rollback restores, as its own bundle found it (the model's reading, log entry 34: the bundle's other
slots issue again at H′), overwrites its core's snapshot of the predicates and changes nothing else of its core, the pitch form also takes its handles, and
`belay.end` pops the innermost: each of its journal entries passes to the nearest enclosing region that is not a pitch, or is freed where there is none
or that region holds the line, and a pitch hands its handles over. None stands in a delay bundle, a fifth region is a call-depth trap, and bad or unready
handles an illegal operand or a handle fault (R201, R312, R313, R316). -/
def Obligations.BelayRegions : Prop :=
  ∀ (s : State),
    let core := s.bnd.core
    let rope := ropeOf core
    let c := s.core core
    let delay : Prop := c.seq.inDelay = true
    let opens (pitch : Bool) (a b : Nat) (t : State) : Prop :=
      Around { s with flips := s.flips.filter (fun f => !snapHit core [snapP] f.loc) } t ∧ ∃ g : Region,
        t.core core = { c with belay := { c.belay with regions := g :: c.belay.regions }, seq := { c.seq with keepWindow := true } } ∧
        g.pitch = pitch ∧ g.hIn = a ∧ g.hOut = b ∧ g.h = s.cycle ∧ g.first = s.bnd.id0 ∧ g.restart = s.bnd.lat.pc ∧ g.time = s.bnd.lat.time ∧
        g.beside = { s.bnd.lat with words := s.bnd.lat.words.filter (fun w => w.1 != 11) } ∧
        g.rets = s.bnd.seq0.rets ∧ g.loops = s.bnd.seq0.loops ∧ g.rrb = s.bnd.seq0.rrb ∧ g.p = s.bnd.p0 ∧ g.rndseq = s.bnd.rnd0 ∧ g.fpflags = c.csrGet 0x001 ∧
        g.fpfirst = c.csrGet 0x002 ∧ g.retry = 0 ∧ g.unprotected = false ∧ g.keptS = [] ∧ g.keptV = [] ∧ g.keptQ = [] ∧ g.keptVregs = [] ∧
        g.keptPreds = false ∧ g.shadow = [] ∧ g.movedLines = 0
    let passes (rest : List Region) (t : State) : Prop :=
      let depth := rest.length + 1
      let outer := rest.length - rest.findIdx (fun g => !g.pitch)
      (t.core core).belay.regions = rest ∧
      ∀ e, e ∈ (t.core core).belay.journal ↔ (e ∈ c.belay.journal ∧ e.depth ≠ depth) ∨
        ∃ x ∈ c.belay.journal, x.depth = depth ∧ outer ≠ 0 ∧ (∀ y ∈ c.belay.journal, y.depth = outer → y.line ≠ x.line) ∧ e = { x with depth := outer }
    (delay → exec .belayBegin s = .next s.illegalInstruction ∧ exec .belayEnd s = .next s.illegalInstruction ∧
      ∀ a b, exec (.belayBeginPitch a b) s = .next s.illegalInstruction) ∧
    (¬ delay →
      (4 ≤ c.belay.regions.length → exec .belayBegin s = .next (s.slotFault 22 0 true [])) ∧
      (c.belay.regions.length < 4 → ∃ t, exec .belayBegin s = .next t ∧ t.ropes = s.ropes ∧ opens false 0 0 t) ∧
      (∀ a b : BitVec 6,
        let r := s.rope rope
        let bad : Prop := a = b ∨ s.handleOwned core a.toNat = false ∨ s.handleOwned core b.toNat = false
        let unready : Prop := (r.handle a.toNat).st = .faulted ∨ (r.handle a.toNat).refill = none ∨ (r.handle b.toNat).st ≠ .free
        (bad → exec (.belayBeginPitch a b) s = .next s.illegalOperand) ∧
        (¬ bad → 4 ≤ c.belay.regions.length → exec (.belayBeginPitch a b) s = .next (s.slotFault 22 0 true [])) ∧
        (¬ bad → c.belay.regions.length < 4 → unready → exec (.belayBeginPitch a b) s = .next (s.anchorFault 9 0 [])) ∧
        (¬ bad → c.belay.regions.length < 4 → ¬ unready → ∃ t, exec (.belayBeginPitch a b) s = .next t ∧ opens true a.toNat b.toNat t ∧
          (∀ k, k ≠ rope → t.rope k = s.rope k) ∧ t.rope rope = r.setHandle b.toNat { r.handle b.toNat with st := .filling, filler := 1 + core % 4 })) ∧
      (c.belay.regions = [] → exec .belayEnd s = .next s.illegalOperand) ∧
      (∀ g rest, c.belay.regions = g :: rest → g.pitch = false →
        ∃ t, exec .belayEnd s = .next t ∧ Around s t ∧ t.ropes = s.ropes ∧ t.core core = { c with belay := (t.core core).belay } ∧ passes rest t) ∧
      (∀ g rest, c.belay.regions = g :: rest → g.pitch = true →
        let x := (s.rope rope).handle g.hIn
        let y := (s.rope rope).handle g.hOut
        (x.st ≠ .full ∨ y.st ≠ .filling → exec .belayEnd s = .next (s.anchorFault 9 0 [])) ∧
        (x.st = .full → y.st = .filling → ∃ t, exec .belayEnd s = .next t ∧ t.mem = s.mem ∧ (∀ j, j ≠ core → t.core j = s.core j) ∧
          t.core core = { c with belay := (t.core core).belay, far := (t.core core).far } ∧ passes rest t ∧
          (t.rope rope).handle g.hOut = { y with st := .full, tag := x.tag, chk := 0#4, refill := none, filler := 0 } ∧
          (x.wb = false → (t.rope rope).handle g.hIn = { x with st := .free }) ∧
          (x.wb = true → (t.rope rope).handle g.hIn = { x with st := .draining } ∧
            ∃ w ∈ ((t.rope rope).engine (g.hIn % 2)).tsb, w.rank = 1 ∧ w.handle = some g.hIn ∧ w.s0 = s.cycle + 4))))

/-- Keeps: in the keep window of the innermost region, alone in their bundle, they copy scalar registers, vector registers with all lane predicates, or
tiles into it; elsewhere an illegal operand; without room the region becomes unprotected and nothing is saved (R314, R323). That a tile which the region
keeps already takes no second shadow tile is the model's reading (log entry 30). -/
def Obligations.BelayKeeps : Prop :=
  ∀ (s : State) (g : Region) (rest : List Region),
    let core := s.bnd.core
    let c := s.core core
    c.belay.regions = g :: rest →
    let legal : Prop := c.seq.keepWindow = true ∧ s.bnd.present = 0x800#12
    let saves (i : Instr) (f : Region → Prop) : Prop :=
      ∃ t g', exec i s = .next t ∧ Around s t ∧ t.ropes = s.ropes ∧ (t.core core).belay.regions = g' :: rest ∧ (t.core core).regs = c.regs ∧
        (t.core core).csr = c.csr ∧ (t.core core).mx = c.mx ∧ (t.core core).belay.journal = c.belay.journal ∧ f g'
    (∀ l : BitVec 4,
      let w := s.lit l.toNat
      let js := (List.range 32).filter (fun j => decide (1 ≤ j) && w.getLsbD j)
      let moved := (js.filter (fun j => !(g.keptS.any (fun e => e.1 == j)) && rest.any (fun o => o.keptS.any (fun e => e.1 == j)))).length
      (¬ legal → exec (.belayKeepS l) s = .next s.illegalOperand) ∧
      (legal → s.Clear (portUse js []) →
        (1024 < c.belay.used + moved → saves (.belayKeepS l) (fun g' => g' = { g with unprotected := true })) ∧
        (c.belay.used + moved ≤ 1024 → saves (.belayKeepS l) (fun g' =>
          (∀ j, j ∈ js → tblGet 0#64 j g'.keptS = s.bnd.lat.regs.sGet j) ∧ (∀ j, j ∉ js → tblGet 0#64 j g'.keptS = tblGet 0#64 j g.keptS) ∧
          g'.movedLines = g.movedLines + moved ∧ g'.unprotected = g.unprotected ∧ g'.keptV = g.keptV ∧ g'.shadow = g.shadow)))) ∧
    (∀ l : BitVec 4,
      let w := s.lit l.toNat
      let regs := ((List.range 32).filter (fun j => w.getLsbD j)).map s.vreg
      let keys := ((List.range 8).map s.bm.phys).flatMap (fun p => regs.map (vRegKey p) ++ (List.range 7).map (fun q => 10000 + qKey p (q + 1)))
      let moved := 8 * (regs.filter (fun r => !(g.keptVregs.contains r) && rest.any (fun o => o.keptVregs.contains r))).length
      (¬ legal → exec (.belayKeepV l) s = .next s.illegalOperand) ∧
      (legal → s.Clear (portUse keys []) →
        (1024 < c.belay.used + moved → saves (.belayKeepV l) (fun g' => g' = { g with unprotected := true })) ∧
        (c.belay.used + moved ≤ 1024 → saves (.belayKeepV l) (fun g' =>
          (∀ k r i, k < 8 → r ∈ regs → i < 16 → tblGet 0#32 (keptKey k r i) g'.keptV = s.vAt (s.bm.phys k) r i) ∧
          (∀ k q, k < 8 → 1 ≤ q → q < 8 → tblGet 0#16 (qKey k q) g'.keptQ = s.qAt (s.bm.phys k) q) ∧
          (∀ r, r ∈ g'.keptVregs ↔ r ∈ g.keptVregs ∨ r ∈ regs) ∧ g'.keptPreds = true ∧ g'.keptS = g.keptS ∧ g'.shadow = g.shadow)))) ∧
    (∀ o : KeepAOp,
      let t := o.tile.toNat
      let n := o.nm1.toNat + 1
      let mine : List Nat := g.shadow.map (fun (x : Nat × Tbl W32 × Bool) => x.1)
      let fresh := ((List.range n).filter (fun i => !(mine.contains (t + i)))).length
      let used := g.shadow.length + (rest.map (fun r => r.shadow.length)).sum
      (¬ legal ∨ 192 < t + n → exec (.belayKeepA o) s = .next s.illegalOperand) ∧
      (legal → t + n ≤ 192 → c.tilesBusy t n = true → exec (.belayKeepA o) s = .next (s.timingFault 6)) ∧
      (legal → t + n ≤ 192 → c.tilesBusy t n = false → s.flips = [] →
        (16 < used + fresh → saves (.belayKeepA o) (fun g' => g' = { g with unprotected := true })) ∧
        (used + fresh ≤ 16 → saves (.belayKeepA o) (fun g' =>
          (∀ i, i < n → (t + i, c.tileElems (t + i), c.mx.ovf.getLsbD (t + i)) ∈ g'.shadow) ∧
          (∀ x, x ∈ g.shadow → x.1 < t ∨ t + n ≤ x.1 → x ∈ g'.shadow) ∧ g'.keptS = g.keptS ∧ g'.keptV = g.keptV))))

/-- The CSR forms: an unknown number or a write of a register with no writable field is an illegal instruction, a privileged one outside trap mode a
privileged fault; otherwise the old value lands in sD and, where the form writes, the new value in the register, both at +1 (R347, R348, R350, R363). -/
def Obligations.ControlRegisterForms : Prop :=
  ∀ (s : State) (o : CsrOp),
    ∀ e ∈ [(Instr.csrr o, CsrForm.read), (.csrw o, .write), (.csrs o, .set), (.csrc o, .clear)],
      let n := o.num.toNat
      let user : Prop := n ∈ [0x001, 0x002, 0x003, 0x004, 0x005, 0x006, 0x007, 0x008, 0x009, 0x00A, 0x00B, 0x010, 0x011, 0x012, 0x013, 0x014, 0x015, 0x200,
        0x201, 0x202]
      let privileged : Prop := n ∈ [0x040, 0x041, 0x042, 0x043, 0x044, 0x045, 0x100, 0x101, 0x102, 0x103, 0x104, 0x300, 0x301, 0x380, 0x381]
      let fixed : Prop := n ∈ [0x00B, 0x010, 0x011, 0x012, 0x013, 0x014, 0x015, 0x040, 0x042, 0x043, 0x202]
      let asks : Prop := e.2 ≠ .read ∧ o.a ≠ 0#5
      let old := s.csrRead s.bnd.core n
      let a := s.rdS o.a
      let new := match e.2 with
        | .read => old
        | .write => a
        | .set => old ||| a
        | .clear => old &&& ~~~a
      (¬ user → ¬ privileged → exec e.1 s = .next s.illegalInstruction) ∧
      (privileged → s.bnd.handler = false → exec e.1 s = .next (s.slotFault 4 0 true [])) ∧
      (user ∨ (privileged ∧ s.bnd.handler = true) →
        (asks → fixed → exec e.1 s = .next s.illegalInstruction) ∧
        (¬ (asks ∧ fixed) → s.Live → s.Clear (portUse (if e.2 = .read then [] else [s.sIdx o.a]) [s.sIdx o.d]) →
          Gives (exec e.1 s) s ((1, .regs [.s (s.sIdx o.d) old], 0#6) ::
            (if e.2 ≠ .read ∧ o.a ≠ 0#5 ∧ (n ≠ 0x005 ∨ (e.2 = .clear ∧ s.bnd.handler = true)) then [(1, .csr n new, 0#6)] else []))))

/-- `trap` and `sys` take their trap, complete: the core freezes with the results that land after this cycle in its frame, the trap registers name the
cause, the bundle and the slot word, no slot is to be issued again, and the handler enters eight cycles later. In trap mode either is a double trap: the
core halts (R338, R339, R342, R343, R345, R349). -/
def Obligations.SystemCalls : Prop :=
  ∀ (s : State) (code : BitVec 16), ∀ e ∈ [(Instr.trap code, 23), (.sys code, 24)],
    let core := s.bnd.core
    let c := s.core core
    s.bnd.probing = false → s.bnd.faulted = 0#12 →
      (c.frame = none → ∃ t f, exec e.1 s = .next t ∧ (t.core core).frame = some f ∧ t.mem = s.mem ∧ (c.slip = none → t.ropes = s.ropes) ∧
        (∀ j, j ≠ core → t.core j = s.core j) ∧ (t.core core).regs = c.regs ∧ (c.slip = none → (t.core core).mx = c.mx) ∧ (t.core core).seq.run = .frozen ∧
        (t.core core).seq.pc = c.seq.pc ∧ (t.core core).seq.transfer = none ∧ (t.core core).seq.loops = c.seq.loops ∧
        (t.core core).inflight = c.inflight.filter (fun l => decide (l.at_ ≤ s.cycle)) ∧
        (c.slip = none → f.landings = c.inflight.filter (fun l => decide (s.cycle < l.at_))) ∧ f.c = s.cycle ∧ f.transfer = c.seq.transfer ∧
        (t.core core).csrGet 0x040 = BitVec.ofNat 64 (e.2 + (slotBit s.bnd.slot.num).toNat * 2 ^ 12 + s.bnd.slot.num % 16 * 2 ^ 24) ∧
        (t.core core).csrGet 0x042 = BitVec.ofNat 64 (s.bnd.lat.pc.toNat / 64 * 64) ∧ (t.core core).csrGet 0x043 = s.bnd.word.setWidth 64 ∧
        ((t.core core).csrGet 0x041).toNat % 2 ^ 12 = 0 ∧
        (∀ n, n ∉ [0x040, 0x041, 0x042, 0x043] → (t.core core).csrGet n = c.csrGet n) ∧
        { at_ := s.cycle + 8, prio := 0, ev := .trapHandlerEntry (coreId core) } ∈ t.agenda) ∧
      (c.frame.isSome = true → ∃ t, exec e.1 s = .next t ∧ (t.core core).seq.run = .halted ∧ t.mem = s.mem)

/-- `eret` outside trap mode is a privileged fault, and with a result of the handler pending a double trap; otherwise the context comes back: trap mode
ends, its results return with the same distances to the resume cycle E as they had to the freeze, E is the first later cycle congruent with it
modulo 64, and the slots RPL names are to be issued then. `yield` and `wfi` are illegal in trap mode and otherwise only pass, `wfi` clearing WAKE where
that alone is set (R343, R346, R351, R352). -/
def Obligations.TrapReturn : Prop :=
  ∀ (s : State),
    let core := s.bnd.core
    let c := s.core core
    (s.bnd.handler = false → exec .eret s = .next (s.slotFault 4 0 true []) ∧ exec .yield s = .next s) ∧
    (s.bnd.handler = true → exec .yield s = .next s.illegalInstruction ∧ exec .wfi s = .next s.illegalInstruction ∧
      (s.handlerBusy core = true → ∃ t, exec .eret s = .next t ∧ (t.core core).seq.run = .halted)) ∧
    (∀ f, s.bnd.handler = true → s.handlerBusy core = false → c.frame = some f → f.retiring = false → s.imageDead core = false →
      let e := s.cycle + 1 + (f.c + 63 * (s.cycle + 1)) % 64
      ∃ t, exec .eret s = .next t ∧ s.cycle < e ∧ e ≤ s.cycle + 64 ∧ e % 64 = f.c % 64 ∧ (t.core core).frame = none ∧
        (t.core core).seq.run = .running ∧ (t.core core).seq.pc = f.pc ∧ (t.core core).seq.transfer = f.transfer ∧ (t.core core).regs = c.regs ∧
        (t.core core).csr = c.csr ∧ t.mem = s.mem ∧ (∀ j, j ≠ core → t.core j = s.core j) ∧
        (t.core core).inflight = c.inflight ++ f.landings.map (Landing.shift (e - f.c)) ∧
        (∀ l ∈ f.landings, (Landing.shift (e - f.c) l).at_ = l.at_ + (e - f.c)) ∧ (t.core core).owed = f.held ∧
        (f.goOn = false → f.refetch = false → ∃ r, (t.core core).replay = some r ∧ r.at_ = e ∧
          (f.fpe = false → r.lat.words = f.latched.words.filter (fun w => (c.csrGet 0x041).getLsbD w.1 && decide (w.1 < 12))) ∧
          r.lat.regs = f.latched.regs)) ∧
    (s.bnd.handler = false →
      let v := c.csrGet 0x103
      (v.getLsbD 0 = true ∨ v.getLsbD 1 = true → exec .wfi s = .next s) ∧
      (v.getLsbD 0 = false → v.getLsbD 1 = false → ∃ t, exec .wfi s = .next t ∧ Around s t ∧ t.ropes = s.ropes ∧
        ((t.core core).csrGet 0x103).getLsbD 2 = false ∧ (∀ k, k ≠ 2 → ((t.core core).csrGet 0x103).getLsbD k = v.getLsbD k) ∧
        (∀ n, n ≠ 0x103 → (t.core core).csrGet n = c.csrGet n) ∧ (t.core core).regs = c.regs ∧ (t.core core).seq = c.seq))

/-- Self-tests and locks: `bist` stops the core with its results in flight until its tests are done, to go on in the first cycle after them that is congruent
with its issue cycle modulo 64 (that the tests fill the cycles after the issue cycle is the model's reading, log entry 45), or tests nothing; the lock forms check their range,
`iunlock` unlocks it, `ilock` locks what is resident within 128 blocks or sets OVER, and `ipref` asks for what is not resident (R354, R355, R357, R358). -/
def Obligations.SelfTestAndLocks : Prop :=
  ∀ (s : State) (a b : BitVec 5),
    let core := s.bnd.core
    let c := s.core core
    let m := s.rdPlain a
    let n := (s.rdPlain b).toNat
    let one := portUse [a.toNat] []
    let two := portUse [a.toNat, b.toNat] []
    (s.Clear one →
      (2 ^ 9 ≤ m.toNat ∨ c.belay.regions ≠ [] → exec (.bist a) s = .next (s.accept one).illegalOperand) ∧
      (m = 0#64 → c.belay.regions = [] → ∃ t, exec (.bist a) s = .next t ∧ Around s t ∧ t.ropes = s.ropes ∧ (t.core core).csrGet 0x00B = 15#64 ∧
        (∀ k, k ≠ 0x00B → (t.core core).csrGet k = c.csrGet k) ∧ (t.core core).regs = c.regs ∧ (t.core core).seq = c.seq) ∧
      (m ≠ 0#64 → m.toNat < 2 ^ 9 → c.belay.regions = [] → ∃ t at_, exec (.bist a) s = .next t ∧ Around s t ∧ t.ropes = s.ropes ∧
        (t.core core).test = some (m, s.cycle) ∧ (t.core core).seq.run = .testing ∧ (t.core core).regs = c.regs ∧ (t.core core).csr = c.csr ∧
        (t.core core).slip = some (s.cycle, c.inflight.filter (fun l => decide (s.cycle < l.at_))) ∧
        s.cycle + bistTime m.toNat < at_ ∧ at_ ≤ s.cycle + bistTime m.toNat + 64 ∧ at_ % 64 = s.cycle % 64 ∧ { at_ := at_, prio := 0, ev := .bistComplete (coreId core) } ∈ t.agenda)) ∧
    (s.Clear two →
      let whole : Prop := m.toNat < 2 ^ 48 ∧ m.toNat % 64 = 0 ∧ n ≠ 0 ∧ n ≤ 4096
      let blocks := rangeBlocks m.toNat n
      let beyond : Prop := 128 < c.lockAddrs.length + (blocks.filter (fun x => !(c.lockAddrs.contains x))).length
      (¬ whole → exec (.ilock a b) s = .next (s.accept two).illegalOperand ∧ exec (.ipref a b) s = .next (s.accept two).illegalOperand ∧
        (n ≠ 0 → exec (.iunlock a b) s = .next (s.accept two).illegalOperand)) ∧
      (whole → beyond → ∃ t, exec (.ilock a b) s = .next t ∧ Around s t ∧ (t.core core).code = c.code ∧ ((t.core core).csrGet 0x00A).getLsbD 16 = true ∧
        (t.core core).regs = c.regs) ∧
      (whole → ¬ beyond → ∃ t, exec (.ilock a b) s = .next t ∧ t.mem = s.mem ∧ (t.core core).regs = c.regs ∧ (t.core core).csr = c.csr ∧
        (t.core core).seq = c.seq ∧ (∀ x ∈ (t.core core).code.blocks, c.ownBlock x = true → x.addr ∈ blocks → x.locked = true) ∧
        (t.core core).code.blocks.map (·.addr) = c.code.blocks.map (·.addr)) ∧
      (whole → ∃ t, exec (.ipref a b) s = .next t ∧ t.mem = s.mem ∧ (t.core core).regs = c.regs ∧ (t.core core).csr = c.csr ∧ (t.core core).seq = c.seq ∧
        (t.core core).code.blocks = c.code.blocks ∧
        ∀ x ∈ blocks, (c.block x).isSome = true ∨ ∃ f ∈ (t.core core).code.fetches, f.addr = x ∧ f.forIssue = false) ∧
      (whole ∨ n = 0 → ∃ t, exec (.iunlock a b) s = .next t ∧ Around s t ∧ t.ropes = s.ropes ∧ (t.core core).regs = c.regs ∧ (t.core core).csr = c.csr ∧
        (t.core core).seq = c.seq ∧
        (∀ x ∈ (t.core core).code.blocks, c.ownBlock x = true → (n = 0 ∨ x.addr ∈ blocks) → x.locked = false) ∧
        (t.core core).code.blocks.map (fun x => (x.addr, x.bytes)) = c.code.blocks.map (fun x => (x.addr, x.bytes))))

/-! ### Events of a core (R29, R111, R161–R163, R262, R342, R353, R356) -/

/-- The events of the sequencer: a queued bundle is released, the head of the matrix queue starts, or waits for its array, tiles or scale entries, a loop
level steps or ends, a missing block freezes the core, whose results keep their distances (the model's reading, log entry 27), and is fetched, a fetched block is resident, the trap handler enters at TVEC, and the watchdog traps (R29, R111, R161, R163, R262,
R342, R353, R356). -/
def Obligations.SequencerEvents : Prop :=
  ∀ (s : State) (core : CoreId),
    let c := s.core core
    let others (t : State) : Prop := t.mem = s.mem ∧ ∀ j, j ≠ core.val → t.core j = s.core j
    (∀ e id, c.releaseDue s.cycle = some id → c.td.entries.find? (fun x => x.id == id) = some e → c.fpNow s.cycle = false →
      bundleIllegal e.words e.pool e.cmask false false = false → (∀ o ∈ opsOf e.words, anchorOp o.2 = false) →
      c.seq.preBoundary = false → c.seq.ilDrain = false → c.seq.ilLeave = false → c.leaving = false → c.interlocked = false → c.far.fault = none →
      ∃ t, exec (.timedDispatchRelease core id) s = .next t ∧ others t ∧ t.bnd.active = true ∧ t.bnd.core = core ∧ t.bnd.lat.pc = e.pc ∧
        t.bnd.lat.cmask = e.cmask ∧ t.bnd.lat.words = e.words ∧ t.bnd.lat.pool = e.pool ∧ t.bnd.lat.regs = c.regs ∧ t.bnd.lat.clk = s.cycle ∧
        t.bnd.rest = e.words.map (fun w => slotOf w.1) ∧ t.bnd.faulted = 0#12 ∧ (t.core core).regs = c.regs ∧
        (t.core core).td.entries = c.td.entries.filter (fun x => x.id != id)) ∧
    (∀ q rest l b, c.frame = none → c.slip = none → c.mx.queue = q :: rest → decodeSlot .mx q.word = .ok (.mfsel l b) →
      ∃ t x, exec (.matrixQueueStart core) s = .next t ∧ others t ∧ t.bnd = s.bnd ∧ (t.core core).mx.queue = rest ∧
        (t.core core).inflight = c.inflight ++ [x] ∧ x.at_ = s.cycle + 1 ∧ x.eff = .binding l.toNat b.toNat ∧ x.pc = q.pc ∧ x.slot = 7 ∧
        (rest ≠ [] → { at_ := s.cycle + 1, prio := 1, ev := .matrixQueueStart core } ∈ t.agenda)) ∧
    (∀ q rest o, c.frame = none → c.slip = none → c.mx.queue = q :: rest → decodeSlot .mx q.word = .ok (.mclr o) →
      let tile := o.tile.toNat
      let n := o.nm1.toNat + 1
      (c.tilesBusy tile n = true → exec (.matrixQueueStart core) s = .next (s.schedule (s.cycle + 1) 1 (.matrixQueueStart core))) ∧
      (c.tilesBusy tile n = false → ∃ t x, exec (.matrixQueueStart core) s = .next t ∧ others t ∧ t.bnd = s.bnd ∧ (t.core core).mx.queue = rest ∧
        (t.core core).inflight = c.inflight ++ [x] ∧ x.at_ = s.cycle + 2 ∧ x.eff = .clearTiles tile n ∧ x.busyTile = tile ∧ x.busyCount = n ∧
        x.pc = q.pc ∧ x.slot = 7 ∧ (rest ≠ [] → { at_ := s.cycle + 1, prio := 1, ev := .matrixQueueStart core } ∈ t.agenda))) ∧
    (∀ q rest o, c.frame = none → c.slip = none → c.mx.queue = q :: rest → decodeSlot .mx q.word = .ok (.mmac o) → c.mx.run.isOpen = false →
      let v := q.regs.sGet o.cs.toNat
      let e := c.mx.entry o.fmt.toNat
      let n := o.mm1.toNat + 1
      let need := if fmtRun e then (n + 63) / 64 else (n * fmtBlocks e + 63) / 64
      let held := c.mx.scaleQ.length
      v &&& ~~~0x7F03FF#64 = 0#64 → fmtA e ≠ 3 → fmtB e ≠ 3 → o.tile.toNat + fmtTiles e ≤ 192 → (fmtRun e = true → fmtBlocks e ≤ fmtP e) →
      (s.cycle < c.mx.arrayFree ∨ c.groupBusy o.tile.toNat (fmtTiles e) = true ∨ (held < need ∧ need ≤ held + (s.scalesInFlight core).length) →
        exec (.matrixQueueStart core) s = .next (s.schedule (s.cycle + 1) 1 (.matrixQueueStart core))) ∧
      (c.mx.arrayFree ≤ s.cycle → c.groupBusy o.tile.toNat (fmtTiles e) = false → need ≤ held →
        ∃ t, exec (.matrixQueueStart core) s = .next t ∧ others t ∧ t.bnd = s.bnd ∧ (t.core core).mx.queue = rest ∧
          (t.core core).mx.arrayFree = s.cycle + n ∧ (t.core core).mx.scaleQ = c.mx.scaleQ.drop need ∧
          (t.core core).inflight.length = c.inflight.length + n)) ∧
    (∀ l rest, c.seq.loops = l :: rest → s.bnd.ctl.released = false →
      let goes : Prop := l.index.toNat + 1 < l.count.toNat
      ∃ t, exec (.loopIterationBoundary core) s = .next t ∧ others t ∧ t.ropes = s.ropes ∧
        (goes → (t.core core).seq.loops = { l with index := l.index + 1#32 } :: rest ∧ (t.core core).seq.pc = l.start ++ 0#6) ∧
        (¬ goes → (t.core core).seq.loops = rest ∧ (t.core core).seq.pc = (l.stop ++ 0#6) + 64#48) ∧
        (t.core core).seq.preBoundary = l.pre ∧ (t.core core).seq.rrb = (if l.rot then c.seq.rrb + 1#4 else c.seq.rrb) ∧
        (t.core core).seq.rets = c.seq.rets ∧ (t.core core).regs.s = c.regs.s ∧ (t.core core).regs.v = c.regs.v ∧ (t.core core).regs.q = c.regs.q ∧
        (l.rot = false → (t.core core).regs.p = c.regs.p) ∧
        (l.rot = true → ∀ k, k < 8 → (t.core core).regs.p.getLsbD k =
          if k < 4 then c.regs.p.getLsbD k else if k = 4 then decide goes else c.regs.p.getLsbD (k - 1)) ∧
        (t.core core).csr = c.csr ∧ (t.core core).inflight = c.inflight) ∧
    (∃ t, exec (.instructionStoreSlip core) s = .next t ∧ t.mem = s.mem ∧ (t.core core).seq.run = .slipped ∧ (t.core core).regs = c.regs ∧
      (t.core core).csrGet 0x009 = BitVec.ofNat 64 (((c.csrGet 0x009).toNat + 1) % 2 ^ 32) ∧
      (t.core core).slip = some (s.cycle, c.inflight.filter (fun l => decide (s.cycle < l.at_))) ∧
      (t.core core).inflight = c.inflight.filter (fun l => decide (l.at_ ≤ s.cycle)) ∧
      ∃ f ∈ (t.core core).code.fetches, f.addr = blockAddr c.seq.pc ∧ f.forIssue = true) ∧
    (∀ f id, c.code.fetches.find? (fun x => x.id == id) = some f → f.fault = 0 →
      (∀ i, i < 16 → s.partitionCode (s.tenantOf core) (f.phys + 64 * i) = 0) →
      ∃ t b, exec (.instructionFetchComplete core id) s = .next t ∧ t.mem = s.mem ∧ b ∈ (t.core core).code.blocks ∧ b.addr = f.addr ∧
        b.bytes = readBytes s.mem (keyHbm Config.ownPackage f.phys) 1024 ∧ (t.core core).ownBlock b = (rootAsid f.root == c.fetchAsid) ∧
        (t.core core).code.fetches = c.code.fetches.filter (fun x => x.id != id) ∧ (t.core core).regs = c.regs ∧
        (f.forIssue = true → c.seq.run = .slipped → blockAddr c.seq.pc = f.addr → c.slip.isSome = true →
          (t.core core).seq.run = .running ∧ (t.core core).seq.nextIssue = s.cycle ∧ (t.core core).slip = none)) ∧
    (c.frame.isSome = true → c.seq.run = .frozen → (∀ l, c.launch = some l → l.firmwareTrap = false) →
      (c.save = none → ∃ t, exec (.trapHandlerEntry core) s = .next t ∧ others t ∧ t.ropes = s.ropes ∧
        t.core core = { c with seq := { c.seq with run := .running, pc := (c.csrGet 0x044).setWidth 48, nextIssue := s.cycle } }) ∧
      (c.save.isSome = true → ∃ t, exec (.trapHandlerEntry core) s = .next t ∧ others t ∧ (t.core core).save = none ∧ (t.core core).heldXfers = [] ∧
        (t.core core).regs = c.regs ∧ (t.core core).csr = c.csr ∧
        (t.core core).seq = { c.seq with run := .running, pc := (c.csrGet 0x044).setWidth 48, nextIssue := s.cycle })) ∧
    (∀ k, s.waitingBundle core = some k → c.frame = none → c.fpNow s.cycle = false →
      ∃ t, exec (.watchdogExpiry core) s = .next t ∧ others t ∧ (t.core core).frame.isSome = true ∧ (t.core core).seq.run = .frozen ∧
        ((t.core core).csrGet 0x040).toNat % 256 = 25 ∧ (t.core core).csrGet 0x042 = pcWord k.lat.pc ∧
        ((t.core core).csrGet 0x041).toNat % 2 ^ 12 = (presentOf k.lat.words).toNat ∧ (t.core core).regs = c.regs ∧
        { at_ := s.cycle + 8, prio := 0, ev := .trapHandlerEntry core } ∈ t.agenda)

/-- Scalar register 0 reads zero, predicate 0 reads 1 and lane predicate 0 all ones. Results land in the cycle they name: register results alone change
registers, of scalar register 0, predicate 0 and lane predicate 0 none; the effects of the matrix and transposing engines change their own state alone,
tiles with their overflow bits; a CSR result the writable fields of its register, what the hardware adds in that cycle coming after it; flags raised are
or-ed into their slot's group and nothing else of FPFLAGS. An `mmac` row is read in its cycle and lands later: its blocks added to the tile elements in
ascending K, or in run mode to the inner accumulators (R39, R40, R42, R218, R254–R258, R266–R270, R350, R363). -/
def Obligations.ResultLandings : Prop :=
  (∀ (r : RegFile), r.sGet 0 = 0#64 ∧ r.pGet 0 = true ∧ ∀ p, r.qGet p 0 = 0xFFFF#16) ∧
  (∀ (s : State) (core : CoreId) (id : Nat) (l : Landing), s.dueResult core id = some l →
    let c := s.core core
    c.collision s.cycle l = none → (∀ r, l.eff ≠ .mmacRow r) →
    let lands (P : State → Core → Prop) : Prop :=
      ∃ t, exec (.resultLanding core id) s = .next t ∧ t.mem = s.mem ∧ t.ropes = s.ropes ∧ t.dies = s.dies ∧ t.bnd = s.bnd ∧
        (∀ j, j ≠ core.val → t.core j = s.core j) ∧ (t.core core).inflight = c.inflight.filter (fun m => m.id != id) ∧ P t (t.core core)
    let flags (x : Core) : Prop :=
      (∀ k, flagGroup l.slot = some k → x.csrGet 0x001 = (if l.flags = 0#6 then c.csrGet 0x001 else c.csrGet 0x001 ||| (l.flags.setWidth 64 <<< k))) ∧
      (∀ n, n ≠ 0x001 → n ≠ 0x002 → x.csrGet n = c.csrGet n)
    (∀ ws, l.eff = .regs ws → l.slot ≠ 7 → lands (fun _ x => x.regs = c.regs.writeAll ws ∧ x.mx = c.mx ∧ x.seq = c.seq ∧ flags x)) ∧
    (∀ v, l.eff = .regs [.s 0 v] → lands (fun _ x => x.regs = c.regs)) ∧
    (∀ b, l.eff = .regs [.p 0 b] → lands (fun _ x => x.regs = c.regs)) ∧
    (∀ p m v, l.eff = .regs [.q (8 * p) m v] → lands (fun _ x => x.regs = c.regs)) ∧
    (∀ i v, l.eff = .format i v → lands (fun _ x => x.mx.entry i = v ∧ (∀ k, k ≠ i → x.mx.entry k = c.mx.entry k) ∧ x.regs = c.regs)) ∧
    (∀ lv b, l.eff = .binding lv b → lands (fun _ x => x.mx = { c.mx with bind := some (lv, b) } ∧ x.regs = c.regs)) ∧
    (∀ r b, l.eff = .rowBuffer r b → lands (fun _ x => x.mx.row r = b ∧ (∀ k, k ≠ r → x.mx.row k = c.mx.row k) ∧ x.mx.tiles = c.mx.tiles ∧ x.regs = c.regs)) ∧
    (∀ t n, l.eff = .clearTiles t n → lands (fun _ x => x.regs = c.regs ∧ ∀ k r j, r < 128 → j < 32 →
      x.mx.elem k r j = if t ≤ k ∧ k < t + n then 0#32 else c.mx.elem k r j)) ∧
    (∀ t n, l.eff = .clearTiles t n → lands (fun _ x => ∀ k, k < 192 → x.mx.ovf.getLsbD k = (c.mx.ovf.getLsbD k && !decide (t ≤ k ∧ k < t + n)))) ∧
    (∀ t r vals, l.eff = .writeRow t r vals → lands (fun _ x => ∀ k, k < 192 → x.mx.ovf.getLsbD k = (c.mx.ovf.getLsbD k && decide (k ≠ t)))) ∧
    (∀ t r vals, l.eff = .writeRow t r vals → r < 128 → lands (fun _ x => x.regs = c.regs ∧ ∀ k i j, i < 128 → j < 32 →
      x.mx.elem k i j = if k = t ∧ i = r then nth 0#32 vals j else c.mx.elem k i j)) ∧
    (∀ b, l.eff = .scale b → c.mx.discard.contains l.id = false → lands (fun _ x => x.regs = c.regs ∧
      x.mx = { c.mx with scaleQ := c.mx.scaleQ ++ [b], scaleIssue := c.mx.scaleIssue ++ [l.issue] })) ∧
    (∀ n, l.eff = .discardScales n → lands (fun _ x => x.regs = c.regs ∧ x.mx.tiles = c.mx.tiles ∧ x.mx.rowBuf = c.mx.rowBuf ∧ x.xt = c.xt ∧ flags x ∧
      ((∀ i ∈ c.mx.scaleIssue, i < l.issue) → c.mx.scaleIssue.length = c.mx.scaleQ.length →
        x.mx.scaleQ = c.mx.scaleQ.drop n ∧ x.mx.scaleIssue = c.mx.scaleIssue.drop n ∧ (n ≤ c.mx.scaleQ.length → x.mx.discard = c.mx.discard)) ∧
      (∀ i ∈ x.mx.discard, i ∈ c.mx.discard ∨ ∃ e ∈ s.scalesInFlight core, e.2.2 = i ∧ e.2.1 < l.issue))) ∧
    (∀ t n vals o, l.eff = .promote t n vals o → lands (fun _ x => x.regs = c.regs ∧ x.xt = c.xt ∧
      (∀ k i j, i < 128 → j < 32 → (∀ e ∈ vals, e.1 ≠ tileKey k i j) → x.mx.elem k i j = c.mx.elem k i j) ∧
      ((vals.map Prod.fst).Nodup → ∀ k i j w, (tileKey k i j, w) ∈ vals → x.mx.elem k i j = w) ∧
      (∀ k, k < 192 → x.mx.ovf.getLsbD k = (c.mx.ovf.getLsbD k && (o || !decide (t ≤ k ∧ k < t + n)))))) ∧
    ((∃ i rows, l.eff = .xtRow i rows) ∨ (∃ ps e, l.eff = .xtClear ps e) → lands (fun _ x => x.regs = c.regs ∧ x.mx = c.mx ∧ x.seq = c.seq ∧ flags x)) ∧
    (∀ i r, l.eff = .xtRow i [r] → lands (fun _ x => (x.xtUnit r.1).mask.getLsbD i = decide (i < 16) ∧
      (i < 16 → tblGet 0#512 i (x.xtUnit r.1).block = r.2) ∧ ∀ p, p ≠ r.1 → x.xtUnit p = c.xtUnit p)) ∧
    (∀ p e, l.eff = .xtClear [p] e → lands (fun _ x => (x.xtUnit p).block = [] ∧ (x.xtUnit p).mask = 0#16 ∧ (x.xtUnit p).capV = false ∧
      (x.xtUnit p).esize = e.getD (c.xtUnit p).esize ∧ ∀ k, k ≠ p → x.xtUnit k = c.xtUnit k)) ∧
    (∀ v, l.eff = .csr 0x003 v → lands (fun _ x => x.csrGet 0x003 = v ∧ x.regs = c.regs)) ∧
    (l.flags = 0#6 → ∀ n v, l.eff = .csr n v →
      let hw : Nat := if c.hw.1 = s.cycle then tblGet 0 n c.hw.2 else 0
      let only (x : Core) : Prop := x.regs = c.regs ∧ ∀ m, m ≠ n → x.csrGet m = c.csrGet m
      let fields (w : Nat → Bool) : Prop := lands (fun _ x => only x ∧
        ∀ k, k < 64 → (x.csrGet n).getLsbD k = if w k then v.getLsbD k else (c.csrGet n).getLsbD k)
      let clears (w : Nat → Bool) : Prop := lands (fun _ x => only x ∧
        ∀ k, k < 64 → (x.csrGet n).getLsbD k = (((c.csrGet n).getLsbD k && (!w k || v.getLsbD k)) || (BitVec.ofNat 64 hw).getLsbD k))
      (n = 0x001 → hw = 0 → fields (fun k => decide (k ≤ 41 ∨ (48 ≤ k ∧ k ≤ 53)))) ∧
      (n = 0x002 → hw = 0 → v.getLsbD 63 = true → lands (fun _ x => only x ∧ x.csrGet n = c.csrGet n)) ∧
      (n = 0x002 → hw = 0 → v.getLsbD 63 = false → fields (fun k => decide (k = 63 ∨ (50 ≤ k ∧ k ≤ 62) ∨ (6 ≤ k ∧ k ≤ 47) ∨ k ≤ 3))) ∧
      (n = 0x004 ∨ n = 0x008 ∨ n = 0x009 ∨ n = 0x045 → hw = 0 → fields (fun k => decide (k ≤ 31))) ∧
      (n = 0x004 ∨ n = 0x008 ∨ n = 0x009 → hw ≠ 0 → lands (fun _ x => only x ∧ x.csrGet n = BitVec.ofNat 64 ((v.toNat % 2 ^ 32 + hw) % 2 ^ 32))) ∧
      (n = 0x006 → lands (fun _ x => only x ∧
        x.csrGet n = BitVec.ofNat 64 ((v.toNat / 2 ^ 32 + hw) % 2 ^ 32 * 2 ^ 32 + (c.csrGet n).toNat % 2 ^ 32))) ∧
      (n = 0x007 → hw = 0 → fields (fun k => decide (k ≤ 3) && decide (v.toNat % 16 ≠ 0))) ∧
      (n = 0x00A → clears (fun k => decide (k = 16 ∨ k = 17))) ∧ (n = 0x041 → hw = 0 → clears (fun k => decide (k ≤ 11))) ∧
      (n = 0x103 → clears (fun k => decide (k ≤ 2))) ∧
      (n = 0x044 → hw = 0 → fields (fun k => decide (6 ≤ k ∧ k ≤ 47))) ∧
      (n = 0x100 ∨ n = 0x101 → hw = 0 → fields (fun k => decide (12 ≤ k ∧ k ≤ 59))) ∧ (n = 0x104 → hw = 0 → fields (fun k => decide (12 ≤ k))) ∧
      (n = 0x102 → lands (fun _ x => x.dispNext = some (v &&& 1#64) ∧ x.regs = c.regs ∧ x.csr = c.csr)) ∧
      (n = 0x005 → lands (fun _ x => x.csr = c.csr ∧ x.regs = c.regs ∧
        x.mx = { c.mx with run := { c.mx.run with ovf := c.mx.run.ovf && v.getLsbD 11 } })) ∧
      (n ∈ [0x200, 0x201, 0x300, 0x301, 0x380, 0x381] → ∃ t, exec (.resultLanding core id) s = .next t ∧ t.mem = s.mem ∧
        (∀ j, j ≠ core.val → t.core j = s.core j) ∧ (t.core core).regs = c.regs ∧ (t.core core).csr = c.csr ∧
        (n = 0x200 → (t.rope (ropeOf core)).celate = v.setWidth 32 +
          (if (s.rope (ropeOf core)).celateHw.1 = s.cycle then BitVec.ofNat 32 (s.rope (ropeOf core)).celateHw.2 else 0#32)) ∧
        (n = 0x201 → t.ropes = s.ropes ∧ (v = 0#64 → { at_ := s.cycle, prio := 2, ev := .cefinfoClear (ropeId (ropeOf core)) } ∈ t.agenda) ∧
          (v ≠ 0#64 → t.agenda = s.agenda)) ∧
        (n = 0x300 → (t.die (dieOf core)).tbinvAddr = v) ∧
        (n = 0x301 → (s.die (dieOf core)).tbinv.isSome = true ∨ v.toNat % 4 = 3 → t.dies = s.dies) ∧
        (n = 0x301 → (s.die (dieOf core)).tbinv = none → v.toNat % 4 ≠ 3 →
          (t.die (dieOf core)).tbinv = some { side := v.getLsbD 2, kind := v.toNat % 4, asid := v.toNat / 2 ^ 16 % 2 ^ 12, addr := (s.die (dieOf core)).tbinvAddr.toNat,
                                                  users := none } ∧ (t.die (dieOf core)).tbinvVal = v &&& 0xFFF0007#64) ∧
        (n = 0x380 → t.dies = (s.vmarginPut (dieOf core) v).dies) ∧ (n = 0x381 → t.dies = (s.linkmarginPut (dieOf core) v).dies)))) ∧
  (∀ (s : State) (core : CoreId) (id : Nat) (l : Landing) (r : MmacRow), (s.core core).inflight.find? (fun x => x.id == id) = some l →
    l.eff = .mmacRow r → s.flips = [] →
    let c := s.core core
    (r.arow = none → r.capAt = s.cycle → ∃ t, exec (.tileRowLanding core id) s = .next t ∧ t.mem = s.mem ∧ (t.core core).mx.tiles = c.mx.tiles ∧
      (t.core core).regs = c.regs ∧ ∃ m ∈ (t.core core).inflight, m.id = id ∧ m.at_ = l.at_ ∧ m.eff = .mmacRow { r with arow := some (c.mx.row r.rowIdx) }) ∧
    (r.arow.isSome = true → l.at_ = s.cycle → r.run = false → ∃ t, exec (.tileRowLanding core id) s = .next t ∧ t.mem = s.mem ∧
      (t.core core).regs = c.regs ∧ (t.core core).inflight = c.inflight.filter (fun m => m.id != id) ∧
      (∀ k i j, i < 128 → j < 32 → ¬ (i = r.m ∧ r.tile ≤ k ∧ k < r.tile + fmtTiles r.entry) → (t.core core).mx.elem k i j = c.mx.elem k i j) ∧
      (r.m < 128 → ∀ n, n < fmtN r.entry → (t.core core).mx.elem (r.tile + n / 32) r.m (n % 32) = BitVec.ofNat 32
        ((List.range (fmtBlocks r.entry)).foldl (fun acc b => (fpAdd fp32 .rne false acc
          (partialVal r.entry (nth 0#8 r.scales b).toNat (chunkScale r.entry (tblGet [] r.op c.mx.held) n b)
            (dotCodes (rowCodes r.entry (r.arow.getD []) b) (chunkCodes r.entry (tblGet [] r.op c.mx.held) n b))).bits).bits)
          (c.mx.elem (r.tile + n / 32) r.m (n % 32)).toNat))) ∧
    (r.arow.isSome = true → l.at_ = s.cycle → r.run = true → c.mx.run.isOpen = true → ∃ t, exec (.tileRowLanding core id) s = .next t ∧ t.mem = s.mem ∧
      (t.core core).regs = c.regs ∧ (t.core core).mx.tiles = c.mx.tiles ∧
      ∀ n, n < fmtN r.entry → tblGet 0 (r.m * 192 + n) (t.core core).mx.run.inner =
        (List.range (fmtBlocks r.entry)).foldl (fun acc b => max (-8388607) (min 8388607 (acc +
          dotCodes (rowCodes r.entry (r.arow.getD []) b) (chunkCodes r.entry (tblGet [] r.op c.mx.held) n b)))) (tblGet 0 (r.m * 192 + n) c.mx.run.inner)))

/-- Events of accesses to the scratchpad: a load's bank read and its tap, a store's bytes and no others, an atomic's read and its write of one word, the
barrier forms' word, and an interlocked access that finds its bank cycle. A live barrier word refuses a store with memory as it was (R51, R53, R69–R71,
R145, R153, R157, R309). -/
def Obligations.ScratchpadEvents : Prop :=
  ∀ (s : State) (core : CoreId) (id : Nat) (a : Access), s.access core id = some a → s.flips = [] →
    let rope := ropeOf core
    let r := s.rope rope
    let c := s.core core
    let word := leNat (a.data.getD [])
    let stores (i : Instr) (ws : List (Nat × Byte)) (P : State → Prop) : Prop :=
      ∃ t, exec i s = .next t ∧ (∀ w ∈ ws, memGet t.mem (keyPad rope w.1) = w.2) ∧
        (∀ k, (∀ w ∈ ws, k ≠ keyPad rope w.1) → memGet t.mem k = memGet s.mem k) ∧ (t.core core).regs = c.regs ∧ P t
    (a.banks ≠ [] → s.cycle = a.issue + 2 → a.kind ≠ .vgat →
      ∃ t x, exec (.loadTap core id) s = .next t ∧ t.mem = s.mem ∧ t.cores = s.cores ∧ x ∈ (t.rope rope).accs ∧ x.id = id ∧ x.banks = [] ∧
        x.data = some (readBytes s.mem (keyPad rope (a.off / 64 * 64)) 64)) ∧
    (∀ line, a.banks = [] → a.data = some line → r.tapAt a.lane a.station s.cycle = some (transferTag a.issue) → a.discarded = false → c.frame = none → c.slip = none →
      ∃ t l, exec (.loadTap core id) s = .next t ∧ t.mem = s.mem ∧ (t.rope rope).accs = r.accs.filter (fun x => x.id != id) ∧
        (t.core core).inflight = c.inflight ++ [l] ∧ (t.core core).regs = c.regs ∧ l.at_ = s.cycle + 1 + a.shift ∧ l.issue = a.issue ∧ l.flags = 0#6 ∧
        { at_ := l.at_, prio := 5, ev := .resultLanding core a.id } ∈ t.agenda ∧
        (∀ size sx, a.kind = .ld size sx →
          let x := leNat ((line.drop (a.off % 64)).take (2 ^ size))
          l.eff = .regs [.s a.dest (if sx then BitVec.ofInt 64 (signedOf (8 * 2 ^ size) x) else BitVec.ofNat 64 x)]) ∧
        (a.kind = .ldsc → l.eff = .scale line) ∧
        (a.kind = .vld ∨ a.kind = .vlds ∨ a.kind = .vgat → l.eff = .regs (((List.range 16).filter (fun i => a.lanes.getLsbD i)).map (fun i =>
          .v (vKey a.phys a.dest i) (BitVec.ofNat 32 (leNat ((line.drop (4 * i)).take 4))))))) ∧
    (∀ line, a.banks = [] → a.data = some line → r.tapAt a.lane a.station s.cycle = none → c.belay.roll = none → c.frame = none → c.seq.run = .running →
      a.handler = false → a.orphan = false → ∃ t, exec (.loadTap core id) s = .next t ∧ t.mem = s.mem ∧ (t.core core).frame.isSome = true ∧
        ((t.core core).csrGet 0x040).toNat % 256 = 6) ∧
    (∀ b : BitVec 4,
      let ws := a.wr.filter (fun w => w.1 / 64 % 16 == b.toNat)
      let sound : Prop := ilWord a.slot a.word = true → s.ilFault a a.ilAlign = none
      (sound → r.barrierAt (ws.map (·.1)) = false → (ws.map (·.1)).Nodup → stores (.storeBankWrite core id b) ws (fun _ => True)) ∧
      (sound → r.barrierAt (ws.map (·.1)) = true → ∃ t, exec (.storeBankWrite core id b) s = .next t ∧ t.mem = s.mem) ∧
      (∀ e, ilWord a.slot a.word = true → s.ilFault a a.ilAlign = some e →
        exec (.storeBankWrite core id b) s = .next ((s.dropAccess core id).accessCause a e.1 0 e.2))) ∧
    (∃ t x, exec (.scratchpadAtomicRead core id) s = .next t ∧ t.mem = s.mem ∧ t.cores = s.cores ∧ x ∈ (t.rope rope).accs ∧ x.id = id ∧
      x.data = some (readBytes s.mem (keyPad rope a.off) 8)) ∧
    (∀ op n v, a.kind = .atomic op n → atomicNew op n (BitVec.ofNat 64 word) a.opnd a.cmp = some v → r.barrierAt ((List.range 8).map (a.off + ·)) = false →
      a.discarded = false → c.frame = none → c.slip = none → c.belay.regions = [] →
      stores (.scratchpadAtomicWrite core id) (bytesAt a.off (leBytes 8 v.toNat)) (fun t =>
        ∃ l, (t.core core).inflight = c.inflight ++ [l] ∧ l.eff = .regs [.s a.dest (BitVec.ofNat 64 word)] ∧ l.at_ = s.cycle + a.shift)) ∧
    (s.barFault a (readNat s.mem (keyPad rope a.off) 8) = none → ∃ t x, exec (.barAccessRead core id) s = .next t ∧ t.mem = s.mem ∧ t.cores = s.cores ∧
      x ∈ (t.rope rope).accs ∧ x.id = id ∧ x.data = some (readBytes s.mem (keyPad rope a.off) 8)) ∧
    (a.kind = .barInit → a.opnd.toNat < 2 ^ 16 → stores (.barAccessWrite core id) (bytesAt a.off (leBytes 8 a.opnd.toNat)) (fun t =>
      a.off / 8 ∈ (t.rope rope).typeBits)) ∧
    (a.kind = .barFini → stores (.barAccessWrite core id) (bytesAt a.off (leBytes 8 0)) (fun t => a.off / 8 ∉ (t.rope rope).typeBits)) ∧
    (∀ nw, a.kind = .barArrive nw →
      let full : Prop := barArrived word + 1 = barExpected word
      let mine := if nw || (barWait word).testBit (core.val % 4) then barWait word else barWait word + 2 ^ (core.val % 4)
      let new := if barArrived word + 1 = barExpected word then barWord 0 (1 - barPhase word) 0 (barExpected word)
        else barWord mine (barPhase word) (barArrived word + 1) (barExpected word)
      stores (.barAccessWrite core id) (bytesAt a.off (leBytes 8 new)) (fun t => a.off / 8 ∈ (t.rope rope).typeBits ∧
        ∀ i, i < 4 → (t.core (4 * rope + i)).latch =
          let x := (s.core (4 * rope + i)).latch
          if full ∧ mine.testBit i = true ∧ x.valid = true then { x with released := true, cycle := s.cycle } else x)) ∧
    (∀ size sx,
      let bank := a.off / 64 % 16
      let segs := pathSegs a.lane (2 * bank) (2 * a.station + 1)
      let bs := pathBookings (s.coreRope core) a.lane (transferTag a.issue) a.station s.cycle segs
      a.kind = .ld size sx → a.tap = 0 → a.tagged = none → s.ilFault a (2 ^ size) = none → s.ilOrder a s.cycle = true →
      r.bankFault a.station [(bank, s.cycle)] = none → r.pathFree bs = true →
      ∃ t x, exec (.interlockedAccessPerform core id) s = .next t ∧ t.mem = s.mem ∧ t.cores = s.cores ∧ x ∈ (t.rope rope).accs ∧ x.id = id ∧
        x.interlocked = false ∧ x.data = some (readBytes s.mem (keyPad rope (a.off / 64 * 64)) 64) ∧
        { at_ := s.cycle + segsTime (s.coreRope core) segs, prio := 4, ev := .loadTap core id } ∈ t.agenda) ∧
    (let bank := a.off / 64 % 16
     let segs := pathSegs a.lane (2 * a.station + 1) (2 * bank)
     let bs := pathBookings (s.coreRope core) a.lane (transferTag a.issue) a.station s.cycle segs
     let at_ := s.cycle + segsTime (s.coreRope core) segs
     (a.kind = .st ∨ a.kind = .vst) → a.tagged = none → s.ilOrder a at_ = true → r.bankFault a.station [(bank, at_)] = none → r.pathFree bs = true →
      ∃ t x, exec (.interlockedAccessPerform core id) s = .next t ∧ t.mem = s.mem ∧ t.cores = s.cores ∧ x ∈ (t.rope rope).accs ∧ x.id = id ∧
        x.interlocked = false ∧ x.banks = [(bank, at_)] ∧ x.wr = a.wr ∧
        { at_ := at_, prio := 3, ev := .storeBankWrite core id (BitVec.ofNat 4 bank) } ∈ t.agenda)

/-! ### Tables and translation (R22–R36, R59–R64) -/

/-- Tables and translation: an install leaves the old table in force and is pending, or refused with a status, until its swap; a memory port starts one
request of its grantee; a walk reads its next entry, and a finished one answers its requester; an invalidation drops the entries it names and no others, and ends once their users have
performed (R29, R33, R35, R36, R60, R63, R64). -/
def Obligations.TableAndTranslationEvents : Prop :=
  ∀ (s : State),
    (∀ (rope : RopeId) (tenant : Nat) (image : List Byte),
      let r := s.rope rope
      (s.imageRefused rope tenant image = true → ∃ t, exec (.slotTableInstall rope tenant image) s = .next t ∧ t.mem = s.mem ∧
        t.rope rope = { r with tableStatus := 0x21 }) ∧
      (s.imageRefused rope tenant image = false →
        let at_ := (s.cycle / 64 + 1) * 64
        ∃ t, exec (.slotTableInstall rope tenant image) s = .next t ∧ t.mem = s.mem ∧ (t.rope rope).grants = r.grants ∧ (t.rope rope).owners = r.owners ∧
          (t.rope rope).pendingTable = some (imageGrants image, imageOwners image, at_) ∧
          { at_ := at_, prio := 0, ev := .slotTableSwap rope } ∈ t.agenda) ∧
      (∀ g o c, r.pendingTable = some (g, o, c) → c ≤ s.cycle → ∃ t, exec (.slotTableSwap rope) s = .next t ∧ t.mem = s.mem ∧ t.cores = s.cores ∧
        (t.rope rope).grants = g ∧ (t.rope rope).owners = o ∧ (t.rope rope).pendingTable = none ∧ (t.rope rope).handles = r.handles ∧
        (∀ a ∈ r.accs, (∀ b ∈ a.banks, s.cycle ≤ b.2 → tblGet 31 (16 * (b.2 % 64) + b.1) g = a.station) → a ∈ (t.rope rope).accs))) ∧
    (∀ (die : DieId) (tenant : Nat) (image : List Byte),
      let d := s.die die
      let st := s.portImageStatus die tenant image
      (st ≠ 0 → ∃ t, exec (.memoryPortTableInstall die tenant image) s = .next t ∧ t.mem = s.mem ∧ t.die die = { d with portStatus := st }) ∧
      (st = 0 → ∃ t, exec (.memoryPortTableInstall die tenant image) s = .next t ∧ t.mem = s.mem ∧ (t.die die).portGrants = d.portGrants ∧
        (t.die die).pendingPorts = some (imagePorts image, (s.cycle / 64 + 1) * 64)) ∧
      (∀ g c, d.pendingPorts = some (g, c) → c ≤ s.cycle → ∃ t, exec (.memoryPortTableSwap die) s = .next t ∧ t.mem = s.mem ∧
        t.die die = { d with portGrants := g, pendingPorts := none }) ∧
      (∀ (ch : BitVec 5) w, d.portPick ch.toNat s.cycle = some w → ∃ t, exec (.memoryPortAccess die ch) s = .next t ∧ t.mem = s.mem ∧
        t.cores = s.cores ∧ t.ropes = s.ropes ∧ w.started = false ∧ { w with started := true } ∈ (t.die die).portWaits ∧
        ∀ x ∈ d.portWaits, x.id ≠ w.id → x ∈ (t.die die).portWaits) ∧
      (∀ id w (core fid : Nat) vb size pb a b x, w ∈ d.walks → w.id = id → (∀ y ∈ d.walks, y.id = id → y = w) → w.who = [.code core fid] → w.instr = true →
        id < s.nextId → s.walkNext w = .inr (.page vb size pb a b x) →
        ∃ t, exec (.translationWalkComplete die id) s = .next t ∧ t.mem = s.mem ∧ (∀ y ∈ (t.die die).walks, y.id ≠ id) ∧
          { asid := w.asid, page := vb / 2 ^ 21, ppn := pb / 4096 } ∈ (t.core core).code.itb ∧ (t.core core).regs = (s.core core).regs ∧
          ∀ f ∈ (t.core core).code.fetches, f.id = fid → f.phys = pb + (f.addr.toNat - vb)) ∧
      (∀ w p, d.walks.find? (fun y => y.id == w.id) = some w → s.walkNext w = .inl p →
        ∃ t, exec (.translationWalkComplete die w.id) s = .next t ∧ t.mem = s.mem ∧ t.cores = s.cores ∧ t.ropes = s.ropes ∧
          { w with at_ := some p } ∈ (t.die die).walks ∧ ∃ e ∈ t.agenda, s.cycle < e.at_ ∧ e.ev = .translationWalkComplete die w.id) ∧
      (∀ w (rope eng xid : Nat) vb size pb a b x, d.walks = [w] → w.who = [.xfer rope eng xid] → w.instr = false → w.id < s.nextId →
        s.walkNext w = .inr (.page vb size pb a b x) →
        ∃ t, exec (.translationWalkComplete die w.id) s = .next t ∧ t.mem = s.mem ∧ t.cores = s.cores ∧ (∀ y ∈ (t.die die).walks, y.id ≠ w.id) ∧
          { asid := w.asid, window := false, vbase := vb, size := size, pbase := pb, r := a, w := b } ∈ (t.rope w.rope).dtb) ∧
      (∀ v, d.tbinv = some v →
        (s.tbUsers v = true → ∃ t, exec (.tbinvComplete die) s = .next t ∧ t.dies = s.dies ∧ t.mem = s.mem) ∧
        (s.tbUsers v = false → ∃ t, exec (.tbinvComplete die) s = .next t ∧ t.mem = s.mem ∧ t.die die = { d with tbinv := none }))) ∧
    (∀ (core : CoreId) v, (s.die (dieOf core)).tbinv = some v → v.side = false →
      let drops (i : Instr) (hit : DtbEntry → Bool) : Prop :=
        ∃ t, exec i s = .next t ∧ t.mem = s.mem ∧ t.cores = s.cores ∧
          (∀ r, dieOfRope r = dieOf core → (t.rope r).dtb = (s.rope r).dtb.filter (fun e => !hit e)) ∧
          (∀ r, dieOfRope r ≠ dieOf core → t.rope r = s.rope r)
      let a : W64 := BitVec.ofNat 64 v.addr
      drops (.tbinvAll core) (fun _ => true) ∧ drops (.tbinvAsid core) (fun e => e.asid == v.asid) ∧
      drops (.tbinvPage core) (fun e => e.asid == v.asid && e.window == (addrSpace a == 4) && decide (e.vbase ≤ addrOffset a) &&
        decide (addrOffset a < e.vbase + e.size))) ∧
    (∀ (core : CoreId) v, (s.die (dieOf core)).tbinv = some v → v.side = true →
      let drops (i : Instr) (hit : ItbEntry → Bool) : Prop :=
        ∃ t, exec i s = .next t ∧ t.mem = s.mem ∧ t.ropes = s.ropes ∧ ∀ j, (t.core j).regs = (s.core j).regs ∧
          (t.core j).code.itb = if dieOf j = dieOf core then (s.core j).code.itb.filter (fun e => !hit e) else (s.core j).code.itb
      drops (.tbinvAll core) (fun _ => true) ∧ drops (.tbinvAsid core) (fun e => e.asid == v.asid) ∧
      drops (.tbinvPage core) (fun e => e.asid == v.asid && e.page == v.addr % 2 ^ 48 / 2 ^ 21))

/-- Far operations at their homes: a request leaves once nothing holds it, for the port of its home, the host, the target package or a service of its own,
with an address fault in its place where its address is refused, and after a walk where its page misses; a store writes its bytes and no others, a load
answers with the extended value, an atomic writes its word and answers with the old one, and the answer lands in its register in the cycle in which it
arrives, or is held back while the core's context is frozen or under test (R17, R20, R27, R31–R33, R38, R87–R91, R154–R156, R451). -/
def Obligations.FarEvents : Prop :=
  ∀ (s : State) (core : CoreId) (id : Nat) (f : FarOp), (s.core core).farOp id = some f →
    let c := s.core core
    let performed (v : W64) (t : State) : Prop := ∃ g ∈ (t.core core).far.ops, g.id = id ∧ g.phase = .performed ∧ g.value = v
    (f.phase = .queued → (s.fenced core f.seq = true ∨ c.lineBusy f = true) →
      ∃ t, exec (.farRequestSend core id) s = .next t ∧ t.mem = s.mem ∧ t.cores = s.cores ∧ t.ropes = s.ropes ∧
        ∃ d ∈ t.agenda, s.cycle < d.at_ ∧ d.ev = .farRequestSend core id) ∧
    (∀ phys, f.phase = .queued → s.fenced core f.seq = false → c.lineBusy f = false → f.kind ≠ .ccall → addrSpace f.addr = 0 →
      addrCode s.sec.members f.kind.spaces f.addr = 0 → s.lookup (ropeOf core) f.root f.addr f.kind.off = .found phys →
      ∃ t, exec (.farRequestSend core id) s = .next t ∧ t.mem = s.mem ∧ (t.core core).regs = c.regs ∧
        (∃ g ∈ (t.core core).far.ops, g.id = id ∧ g.phase = .waitingPort ∧ g.phys = phys) ∧
        ∃ w ∈ (t.die (homeDie phys)).portWaits, w.farCore = core ∧ w.farId = f.id ∧ w.phys = phys ∧ w.what = 0 ∧ w.started = false ∧
          w.channel = Config.hbmChannel (phys / 64 * 64) % 32) ∧
    (f.phase = .queued → s.fenced core f.seq = false → c.lineBusy f = false → f.kind ≠ .ccall →
      let space := addrSpace f.addr
      let code := addrCode s.sec.members f.kind.spaces f.addr
      let look := s.lookup (ropeOf core) f.root f.addr f.kind.off
      let faults (n : Nat) : Prop :=
        ∃ t, exec (.farRequestSend core id) s = .next t ∧ t.mem = s.mem ∧ (t.core core).regs = c.regs ∧
          (∃ g ∈ (t.core core).far.ops, g.id = id ∧ g.fault = n ∧ g.phase = .performed) ∧
          (c.seq.run ≠ .retiring → (t.core core).far.fault = some (match c.far.fault with
            | none => { code := n, addr := f.addr, pc := f.pc, more := false }
            | some r => { r with more := true }))
      let sent (t : State) : Prop := exec (.farRequestSend core id) s = .next t ∧ t.mem = s.mem ∧ (t.core core).regs = c.regs ∧
        ∃ g ∈ (t.core core).far.ops, g.id = id ∧ g.phase = .sent
      (code ≠ 0 → faults code) ∧
      (code = 0 → space = 0 ∨ space = 4 →
        (∀ n, look = .fault n → faults n) ∧
        (look = .miss → ∃ t, exec (.farRequestSend core id) s = .next t ∧ t.mem = s.mem ∧ (t.core core).regs = c.regs ∧
          (((∃ g ∈ (t.core core).far.ops, g.id = id ∧ g.phase = .walking) ∧
              ∃ w ∈ (t.die (dieOfRope (ropeOf core))).walks, .farOp core.val f.id ∈ w.who) ∨
            ∃ d ∈ t.agenda, s.cycle < d.at_ ∧ d.ev = .farRequestSend core id))) ∧
      (∀ phys, code = 0 → space = 4 → look = .found phys →
        ∃ t x, sent t ∧ t.host.outbox = s.host.outbox ++ [x] ∧ x.w1 = BitVec.ofNat 64 (phys / 64 * 64) ∧
          (f.kind.off = .read → x.w0.toNat % 16 = 2 ∧ (x.w0.toNat / 16 % 2 ^ 12, .far core.val f.id) ∈ t.host.openReads) ∧
          (f.kind.off = .write → x.w0.toNat % 16 = 1 ∧ t.host.posted = s.host.posted ++ [(f.id, 0)])) ∧
      (code = 0 → space = 1 → ∃ t, sent t ∧ t.ropes = s.ropes ∧ ∃ d ∈ t.agenda, s.cycle < d.at_ ∧
        d.ev = (if f.kind = .ctrig then .triggerArm core f.id else .farAccessHomeService core f.id)) ∧
      (∀ phys, code = 0 → space = 5 → s.domainTarget core f.addr f.kind.off = .inr (Config.ownPackage, phys) →
        ∃ t, exec (.farRequestSend core id) s = .next t ∧ t.mem = s.mem ∧ (t.core core).regs = c.regs ∧
          (∃ g ∈ (t.core core).far.ops, g.id = id ∧ g.phase = .waitingPort ∧ g.phys = phys) ∧
          ∃ w ∈ (t.die (homeDie phys)).portWaits, w.farCore = core ∧ w.farId = f.id ∧ w.phys = phys ∧ w.requester = 16 ∧ w.started = false) ∧
      (code = 0 → space = 5 → (∀ phys, s.domainTarget core f.addr f.kind.off ≠ .inr (Config.ownPackage, phys)) → ∃ t, sent t ∧ t.ropes = s.ropes)) ∧
    (∀ k size, s.farHome core f = .inr k → f.kind = .store size → s.postedWaits (f.id, 0) = false →
      ∃ t, exec (.farAccessHomeService core id) s = .next t ∧ Writes s t k (leBytes (2 ^ size) f.data.toNat) ∧ (t.core core).regs = c.regs ∧ performed 0#64 t) ∧
    (∀ k size sx, s.farHome core f = .inr k → f.kind = .load size sx → s.keyBad k = false →
      let x := readNat s.mem k (2 ^ size)
      ∃ t, exec (.farAccessHomeService core id) s = .next t ∧ t.mem = s.mem ∧ (t.core core).regs = c.regs ∧
        performed (if sx then BitVec.ofInt 64 (signedOf (8 * 2 ^ size) x) else BitVec.ofNat 64 x) t) ∧
    (∀ k op n, s.farHome core f = .inr k → f.kind = .atomic op n → s.keyBad k = false →
      let old := readWord64 s.mem k
      (∀ v, atomicNew op n old f.data f.cmp = some v →
        ∃ t, exec (.globalAtomicHomeService core id) s = .next t ∧ Writes s t k (leBytes 8 v.toNat) ∧ performed old t) ∧
      (atomicNew op n old f.data f.cmp = none → ∃ t, exec (.globalAtomicHomeService core id) s = .next t ∧ t.mem = s.mem ∧ performed old t)) ∧
    (f.fault = 0 → f.kind.returns = true → c.holdsBack s.cycle f = false → ∃ t, exec (.farResponseArrival core id) s = .next t ∧ t.mem = s.mem ∧
      t.ropes = s.ropes ∧ (∀ j, j ≠ core.val → t.core j = s.core j) ∧ (t.core core).far.ops = c.far.ops.filter (fun x => x.id != f.id) ∧
      (t.core core).regs = c.regs ∧ (f.dest = 0 → (t.core core).inflight = c.inflight) ∧
      (f.dest ≠ 0 → ∃ l, (t.core core).inflight = c.inflight ++ [l] ∧ l.id = f.id ∧ l.at_ = s.cycle ∧ l.issue = f.issued ∧ l.flags = 0#6 ∧
        l.eff = .regs [.s f.dest f.value] ∧ { at_ := s.cycle, prio := 5, ev := .resultLanding core f.id } ∈ t.agenda)) ∧
    (f.fault = 0 → f.kind.returns = true → c.holdsBack s.cycle f = true → ∃ t, exec (.farResponseArrival core id) s = .next t ∧ t.mem = s.mem ∧
      (t.core core).regs = c.regs ∧ ∃ g ∈ (t.core core).far.ops, g.id = id ∧ g.heldBack = true)

/-- Copy engines: a transfer begins when its engine is free, a beat reads its line in a granted cycle, a line from elsewhere reaches the engine, a booked line
is written in its cycle with no other byte, an off-core line is written at its home, a port writes its line, and a write of zero clears the fault record,
but for a fault of its cycle (R47, R71, R87, R290–R292, R294, R350). -/
def Obligations.CopyEngineEvents : Prop :=
  ∀ (s : State) (rope : RopeId),
    let r := s.rope rope
    (r.cefHw.1 ≠ s.cycle → ∃ t, exec (.cefinfoClear rope) s = .next t ∧ t.mem = s.mem ∧ t.cores = s.cores ∧
      t.rope rope = { r with cefinfo := 0#64, cefaddr := 0#64 }) ∧
    (∀ e, r.cefHw = (s.cycle, [e]) → ∃ t, exec (.cefinfoClear rope) s = .next t ∧ t.mem = s.mem ∧ t.cores = s.cores ∧
      t.rope rope = { r with cefinfo := e.1, cefaddr := e.2 }) ∧
    (∀ (eng : BitVec 1) x, headXfer (r.engine eng.toNat).tsb = some x → (r.engine eng.toNat).readBusy = false → (r.engine eng.toNat).free ≤ s.cycle →
      x.s0 ≤ s.cycle → s.firstPages rope x = [] →
      ∀ i ∈ [Instr.transferBegin rope eng, .writeBackBegin rope eng], ∃ t, exec i s = .next t ∧ t.mem = s.mem ∧ t.cores = s.cores ∧
        { x with began := true, late := x.late || decide (x.s0 < s.cycle) } ∈ ((t.rope rope).engine eng.toNat).active ∧ (∀ y ∈ ((t.rope rope).engine eng.toNat).tsb, y.id ≠ x.id) ∧
        ((t.rope rope).engine eng.toNat).readBusy = true ∧ (t.rope rope).celate = (if x.s0 < s.cycle ∧ x.late = false then r.celate + 1#32 else r.celate) ∧
        { at_ := s.cycle, prio := 0, ev := .ceReadBeat rope eng } ∈ t.agenda) ∧
    (∀ (eng : BitVec 1) x p,
      let a := x.desc.srcLine x.nextLine
      (r.engine eng.toNat).active.find? (fun y => !y.cancelled && decide (y.nextLine < y.stop)) = some x → (r.engine eng.toNat).readBusy = true →
      (r.engine eng.toNat).readAt ≤ s.cycle → s.behindMiss rope eng.toNat x = false → addrSpace a = 1 → s.beatRead (s.coreRope x.core) rope (readStation eng.toNat) (bankOf (addrOffset a)) = some p → s.flips = [] → x.pending = [] →
      ∃ t y, exec (.ceReadBeat rope eng) s = .next t ∧ t.mem = s.mem ∧ t.cores = s.cores ∧ y ∈ ((t.rope rope).engine eng.toNat).active ∧ y.id = x.id ∧
        y.nextLine = x.nextLine + 1 ∧
        y.pending = [{ line := x.nextLine, data := readBytes s.mem (keyPad rope (addrOffset a)) 64, phase := .ready, addr := 0#64, phys := 0,
                       w := s.cycle + p.1 + 1, code := 0 }] ∧
        { at_ := s.cycle + p.1 + (if addrSpace x.desc.dst = 2 then 3 else 1), prio := 0, ev := .ceWriteBeat rope x.id x.nextLine } ∈ t.agenda) ∧
    (∀ id line eng x l data, s.xfer rope id = some (eng, x) → x.pending.find? (fun y => y.line == line && y.phase == .requested) = some l →
      x.cancelled = false → (∀ m ∈ x.pending, m.line < line → m.phase ≠ .requested) → s.homeLine x l = .inr data →
      ∃ t, exec (.ceOffcoreReadReturn rope id line) s = .next t ∧ t.mem = s.mem ∧ t.cores = s.cores ∧
        { at_ := s.cycle + (if addrSpace x.desc.dst = 2 then 3 else 1), prio := 0, ev := .ceWriteBeat rope id line } ∈ t.agenda ∧
        ∃ y, y ∈ ((t.rope rope).engine eng).active ++ ((t.rope rope).engine eng).tsb ∧ y.id = id ∧
          { l with data := data, phase := .ready, w := s.cycle + 1 } ∈ y.pending) ∧
    (∀ id line eng x l, s.xfer rope id = some (eng, x) → x.pending.find? (fun y => y.line == line) = some l → x.cancelled = false → x.fault = none → l.phase = .booked →
      let a := x.desc.dstLine line
      (addrSpace a = 1 → l.w = s.cycle → r.granteeAt (bankOf (addrOffset a)) s.cycle = writeStation eng → (∀ m ∈ x.pending, line ≤ m.line) →
        r.barrierAt ((List.range 8).map (fun k => addrOffset a + 8 * k)) = false →
        ∃ t, exec (.ceWriteBeat rope id line) s = .next t ∧ Writes s t (keyPad rope (addrOffset a)) l.data ∧ t.cores = s.cores) ∧
      (addrSpace a = 2 → ∃ t, exec (.ceWriteBeat rope id line) s = .next t ∧ Writes s t (keyB x.core (addrOffset a)) l.data ∧ t.cores = s.cores)) ∧
    (∀ id line eng x l k, s.xfer rope id = some (eng, x) → x.pending.find? (fun y => y.line == line && y.phase == .departed) = some l →
      x.fault = none → s.lineHome x l = .inr (some k) → s.lineStands x line = true → x.aheadOf line = false → s.postedWaits (id, line) = false →
      ∃ t, exec (.ceOffcoreWritePerform rope id line) s = .next t ∧ Writes s t k l.data ∧ t.cores = s.cores) ∧
    (∀ id q k (x line : Nat), r.ports.find? (fun p => p.id == id) = some q → q.write = true → q.w = some s.cycle → q.data.length = 64 →
      q.owner = .engine k x line → s.portStands q = true → r.granteeAt (bankOf q.off) s.cycle = q.station → (∀ p ∈ r.ports, p.before q = false) → r.barrierAt ((List.range 8).map (fun i => q.off + 8 * i)) = false →
      ∃ t, exec (.portBeat rope id) s = .next t ∧ Writes s t (keyPad rope q.off) q.data ∧ t.cores = s.cores ∧ (∀ p ∈ (t.rope rope).ports, p.id ≠ id) ∧
        { at_ := s.cycle, prio := 0, ev := .ceOffcoreWritePerform (ropeId k) x line } ∈ t.agenda)

/-! ### Recovery (R317–R323, R354) -/

/-- A detected error stops the core and rolls back to the innermost region that still may, or is an unrecovered-error trap where none is open; the restore
writes old lines back one by one, but for live barrier words, and then the kept registers and tiles, predicates, stacks and random state; the region
restarts in a cycle congruent with its H: its begin bundle issues again with its other slots (log entry 34: the model's reading of R321), those that reach no
dead unit where the core is to leave, which it may then do at that bundle (R381); a self-test wipes what it tested and the core goes on (R308, R317,
R320–R322, R354, R381). -/
def Obligations.RecoveryEvents : Prop :=
  ∀ (s : State) (core : CoreId),
    let c := s.core core
    (c.frame = none → c.belay.roll = none → c.seq.run = .running →
      let d := c.belay.escalate c.retryLimit c.belay.regions.length
      (c.belay.regions = [] → ∃ t, exec (.detectedErrorRollback core) s = .next t ∧ t.mem = s.mem ∧ (t.core core).frame.isSome = true ∧
        ((t.core core).csrGet 0x040).toNat % 256 = 17 ∧ (t.core core).regs = c.regs) ∧
      (∀ g, c.belay.at_ d = some g → ∃ t r, exec (.detectedErrorRollback core) s = .next t ∧ t.mem = s.mem ∧ (t.core core).belay.roll = some r ∧
        r.target = d ∧ r.x = s.cycle + 1 ∧ r.restored = false ∧ (t.core core).seq.run = .rollingBack ∧ (t.core core).seq.transfer = none ∧
        (t.core core).mx.scaleQ = [] ∧ (t.core core).mx.run.isOpen = false ∧ (t.core core).mx.tiles = c.mx.tiles ∧ (t.core core).regs = c.regs ∧
        (t.core core).belay.regions = c.belay.regions ∧ { at_ := s.cycle + 1, prio := 1, ev := .rollbackRestore core } ∈ t.agenda)) ∧
    (∀ r e, c.belay.roll = some r → r.restored = false → r.x ≤ s.cycle → (r.due ≠ 0 ∨ s.rollQuiet core = true) → c.belay.nextUndo r.target = some e →
      (s.rope (ropeOf core)).grantee (bankOf e.line) s.cycle = storeStation core → e.line % 64 = 0 → e.bytes.length = 64 →
      let key := keyPad (ropeOf core) e.line
      let live (n : Nat) : Bool := e.live.contains n || (s.rope (ropeOf core)).typeBits.contains n
      ∃ t, exec (.rollbackRestore core) s = .next t ∧ (t.core core).regs = c.regs ∧
        (∀ k, k < 64 → memGet t.mem (key + k) = if live ((e.line + k) / 8) then memGet s.mem (key + k) else nth 0#8 e.bytes k) ∧
        (∀ a, a < key ∨ key + 64 ≤ a → memGet t.mem a = memGet s.mem a) ∧
        e ∉ (t.core core).belay.journal ∧ { at_ := s.cycle + 1, prio := 1, ev := .rollbackRestore core } ∈ t.agenda) ∧
    (∀ r g, c.belay.roll = some r → r.restored = false → r.x ≤ s.cycle → r.due ≠ 0 → c.belay.nextUndo r.target = none → r.due + 8 ≤ s.cycle →
      r.due + 32 * (c.belay.shadows r.target).length ≤ s.cycle → c.belay.at_ r.target = some g → g.pitch = false → s.flips = [] →
      ∃ t, exec (.rollbackRestore core) s = .next t ∧ t.mem = s.mem ∧
        (let m := (s.bindMap core).core core
         (t.core core).regs = { (c.regs.writeAll (g.keptZeros m)).writeAll (keptWrites m g) with p := g.p }) ∧
        (t.core core).mx = ((c.belay.shadows r.target).foldl Core.unshadow c).mx ∧ (t.core core).csrGet 0x004 = g.rndseq ∧
        (t.core core).csrGet 0x001 = g.fpflags ∧ (t.core core).csrGet 0x002 = g.fpfirst ∧ (t.core core).seq.loops = g.loops ∧ (t.core core).seq.rets = g.rets ∧
        (t.core core).seq.rrb = g.rrb ∧ (∃ x rest, (t.core core).belay.regions = x :: rest ∧ x = { g with retry := g.retry + 1 }) ∧
        { at_ := s.cycle, prio := 1, ev := .regionRestart core } ∈ t.agenda) ∧
    (∀ r g rest, c.belay.roll = some r → r.restored = true → c.belay.regions = g :: rest →
      let st := ((s.rope (ropeOf core)).handle g.hIn).st
      let may : Prop := s.cycle % 64 = g.h % 64 ∧ (g.pitch = true → st = .full ∨ st = .faulted)
      (¬ may → ∃ t, exec (.regionRestart core) s = .next t ∧ t.mem = s.mem ∧ t.cores = s.cores ∧
        { at_ := s.cycle + 1, prio := 1, ev := .regionRestart core } ∈ t.agenda) ∧
      (may → ∃ t x, exec (.regionRestart core) s = .next t ∧ t.mem = s.mem ∧ (t.core core).belay.roll = none ∧
        (t.core core).belay.regions = { g with h := s.cycle } :: rest ∧ (t.core core).seq.run = .running ∧ (t.core core).regs = c.regs ∧
        (t.core core).seq.pc = g.restart ∧ (t.core core).seq.nextIssue = s.cycle ∧ (t.core core).seq.loops = c.seq.loops ∧
        (t.core core).replay = some x ∧ x.at_ = s.cycle ∧ x.whole = true ∧ x.lat.pc = g.beside.pc ∧ x.lat.regs = c.regs ∧
        (c.evacuate = false → x.lat.words = g.beside.words ∧ (t.core core).leaving = c.leaving ∧ (t.core core).csr = c.csr) ∧
        (c.evacuate = true → (t.core core).leaving = true ∧ (t.core core).evacuate = false ∧ ((t.core core).csrGet 0x103).getLsbD 1 = true ∧
          ∀ w, w ∈ x.lat.words ↔ w ∈ g.beside.words ∧
            ∀ k ∈ unitsReached ((s.bindMap core).core core) { cmask := g.beside.cmask, time := 0, words := [w], pool := g.beside.pool },
              (s.measuredCore (dieOf core) core).keyState k ≠ 3))) ∧
    (∀ mask since w, c.test = some (mask, since) → c.slip = some w → ∃ t, exec (.bistComplete core) s = .next t ∧ (t.core core).test = none ∧
      (t.core core).slip = none ∧ (t.core core).seq.run = .running ∧
      (t.core core).csrGet 0x00B = biststatWord mask.toNat (Config.bistResult (s.freeIndex (coreAgent core))) ∧
      (mask.getLsbD 6 = false → t.mem = s.mem) ∧ (mask.getLsbD 7 = false → (t.core core).regs = c.regs) ∧
      (mask.getLsbD 5 = true → (t.core core).mx.tiles = [] ∧ (t.core core).mx.ovf = 0#192) ∧
      (mask.getLsbD 7 = true → (∀ n, n < 32 → (t.core core).regs.sGet n = 0#64) ∧ (t.core core).regs.p = 0#8 ∧ (t.core core).regs.v = []))


/-! ### Contexts (R183, R185, R360, R411) -/

/-- A core that is asked to leave lands at a resume point: it issues no more and a save is due; the save waits for what is in flight and then writes the
record and empties the core; a core that issued `end` traps for a fault it still owes and retires when nothing of it is left; a die reports once all its
cores have left; and records are refused all together with status 0x3B, or put back once the dies of the launch run and the ports have started the reads:
first their handles and refills, then, after the launch's held operations, the contexts, with the spare cluster's registers as they were (R38, R63, R183,
R185, R187, R360, R380, R393, R411, R449, R457). -/
def Obligations.ContextEvents : Prop :=
  ∀ (s : State) (core : CoreId),
    let c := s.core core
    (∀ e, s.resumePoint core c.seq.pc = some e → c.frame = none → c.seq.run = .running → bitsNat (c.csrGet 0x103) 1 0 ≠ 0 →
      ∃ t, exec (.preemptionLanding core) s = .next t ∧ t.mem = s.mem ∧ (t.core core).seq.run = .saving ∧ (t.core core).save = some (s.cycle, e.desc.rpid) ∧
        (t.core core).regs = c.regs ∧ (t.core core).csr = c.csr ∧ (t.core core).mx = c.mx ∧ (t.core core).belay = c.belay ∧
        (∀ j, j ≠ core.val → t.core j = s.core j) ∧ ∃ d ∈ t.agenda, s.cycle < d.at_ ∧ d.ev = .contextSaveComplete core) ∧
    (s.resumePoint core c.seq.pc = none → exec (.preemptionLanding core) s = .next s) ∧
    (∀ v l, c.save = some v → c.launch = some l → c.seq.run = .saving → c.far.fault = none →
      let b := s.contextRecord core v.2 v.1 l
      let root := c.csrGet 0x100
      (s.saveWaits core = true → ∃ t, exec (.contextSaveComplete core) s = .next t ∧ t.mem = s.mem ∧ t.cores = s.cores ∧
        { at_ := s.cycle + 1, prio := 6, ev := .contextSaveComplete core } ∈ t.agenda) ∧
      (s.saveWaits core = false → s.postsWait (c.csrGet 0x104) = true → exec (.contextSaveComplete core) s =
        .next (s.schedule (s.cycle + 1) 6 (.contextSaveComplete core))) ∧
      (s.saveWaits core = false → s.postsWait (c.csrGet 0x104) = false → s.disp.asked.contains (.contextSaveComplete core) = false →
        ∃ t, exec (.contextSaveComplete core) s = .next t ∧ t.mem = s.mem ∧ t.cores = s.cores ∧ Follows s t (.contextSaveComplete core)) ∧
      (∀ u, s.saveWaits core = false → s.postsWait (c.csrGet 0x104) = false → s.disp.asked.contains (.contextSaveComplete core) = true →
        ({ s with disp := { s.disp with asked := s.disp.asked.erase (.contextSaveComplete core) } } : State).writeLines l.tenant (rootAsid root) root
          (b.length / 64) (c.csrGet 0x104) b = some u →
        ∃ t, exec (.contextSaveComplete core) s = .next t ∧ t.mem = u.mem ∧ (t.core core).seq.run = .idle ∧ (t.core core).save = none ∧
          (t.core core).csrGet 0x103 = c.csrGet 0x103 &&& ~~~3#64 ∧ (t.core core).regs = c.regs)) ∧
    (c.frame = none → c.seq.run = .retiring →
      (∀ u, s.retireFault core = some u → ∃ t, exec (.coreRetirement core) s = .next t ∧ t.mem = s.mem ∧ (t.core core).frame.isSome = true ∧
        ((t.core core).csrGet 0x040).toNat % 256 = 10 ∧ (t.core core).regs = c.regs) ∧
      (s.retireFault core = none → s.retireWaits core = true → ∃ t, exec (.coreRetirement core) s = .next t ∧ t.mem = s.mem ∧
        (t.core core).seq = c.seq ∧ (t.core core).regs = c.regs ∧ (t.core core).csr = c.csr ∧ (∀ j, j ≠ core.val → t.core j = s.core j) ∧
        { at_ := s.cycle + 1, prio := 6, ev := .coreRetirement core } ∈ t.agenda) ∧
      (s.retireFault core = none → s.retireWaits core = false → ∃ t, exec (.coreRetirement core) s = .next t ∧ t.mem = s.mem ∧
        t.core core = { c with seq := { c.seq with run := .idle } } ∧ ∀ j, j ≠ core.val → t.core j = s.core j)) ∧
    (∀ (die : DieId) launch, s.cannotReport die launch = false →
      Emits (exec (.preemptionReport die launch) s) s (.preemption launch die) (.preemptionRecord s.disp.stream.length) ∧
      Emits (exec (.retirementReport die launch) s) s (.retirement launch die) (.retirementRecord s.disp.stream.length)) ∧
    (∀ launch l, s.launch launch = some l → l.records ≠ [] → l.ropes ≠ [] → l.status = 0 →
      let up : Bool := (diesOf (s.coresOf launch)).all (fun d => (s.die d).up s.cycle)
      let asked : Bool := s.disp.asked.contains (.contextRestore launch)
      let refused : Prop := ∃ t, exec (.contextRestore launch) s = .next t ∧ t.mem = s.mem ∧ (∀ k ∈ s.coresOf launch, (t.core k).seq.run = .halted) ∧
        ∃ y ∈ t.disp.launches, y.id = launch ∧ y.status = 0x3B
      (up = false → exec (.contextRestore launch) s = .next (s.schedule (s.cycle + 1) 6 (.contextRestore launch))) ∧
      (up = true → s.launchObject l = none → refused) ∧
      (∀ o x, up = true → s.launchObject l = some o → s.coresOf launch = [core.val] → c.launch = some x → l.records.any (fun r => r.1 == x.lcore) = true →
        let read := s.readRecord l (tblGet 0#64 x.lcore l.records)
        (l.refilled = false → asked = false → ∃ t, exec (.contextRestore launch) s = .next t ∧ t.mem = s.mem ∧ t.cores = s.cores ∧
          t.disp.launches = s.disp.launches ∧ Follows s t (.contextRestore launch)) ∧
        (read = none → l.refilled = true ∨ asked = true → refused) ∧
        (∀ b, read = some b →
          (recordOk o b = false → l.refilled = true ∨ asked = true → refused) ∧
          (recordOk o b = true → l.refilled = false → asked = true → ∃ t, exec (.contextRestore launch) s = .next t ∧
            t.mem = (({ s with disp := { s.disp with asked := s.disp.asked.erase (.contextRestore launch) } } : State).refillContext l o core b).mem ∧
            (t.core core).regs = c.regs ∧ (∀ y ∈ t.disp.launches, y.id = launch → y.refilled = true) ∧
            ∃ d ∈ t.agenda, s.cycle < d.at_ ∧ d.ev = .heldTriggerPerform launch) ∧
          (∀ p e, recordOk o b = true → l.refilled = true → s.restorePoint l o core b = some (p, e) →
            ∃ t, exec (.contextRestore launch) s = .next t ∧ (t.core core).seq.run = .running ∧
              (t.core core).regs = restoreRegs c.regs b (((s.die (dieOf core)).mapAt s.cycle).core core) ∧
              (t.core core).seq.pc = bundleAddr (imageIb (objTag o.bytes) p.2.index) e.bundle ∧
              (t.core core).mx = restoreMatrix (recSection b 5) (recSection b 6) ∧ (t.core core).latch = restoreLatch (recSection b 1) ∧
              (t.core core).csrGet 0x001 = BitVec.ofNat 64 (natAt (recSection b 4) 0 8) ∧ s.cycle < (t.core core).seq.nextIssue ∧
              (t.core core).seq.nextIssue % 64 = (recordHead b).savecyc % 64 ∧ ∀ y ∈ t.disp.launches, y.id = launch → y.records = []))))


/-! ### Queues, packets and the stream (R171–R181, R377, R425, R445–R448) -/

/-- Packets that run no code: a copy, a signal, a wait and its polls, and a map query do what they name and end with status 0, or end with status 0x36
where an address faults; a packet starts when none before it holds it up, and what a map query answers is the map in force then; an invalid packet stops its
queue with FREC; and a completion writes its record and moves PROGRESS, unless the queue is switched out; what goes to the host waits for the posted writes
before it (R171, R173, R174, R177–R179, R377, R451). That a misaligned signal, wait or map-query address, and one of space 5, ends its packet with 0x36 is the
model's choice (log entry 40), and so is a completion address of space 5, which takes no record (log entry 103). -/
def Obligations.PacketEvents : Prop :=
  ∀ (s : State) (queue : QueueId) (seq : BitVec 32) (p : Packet), s.packet queue seq = some p →
    let q := queue.val
    let w (i : Nat) : W64 := pw p.words i
    let ends (i : Instr) (st : Nat) (mem : List Host.Cell) : Prop := Finishes (exec i s) s queue seq p st none mem
    let free (a : W64) : Prop := addrSpace a = 4 → s.host.posted = []
    (∀ e ∈ [(Instr.packetBulkCopy queue seq, w 2), (.packetSignal queue seq, w 1), (.packetMapQuery queue seq, w 2)], ¬ free e.2 →
      ∃ t, exec e.1 s = .next t ∧ t.mem = s.mem ∧ t.disp = s.disp ∧ { at_ := s.cycle + 1, prio := 6, ev := e.1 } ∈ t.agenda) ∧
    (∀ a b, free (w 2) → w 3 = 64#64 → s.queueLocate q (w 1) .read = some a → s.queueLocate q (w 2) .write = some b →
      ends (.packetBulkCopy queue seq) 0 (writeBytes s.mem b (readBytes s.mem a 64))) ∧
    (free (w 2) → 64 ≤ (w 3).toNat → s.queueLocate q (w 1) .read = none ∨ s.queueLocate q (w 2) .write = none →
      ends (.packetBulkCopy queue seq) 0x36 s.mem) ∧
    (∀ u, free (w 2) → s.copyLines q ((w 3).toNat / 64) (w 1) (w 2) = some u → ends (.packetBulkCopy queue seq) 0 u.mem) ∧
    (free (w 2) → s.copyLines q ((w 3).toNat / 64) (w 1) (w 2) = none → ends (.packetBulkCopy queue seq) 0x36 s.mem) ∧
    (let a := w 1
     let add := bitAt (w 3) 0
     let bad : Prop := a.toNat % 8 ≠ 0 ∨ addrSpace a = 5 ∨ (add = true ∧ addrSpace a ≠ 0)
     (free a → bad ∨ s.queueLocate q a .write = none → ends (.packetSignal queue seq) 0x36 s.mem) ∧
     (∀ k, free a → ¬ bad → s.queueLocate q a .write = some k →
       ends (.packetSignal queue seq) 0 (writeWord64 s.mem k (if add then readWord64 s.mem k + w 2 else w 2)))) ∧
    (∀ i ∈ [Instr.packetWaitOnValue queue seq, .waitValuePoll queue seq],
      let a := w 1
      let bad : Prop := a.toNat % 8 ≠ 0 ∨ addrSpace a = 5
      (bad ∨ s.queueLocate q a .read = none → ends i 0x36 s.mem) ∧
      (∀ k, ¬ bad → s.queueLocate q a .read = some k →
        let x := readWord64 s.mem k &&& w 3
        let holds : Prop := match (w 4).toNat with
          | 0 => x = w 2
          | 1 => x ≠ w 2
          | 2 => (w 2).toNat ≤ x.toNat
          | _ => x.toNat < (w 2).toNat
        (holds → ends i 0 s.mem) ∧
        (¬ holds → ∃ t, exec i s = .next t ∧ t.mem = s.mem ∧ t.cores = s.cores ∧ t.disp = s.disp ∧
          ∃ d ∈ t.agenda, s.cycle < d.at_ ∧ d.at_ ≤ s.cycle + 1024 ∧ d.ev = .waitValuePoll queue seq))) ∧
    (∀ y, s.packetsOf q = [y] → y.phase = .read → packetValid y.words = true → packetKind y.words ≠ 1 → s.packetsRun = true → (s.queue q).reads = true →
      (s.queue q).fetch = (s.queue q).tail →
      let d := (pw y.words 1).toNat
      let all := if d = 0xFF then s.packageRecord else ((s.die d).mapAt s.cycle).content d
      let b := if (pw y.words 3).toNat < all.length then (cut 64 all).1 else all
      ∃ t, exec (.queueAging queue) s = .next t ∧ t.mem = s.mem ∧ t.cores = s.cores ∧ Follows s t (packetEvent queue y.seq y.words) ∧
        t.packet q y.seq = some { y with phase := .started, answer := if packetKind y.words = 7 then b else [] }) ∧
    (let b := p.answer
     let x := s.queue q
     (∀ u, free (w 2) → (w 2).toNat % 64 = 0 → addrSpace (w 2) ≠ 5 →
       s.writeLines x.tenant x.asid (s.rootsOf x.tenant x.asid).1 (b.length / 64) (w 2) b = some u → ends (.packetMapQuery queue seq) 0 u.mem) ∧
     (free (w 2) → (w 2).toNat % 64 ≠ 0 ∨ addrSpace (w 2) = 5 ∨
       s.writeLines x.tenant x.asid (s.rootsOf x.tenant x.asid).1 (b.length / 64) (w 2) b = none → ends (.packetMapQuery queue seq) 0x36 s.mem)) ∧
    (∃ t, exec (.packetInvalid queue seq) s = .next t ∧ t.mem = s.mem ∧ t.cores = s.cores ∧ t.disp.packets = s.disp.packets ∧
      t.queue q = { s.queue q with stopped := true, frec := frecWord (bitsNat (w 0) 7 0) 0x31 seq }) ∧
    (p.phase ≠ .done →
      ((s.queue q).res = false → ∃ t, exec (.packetComplete queue seq) s = .next t ∧ t.mem = s.mem ∧ t.disp = s.disp ∧
        ∃ d ∈ t.agenda, s.cycle < d.at_ ∧ d.ev = .packetComplete queue seq) ∧
      ((s.queue q).res = true → ¬ free (packetCmpl p.words) → ∃ t, exec (.packetComplete queue seq) s = .next t ∧ t.mem = s.mem ∧ t.disp = s.disp ∧
        { at_ := s.cycle + 1, prio := 6, ev := .packetComplete queue seq } ∈ t.agenda) ∧
      ((s.queue q).res = true → free (packetCmpl p.words) → ∃ t, exec (.packetComplete queue seq) s = .next t ∧ t.cores = s.cores ∧
        (s.packetsOf q = [p] → (t.queue q).progress = p.seq + 1#32) ∧
        (packetCmpl p.words = 0#64 → t.mem = s.mem) ∧
        (∀ k, packetCmpl p.words ≠ 0#64 → (packetCmpl p.words).toNat % 16 = 0 → addrSpace (packetCmpl p.words) ≠ 5 → s.queueLocate q (packetCmpl p.words) .write = some k →
          t.mem = writeWord64 (writeWord64 s.mem k (BitVec.ofNat 64 (bitsNat (w 0) 63 32 * 2 ^ 32 + p.status.toNat))) (k + 8)
            (p.word1.getD (BitVec.ofNat 64 s.cycle)))))

/-- Packets of the collective side: a timetable is installed or removed only where nothing forbids it; a save or a restore stays in progress while its
accesses start; a save then writes its items, and after their readback the cairns, only if every item reads back; a restore writes back the classes of the
slot that qualifies; each other case ends with its status and changes no memory (R425, R444–R448). Where a member's state lies, what the stripe map hashes, and
what a fault of a class does, is the model's choice (log entry 63), and so is what names a timetable to remove (log entry 61). -/
def Obligations.CollectivePackets : Prop :=
  ∀ (s : State) (queue : QueueId) (seq : BitVec 32) (p : Packet), s.packet queue seq = some p →
    let q := queue.val
    let x := s.queue q
    let root := (s.rootsOf x.tenant x.asid).1
    let w (i : Nat) : W64 := pw p.words i
    let ends (i : Instr) (st : Nat) : Prop := Finishes (exec i s) s queue seq p st none s.mem
    (∀ b, addrSpace (w 1) = 0 → s.readLines x.tenant x.asid root (((w 2).toNat + 63) / 64) (w 1) = some b →
      let tt := (cut (w 2).toNat b).1
      let st := s.installStatus x.tenant tt
      (st ≠ 0 → ends (.packetTimetableInstall queue seq) st ∧
        ∀ t, exec (.packetTimetableInstall queue seq) s = .next t → t.coll = s.coll) ∧
      (st = 0 → ends (.packetTimetableInstall queue seq) 0 ∧
        ∀ t, exec (.packetTimetableInstall queue seq) s = .next t →
          t.coll = { s.coll with timetables := s.coll.timetables ++ [timetableOf s.nextId x.tenant tt] })) ∧
    (∀ b y, addrSpace (w 1) = 0 → s.readLines x.tenant x.asid root 1 (w 1) = some b → s.installed x.tenant (natAt b 0 2) = some y →
      (s.coll.instances.any (fun i => i.tt == y.id) = true → ends (.packetTimetableRemove queue seq) 0x54) ∧
      (s.coll.instances.any (fun i => i.tt == y.id) = false → ends (.packetTimetableRemove queue seq) 0 ∧
        ∀ t, exec (.packetTimetableRemove queue seq) s = .next t →
          t.coll = { s.coll with timetables := s.coll.timetables.filter (fun z => z.id != y.id) })) ∧
    (addrSpace (w 1) ≠ 0 → ends (.packetTimetableInstall queue seq) 0x36 ∧ ends (.packetTimetableRemove queue seq) 0x36) ∧
    (s.packetDesc q (w 1) = none → ends (.packetCheckpointSave queue seq) 0x36 ∧ ends (.packetCheckpointRestore queue seq) 0x36) ∧
    (∀ d, s.packetDesc q (w 1) = some d →
      let st := s.ckStatus d true (w 2)
      let rt := s.ckStatus d false 0#64
      let starts (i : Instr) (k : Checkpoint) : Prop :=
        ∃ t, exec i s = .next t ∧ t.mem = s.mem ∧ t.cores = s.cores ∧ t.ropes = s.ropes ∧ t.coll = { s.coll with checkpoints := s.coll.checkpoints ++ [k] } ∧
          Follows s t (.checkpointReadback k.id)
      let k : Checkpoint :=
        { id := s.nextId, group := ckGroup d, tenant := x.tenant, desc := d, step := w 2, slot := if s.slotRank d 1 < s.slotRank d 0 then 1 else 0,
          packet := some (q, seq), failed := false, restore := false, written := false }
      (st ≠ 0 → ends (.packetCheckpointSave queue seq) st) ∧
      (st = 0 → starts (.packetCheckpointSave queue seq) k) ∧
      (rt ≠ 0 → ends (.packetCheckpointRestore queue seq) rt) ∧
      (rt = 0 → starts (.packetCheckpointRestore queue seq) { k with step := 0#64, slot := 0, restore := true })) ∧
    (∀ (ck : Nat) k, s.coll.checkpoints.find? (fun y => y.id == ck) = some k → k.packet = some (q, seq) →
      let d := k.desc
      let g := s.modColl (fun c => { c with checkpoints := c.checkpoints.filter (fun y => y.id != ck) })
      let down (m : Nat) : Bool := s.memberDown (ckPkg d m) (ckDie d m)
      (k.restore = false → k.written = false →
        let found := (List.range (ckData d)).map (fun i => (s.shardOf k.tenant d i).getD [])
        let put (mem : List Host.Cell) (m : Nat) (item : List Byte) :=
          writeBytes (writeBytes mem (ckKey d m k.slot 64) (itemHeader k.step m item)) (ckKey d m k.slot 128) item
        let zeroed := (ckMembers d).foldl (fun mem m => writeBytes mem (ckKey d m k.slot 0) (List.replicate 64 0#8)) s.mem
        ∃ t y, exec (.checkpointReadback ck) s = .next t ∧ t.cores = s.cores ∧ t.ropes = s.ropes ∧
          t.mem = put ((List.range (ckData d)).foldl (fun mem i => put mem (i + 1) (nth [] found i)) zeroed) 0 (found.foldl xorBytes []) ∧
          t.coll.checkpoints.find? (fun y => y.id == ck) = some { k with written := true, failed := y } ∧
          (y = true ↔ k.failed = true ∨ ∃ i, i < ckData d ∧ s.shardOf k.tenant d i = none) ∧ Follows s t (.checkpointReadback ck)) ∧
      (k.restore = false → k.written = true →
        let whole : Prop := k.failed = false ∧ ∀ m ∈ ckMembers d, down m = false ∧ (s.itemDigest d k.slot m k.step).isSome = true
        let digests := (ckMembers d).map (fun m => (s.itemDigest d k.slot m k.step).getD [])
        (¬ whole → ends (.checkpointReadback ck) 0x4D) ∧
        (whole → Finishes (exec (.checkpointReadback ck) s) s queue seq p 0 none
          ((ckMembers d).foldl (fun mem m => writeBytes mem (ckKey d m k.slot 0) (cairnOf d k.step k.slot digests)) s.mem))) ∧
      (k.restore = true →
        let first := if s.slotRank d 0 < s.slotRank d 1 then 1 else 0
        let best := (g.slotShards d first).or (g.slotShards d (1 - first))
        let back (y : List (List Byte) × List Byte) : Option State :=
          (List.range (ckData d)).foldl (fun acc i => acc.bind (fun z => z.writeClasses k.tenant d i (nth [] y.1 i))) (some g)
        (best = none → ends (.checkpointReadback ck) 0x56) ∧
        (∀ y, best = some y → (∃ m, m < ckData d ∧ down m = true) → ends (.checkpointReadback ck) 0x4D) ∧
        (∀ y, best = some y → (∀ m, m < ckData d → down m = false) → back y = none → ends (.checkpointReadback ck) 0x36) ∧
        (∀ y u, best = some y → (∀ m, m < ckData d → down m = false) → back y = some u →
          Finishes (exec (.checkpointReadback ck) s) s queue seq p (if natAt y.2 0x3D 1 % 2 = 1 then 0x55 else 0)
            (some (BitVec.ofNat 64 (natAt y.2 0 8))) u.mem)) ∧
      ∀ t, exec (.checkpointReadback ck) s = .next t → (k.restore = true ∨ k.written = true) → ∀ y ∈ t.coll.checkpoints, y.id ≠ ck)

/-- The queue table: an entry whose LOG2N the spec does not allow is not written; a reset empties the queue; a queue that runs nothing leaves at once and
otherwise asks its launches to leave; a queue comes back; and a packet that has waited past QAGE ages its queue (R171, R173, R174, R180, R183). That a reset
zeroes every sequence number is the model's choice (log entry 21). -/
def Obligations.QueueTable : Prop :=
  ∀ (s : State) (queue : QueueId),
    let q := queue.val
    let x := s.queue q
    (∀ e : BitVec 256,
      let y := Queue.ofEntry e
      (y.log2n < 6 ∨ 16 < y.log2n → exec (.queueTableWrite queue e) s = .next s) ∧
      (6 ≤ y.log2n → y.log2n ≤ 16 → bitsNat e 68 64 = 0 →
        ∃ t, exec (.queueTableWrite queue e) s = .next t ∧ t.mem = s.mem ∧ t.cores = s.cores ∧ (t.queue q).ring = y.ring ∧ (t.queue q).log2n = y.log2n ∧
          (t.queue q).tenant = y.tenant ∧ (t.queue q).prio = y.prio ∧ (t.queue q).asid = y.asid ∧ (t.queue q).en = y.en ∧ (t.queue q).res = y.res ∧
          (t.queue q).tail = y.tail ∧ (t.queue q).progress = y.progress)) ∧
    (∃ t, exec (.queueReset queue) s = .next t ∧ t.mem = s.mem ∧ t.cores = s.cores ∧ t.packetsOf q = [] ∧
      t.queue q = { x with frec := 0#32, savedProg := 0#32, fetch := 0#32, progress := 0#32, tail := 0#32, stopped := false, aged := false, asking := none }) ∧
    (x.res = true → s.queueRuns q = false → ∃ t, exec (.queueSwitchOut queue) s = .next t ∧ t.mem = s.mem ∧ t.cores = s.cores ∧
      t.queue q = { x with savedProg := x.progress, res := false, leaving := false }) ∧
    (∀ l, x.res = true → l ∈ s.disp.launches → l.queue = q → l.phase = .running → ∃ t, exec (.queueSwitchOut queue) s = .next t ∧ t.mem = s.mem ∧
      (t.queue q).leaving = true ∧ (t.queue q).reads = false ∧
      ∀ k ∈ s.coresOf l.id, (s.core k).left = false → ((t.core k).csrGet 0x103).getLsbD 0 = true) ∧
    (x.res = false → (∀ l ∈ s.disp.launches, l.phase ≠ .unplaced) →
      ∃ t, exec (.queueSwitchIn queue) s = .next t ∧ t.mem = s.mem ∧ t.cores = s.cores ∧ (t.queue q).res = true ∧ (t.queue q).progress = x.progress) ∧
    (∀ p, (s.packetsOf q).find? (fun y => y.phase == .read) = some p → p.readAt + s.disp.qage.toNat < s.cycle →
      ∃ t, exec (.queueAging queue) s = .next t ∧ t.mem = s.mem ∧ t.cores = s.cores ∧ (t.queue q).aged = true)


/-- The dispatcher: the queue with the highest effective priority has its launch selected; a launch goes into the stream or completes at once, while tenants
run; records are applied in stream order on every die and followed by placement, and a digest that differs halts the stream until firmware brings it back;
held operations of a launch that has been placed run or write FREC, and its contexts are restored once all of them have performed; and an object whose bytes
have been read is checked, and its image mapped (R175, R177, R180–R185, R187, R396, R399, R401, R454). Which states of an object's address make it refused, and
where its bundles are written, log entry 47 says. -/
def Obligations.DispatcherEvents : Prop :=
  ∀ (s : State),
    (∀ q p, s.disp.halted = false → (∀ u ∈ s.disp.uploads, s.groupWaits u.group = true) → s.packetsRun = true → q < 1024 → q ∈ s.disp.queues.map (·.1) → s.nextLaunch q = some p →
      (∀ k y, k ≠ q → k ∈ s.disp.queues.map (·.1) → s.nextLaunch k = some y → s.effPrio k y < s.effPrio q p) →
      ∃ t l, exec .launchSelection s = .next t ∧ t.mem = s.mem ∧ t.cores = s.cores ∧ t.disp.launches = s.disp.launches ++ [l] ∧ l.id = s.nextId ∧
        l.queue = q ∧ l.seq = p.seq ∧ l.tenant = (s.queue q).tenant ∧ l.prio = s.effPrio q p ∧ l.obj = pw p.words 1 ∧
        l.kernel = bitsNat (pw p.words 2) 31 0 ∧ l.ncore = bitsNat (pw p.words 2) 47 32 ∧ l.cmpl = pw p.words 3 ∧
        l.args = [pw p.words 4, pw p.words 5, pw p.words 6, pw p.words 7] ∧ l.phase = .selected ∧ (t.queue q).aged = false ∧
        ∃ d ∈ t.agenda, s.cycle < d.at_ ∧ d.ev = .packetLaunch (queueId q) p.seq) ∧
    (∀ (queue : QueueId) (seq : BitVec 32) l,
      s.disp.launches.find? (fun x => x.queue == queue.val && x.seq == seq && x.phase == .selected && !s.emitted x.id) = some l →
      (s.lifeRuns = false → exec (.packetLaunch queue seq) s = .next s) ∧
      (s.lifeRuns = true → s.launchStatus l = 0 → Emits (exec (.packetLaunch queue seq) s) s (.launch l.id) (.launchRecord s.disp.stream.length)) ∧
      (∀ p, s.lifeRuns = true → s.launchStatus l ≠ 0 → s.packet queue.val seq = some p →
        Finishes (exec (.packetLaunch queue seq) s) s queue seq p (s.launchStatus l) none s.mem)) ∧
    (∀ (id : Nat) r, s.Applies id r →
      (∀ l, r.kind = .launch l → ∃ u : State, exec (.launchRecord id) s = .next u.placement ∧ u.mem = s.mem ∧ u.cores = s.cores ∧ u.disp.applied = id + 1 ∧
        ∀ x ∈ u.disp.launches, x.id = l → x.phase = .unplaced) ∧
      (∀ d, r.kind = .map d → ∃ u : State, exec (.mapRecord id) s = .next u.placement ∧ u.mem = s.mem ∧ u.cores = s.cores ∧ u.disp.applied = id + 1 ∧
        ∀ k, k < 32 → (u.die k).digest = d) ∧
      (∀ l d, r.kind = .retirement l d → ∃ u : State, exec (.retirementRecord id) s = .next u.placement ∧ u.mem = s.mem ∧ u.disp.applied = id + 1 ∧
        (∀ k ∈ s.coresOn l d, (u.core k).launch = none ∧ (u.core k).seq.run = .idle) ∧ ∀ k, k ∉ s.coresOn l d → u.core k = s.core k) ∧
      (∀ l d, r.kind = .preemption l d → ∃ u : State, exec (.preemptionRecord id) s = .next u.placement ∧ u.mem = s.mem ∧ u.disp.applied = id + 1 ∧
        (∀ k ∈ s.coresOn l d, (u.core k).launch = none ∧ (u.core k).seq.run = .idle) ∧ ∀ k, k ∉ s.coresOn l d → u.core k = s.core k)) ∧
    (∀ (id : Nat) r l, s.disp.halted = false → s.disp.applied = id → s.disp.stream[id]? = some r → r.kind = .launch l →
      (∃ d, d < 32 ∧ (s.die d).digest ≠ r.digest) →
      ∃ t, exec (.launchRecord id) s = .next t ∧ t.mem = s.mem ∧ t.cores = s.cores ∧ t.disp = { s.disp with halted := true } ∧
        ∀ d, d < 32 → (s.die d).digest ≠ r.digest → (t.die d).stopped = true) ∧
    (∀ r, s.disp.stream[s.disp.applied]? = some r →
      ∃ t, exec .streamRecovery s = .next t ∧ t.mem = s.mem ∧ t.cores = s.cores ∧ t.disp = { s.disp with halted := false } ∧
        (∀ d, d < 32 → (t.die d).stopped = false ∧ (t.die d).digest = r.digest) ∧
        ∃ e ∈ t.agenda, s.cycle < e.at_ ∧ e.ev = recordEvent s.disp.applied r) ∧
    (∀ launch l, s.launch launch = some l →
      ((∀ h ∈ s.coll.held, h.owner ≠ launch) → (∃ c ∈ s.coll.copies, c.owner = launch) →
        ∃ t, exec (.heldTriggerPerform launch) s = .next t ∧ t.mem = s.mem ∧ t.cores = s.cores ∧ t.coll = s.coll ∧
          ∃ d ∈ t.agenda, d.at_ = s.cycle + 1 ∧ d.ev = .heldTriggerPerform launch) ∧
      ((∀ h ∈ s.coll.held, h.owner ≠ launch) → (∀ c ∈ s.coll.copies, c.owner ≠ launch) →
        ∃ t, exec (.heldTriggerPerform launch) s = .next t ∧ t.mem = s.mem ∧ t.cores = s.cores ∧ t.coll = s.coll ∧
          ∃ d ∈ t.agenda, s.cycle < d.at_ ∧ d.ev = .contextRestore launch) ∧
      (∀ h, (∀ c ∈ s.coll.copies, c.owner ≠ launch) → s.coll.held = [h] → h.owner = launch → residentFor l h.action = false →
        ∃ t, exec (.heldTriggerPerform launch) s = .next t ∧ t.mem = s.mem ∧ t.cores = s.cores ∧ t.coll.held = [] ∧
          t.queue l.queue = { s.queue l.queue with frec := frecWord 1 0x37 l.seq } ∧ ∃ d ∈ t.agenda, s.cycle < d.at_ ∧ d.ev = .contextRestore launch) ∧
      (∀ h, (∀ c ∈ s.coll.copies, c.owner ≠ launch) → s.coll.held = [h] → h.owner = launch → natAt h.action 0 1 = 3 → actionWakes h.action = true →
        ∃ t, exec (.heldTriggerPerform launch) s = .next t ∧ t.mem = s.mem ∧ t.coll.held = [] ∧
          ((t.core (actionCore h.action)).csrGet 0x103).getLsbD 2 = true ∧ (∀ k, k ≠ actionCore h.action → t.core k = s.core k) ∧
          ∃ d ∈ t.agenda, s.cycle < d.at_ ∧ d.ev = .contextRestore launch)) ∧
    (∀ tenant addr len, ∃ t, exec (.objectUpload tenant addr len) s = .next t ∧ t.mem = s.mem ∧ t.cores = s.cores ∧
      t.disp = { s.disp with uploads := s.disp.uploads ++ [{ tenant := tenant, addr := addr, len := len, group := s.nextId }] } ∧
      Follows s t .launchSelection) ∧
    (∀ u : Upload, s.disp.uploads = [u] → s.groupWaits u.group = false → ∀ r rest b, (s.partition u.tenant).roots = r :: rest →
      s.readLines u.tenant r.1 r.2.1 ((u.len + 63) / 64) u.addr = some b →
      let p := s.partition u.tenant
      let x := (cut u.len b).1
      let misplaced : Prop := addrSpace u.addr ≠ 0 ∨ u.addr.toNat % 4096 ≠ 0
      (∃ t o, exec .launchSelection s = .next t ∧ t.disp.uploads = [] ∧ t.cores = s.cores ∧ o ∈ t.disp.objects ∧ o.addr = u.addr ∧ o.tenant = u.tenant ∧
        o.bytes = x ∧ (misplaced → o.status = 0x39) ∧ (¬ misplaced → o.status = objStatus x p.needSig p.trusted) ∧
        (misplaced ∨ objFaulty x p.needSig p.trusted = true → t.mem = s.mem) ∧
        (o.badSections = (objExpansions x).filterMap (fun e => match e.2 with
          | .over _ => some e.1
          | _ => none)) ∧
        ∀ y ∈ t.disp.objects, y.addr = u.addr → y.tenant = u.tenant → y = o) ∧
      (∀ i vb span pb rd wr leaf, rest = [] → ¬ misplaced → objFaulty x p.needSig p.trusted = false → objExpansions x = [] → objImages x = [i] → i.nbundle = 1 →
        64 ≤ i.body.length →
        let va := (imageIb (objTag x) i.index).toNat
        s.walk Config.ownPackage true r.2.2 va = .page vb span pb rd wr leaf → s.partitionCode u.tenant (pb + (va - vb)) = 0 →
        ∃ t, exec .launchSelection s = .next t ∧ t.mem = writeBytes s.mem (keyHbm Config.ownPackage (pb + (va - vb))) (octets i.body 0 64)))

/-! ### The host link (R20, R101, R172, R450, R451, R462) -/

/-- Host windows and transactions: a descriptor is written only with a whole number of pages; the units of a posted write are asked for at their homes in the
order of their sending, and written there; a read is asked for and answered with its data or with the status of what stopped it; the answer of the host to
a read of the device becomes the value or the fault of the load that holds its tag; a doorbell moves TAIL by at most a ring, a transaction of a kind the link does not know is counted, and
training leaves the link on the modules that trained (R20, R101, R172, R450, R451, R462). The fault code of a host status is the model's choice (log entry
108), and so is where a host address lies (log entry 70). -/
def Obligations.HostLinkEvents : Prop :=
  ∀ (s : State),
    (∀ (asid : BitVec 12) (win : BitVec 6) base len (perm : BitVec 3),
      (len % 4096 ≠ 0 → exec (.hostWindowDescriptorWrite asid win base len perm) s = .next s) ∧
      (len % 4096 = 0 → ∃ t, exec (.hostWindowDescriptorWrite asid win base len perm) s = .next t ∧ t.mem = s.mem ∧
        t.window asid.toNat win.toNat = { base := base, len := len, r := perm.getLsbD 0, w := perm.getLsbD 1, valid := perm.getLsbD 2 } ∧
        ∀ (a : BitVec 12) (x : BitVec 6), a ≠ asid ∨ x ≠ win → t.window a.toNat x.toNat = s.window a.toNat x.toNat)) ∧
    (∀ m : BitVec 4, exec (.hostLinkTraining m) s = .next { s with host := { s.host with modules := m } }) ∧
    (∀ w0, (hdrKind w0 = 0 ∨ 6 ≤ hdrKind w0) →
      exec (.refusedTransaction w0) s = .next { s with host := { s.host with refusedCount := s.host.refusedCount + 1 } }) ∧
    (∀ w0 w1 data, s.host.modules ≠ 0#4 → hdrKind w0 = 1 → requestOk w0 w1 = true → data.length = 64 * hdrLen w0 →
      let units := (List.range (hdrLen w0)).map (fun k => (w1 + BitVec.ofNat 64 (64 * k), octets data (64 * k) 64))
      let u : W64 × List Byte := (w1, octets data 0 64)
      let asks (t : State) : Prop := exec (.postedWrite true w0 w1 data) s = .next t ∧ t.mem = s.mem ∧ t.cores = s.cores ∧ t.host = { s.host with inbound := units }
      (s.host.inbound ≠ [] → exec (.postedWrite true w0 w1 data) s = .next { s with host := { s.host with inbound := s.host.inbound ++ units } }) ∧
      (∀ p, s.host.inbound = [] → s.hostPlace w1 = .inr (0, p) → p < 2 ^ 41 →
        ∃ t, asks t ∧ ∃ w ∈ (t.die (homeDie p)).portWaits, w.what = 5 ∧ w.phys = p ∧ w.key = keyHbm Config.ownPackage p ∧ w.data = u.2 ∧ w.owner = .hostWrite ∧
          w.requester = 16 ∧ w.started = false) ∧
      (∀ n off, s.host.inbound = [] → s.hostPlace w1 = .inr (n + 1, off) →
        ∃ t, asks t ∧ ∃ y ∈ (t.rope n).ports, y.station = 14 ∧ y.write = true ∧ y.off = off ∧ y.data = u.2 ∧ y.owner = .hostWrite)) ∧
    (∀ w0 w1 data, requestOk w0 w1 = false → exec (.postedWrite true w0 w1 data) s = .next s) ∧
    (∀ (core : CoreId) (id : Nat) w p, (s.core core).farOp id = none → ownPhys w.key = some p →
      (s.dies.flatMap (fun d => d.2.portWaits)).find? (fun y => y.id == id && (y.what == 1 || y.what == 4 || y.what == 5) && y.started) = some w →
      (w.what = 5 → w.owner = .hostWrite → s.fencedAt p = false → w.data.length = 64 → w.key % 64 = 0 → s.host.inbound.length = 1 →
        ∃ t, exec (.farAccessHomeService core id) s = .next t ∧ t.mem = writeBytes s.mem w.key w.data ∧ t.cores = s.cores ∧ t.host.inbound = []) ∧
      (∀ r, w.what = 4 → w.owner = .hostRead r.id → s.host.reads.find? (fun y => y.id == r.id) = some r → r.left = 1 →
        let ends (status : Nat) (b : List Byte) : Prop := ∃ t, exec (.farAccessHomeService core id) s = .next t ∧ t.mem = s.mem ∧ t.cores = s.cores ∧
          (∀ y ∈ t.host.reads, y.id ≠ r.id) ∧
          t.host.outbox = s.host.outbox ++ [{ w0 := hostHeader 3 (hdrTag r.w0) (b.length / 64) status 0, w1 := 0#64, data := b }]
        (s.fencedAt p = true → ends 0x02 []) ∧
        (s.fencedAt p = false → s.hbmLineBad p = true → ends 0x03 []) ∧
        (s.fencedAt p = false → s.hbmLineBad p = false → ends 0 (r.data ++ readBytes s.mem w.key 64)))) ∧
    (∀ w0 w1, s.host.modules ≠ 0#4 →
      let answers (i : Instr) (len status : Nat) (b : List Byte) : Prop :=
        ∃ t, exec i s = .next t ∧ t.mem = s.mem ∧ t.cores = s.cores ∧
          t.host = { s.host with outbox := s.host.outbox ++ [{ w0 := hostHeader 3 (hdrTag w0) len status 0, w1 := 0#64, data := b }] }
      let fresh : Prop := ∀ r ∈ s.host.reads, r.id < s.nextId
      (hdrKind w0 = 2 → requestOk w0 w1 = false → answers (.readRequest true w0 w1) 0 0x04 []) ∧
      (∀ st, fresh → hdrKind w0 = 2 → requestOk w0 w1 = true → s.hostPlace w1 = .inl st → answers (.readRequest true w0 w1) 0 st []) ∧
      (∀ p, hdrKind w0 = 2 → requestOk w0 w1 = true → s.hostPlace w1 = .inr (0, p) → p < 2 ^ 41 →
        ∃ t, exec (.readRequest true w0 w1) s = .next t ∧ t.mem = s.mem ∧ t.cores = s.cores ∧
          t.host = { s.host with reads := s.host.reads ++ [{ id := s.nextId, w0 := w0, addr := w1, left := hdrLen w0, data := [] }] } ∧
          ∃ w ∈ (t.die (homeDie p)).portWaits, w.what = 4 ∧ w.phys = p ∧ w.key = keyHbm Config.ownPackage p ∧ w.owner = .hostRead s.nextId ∧ w.started = false) ∧
      (hdrKind w0 = 5 → requestOk w0 w1 = false → answers (.configurationRead w0 w1) 0 0x04 []) ∧
      (∀ st, hdrKind w0 = 5 → requestOk w0 w1 = true → s.configRead (hdrLen w0) w1.toNat = .inl st → answers (.configurationRead w0 w1) 0 st []) ∧
      (∀ b, hdrKind w0 = 5 → requestOk w0 w1 = true → s.configRead (hdrLen w0) w1.toNat = .inr b →
        answers (.configurationRead w0 w1) (b.length / 64) 0 b)) ∧
    (let reaches (i : Instr) (tag status : Nat) (b : List Byte) (out : List HostMsg) : Prop :=
        (s.host.openReads.find? (fun e => e.1 == tag) = none → exec i s = .next { s with host := { s.host with outbox := out } }) ∧
        ∀ (core id : Nat) f size sx, core < 2048 → s.host.openReads.find? (fun e => e.1 == tag) = some (tag, .far core id) →
          (s.core core).farOp id = some f → f.kind = .load size sx →
          ∃ t, exec i s = .next t ∧ t.mem = s.mem ∧ t.host = { s.host with openReads := s.host.openReads.erase (tag, .far core id), outbox := out } ∧
            ∃ g ∈ (t.core core).far.ops, g.id = f.id ∧ g.phase = .performed ∧
              (status = 0 → g.value = farValue size sx (octets b (f.phys % 64) (2 ^ size)) ∧
                ∃ d ∈ t.agenda, s.cycle < d.at_ ∧ d.ev = .farResponseArrival (coreId core) id) ∧
              (status ≠ 0 → g.fault = hostCode status)
     (∀ w0 w1 data, hdrKind w0 = 3 → (hdrStatus w0 = 0 ∧ hdrLen w0 = 1 ∧ data.length = 64) ∨ (hdrStatus w0 ≠ 0 ∧ hdrLen w0 = 0 ∧ data = []) →
       reaches (.readCompletion true w0 w1 data) (hdrTag w0) (hdrStatus w0) data s.host.outbox) ∧
     (∀ w0 w1 data, hdrKind w0 ≠ 3 ∨ (hdrStatus w0 = 0 ∧ hdrLen w0 ≠ 1) ∨ (hdrStatus w0 ≠ 0 ∧ hdrLen w0 ≠ 0) →
       exec (.readCompletion true w0 w1 data) s = .next s) ∧
     (∀ w0 w1,
       let m : HostMsg := { w0 := w0, w1 := w1, data := [] }
       (m ∉ s.host.outbox → exec (.readRequest false w0 w1) s = .next s) ∧
       (m ∈ s.host.outbox → reaches (.readRequest false w0 w1) (hdrTag w0) 0 (readBytes s.mem (keyHost w1.toNat) (64 * hdrLen w0)) (s.host.outbox.erase m)))) ∧
    (∀ w0 w1 data,
      let m : HostMsg := { w0 := w0, w1 := w1, data := data }
      let gone := { s with host := { s.host with outbox := s.host.outbox.erase m } }
      exec (.readCompletion false w0 w1 data) s = .next gone ∧
      (s.host.outbox.find? (fun x => hdrKind x.w0 == 1) = some m → exec (.postedWrite false w0 w1 data) s = .next gone) ∧
      (s.host.outbox.find? (fun x => hdrKind x.w0 == 1) ≠ some m → exec (.postedWrite false w0 w1 data) s = .next s)) ∧
    (∀ w0 data, s.host.modules ≠ 0#4 → hdrKind w0 = 4 → hdrReserved w0 = 0 → hdrStatus w0 = 0 → hdrLen w0 = 0 → bitsNat data 63 32 = 0 →
      let q := hdrQueue w0
      let x := s.queue q
      let v : BitVec 32 := data.setWidth 32
      (2 ^ x.log2n < (v - x.progress).toNat → ∃ t, exec (.queueDoorbell w0 0#64 data) s = .next t ∧ t.mem = s.mem ∧ t.cores = s.cores ∧
        t.queue q = { x with frec := frecWord 0 0x34 v }) ∧
      ((v - x.progress).toNat ≤ 2 ^ x.log2n → ∃ t, exec (.queueDoorbell w0 0#64 data) s = .next t ∧ t.mem = s.mem ∧ t.cores = s.cores ∧
        (t.queue q).tail = v ∧ (t.queue q).progress = x.progress))


/-! ### Maps, resets, wipes, margins and flips (R41, R352, R364–R368, R378–R380, R435, R449–R463) -/

/-- What the package does by itself: samples and retests move a unit's recorded state forward only, a publication gives the next version and asks
contexts to leave, a reset and a lifecycle transition zero what they name, a trip ends the launches of its die, a reassignment empties the outgoing
partition once it no longer runs, a quote is signed by the lowest live die, margins settle and are scanned, stored bits flip, a core is woken, and an idle flit
is heard; a die whose firmware does not verify stays in reset. The length of a scan rests on log entry 110, what a sample and a retest
do of the choices the spec leaves on log entries 42 and 74, and what a reset, a transition and a reassignment zero or keep on log entries 68, 69 and 91. -/
def Obligations.PackageEvents : Prop :=
  ∀ (s : State) (die : DieId),
    let d := s.die die
    (∀ unit margin (core key : Nat), unitKey unit = some (core, key) →
      let m := s.measuredCore die core
      let st := m.keyState key
      let i := Instr.healthSample die unit margin
      (d.inReset = true → exec i s = .next s) ∧
      (8 ≤ margin ∨ st = 3 → exec i s = .next s) ∧
      (d.inReset = false → 2 ≤ margin → margin < 8 → st ≤ 1 → ∃ t, exec i s = .next t ∧ t.mem = s.mem ∧ t.cores = s.cores ∧ t.measuredCore die core = m.withState key 2) ∧
      (d.inReset = false → margin < 2 → st ≠ 3 → ∃ t, exec i s = .next t ∧ t.mem = s.mem ∧ t.measuredCore die core = m.withState key 3 ∧
        (∃ e ∈ (t.die die).failed, e.1 = unit) ∧
        let c := 64 * die.val + core
        ((s.core c).used.contains key = true → (s.core c).launch.isSome = true → (s.core c).seq.run ≠ .saving →
            ((s.bindMap c).core core).bindsKey key = true →
          (t.core c).evacuate = true ∧ { at_ := s.cycle, prio := 6, ev := .detectedErrorRollback (coreId c) } ∈ t.agenda))) ∧
    (∀ unit res, d.inReset = true → exec (.unitRetest die unit res) s = .next s) ∧
    (∀ unit res (core key : Nat), d.inReset = false → unitKey unit = some (core, key) → s.unitFree (64 * die.val + core) key = true →
      let m := s.measuredCore die core
      let m1 := m.withAdd key (max (m.keyAdd key) (RetestResult.adder res).toNat)
      let i := Instr.unitRetest die unit res
      (res.passFull = true ∨ res.passHalf = true → ∃ t, exec i s = .next t ∧ t.mem = s.mem ∧
        t.measuredCore die core = m1.withState key (max (m.keyState key) (if res.passFull then 0 else 1)) ∧
        key ∉ (t.core (64 * die.val + core)).used) ∧
      (res.passFull = false → res.passHalf = false → m.keyState key ≠ 3 → ∃ t, exec i s = .next t ∧ t.mem = s.mem ∧
        t.measuredCore die core = m.withState key 3)) ∧
    (∀ (rope lane : Fin 16) res, d.inReset = false → s.ropeFree (16 * die.val + rope.val) = true → (RetestResult.passFull res) = false →
      ∃ t, exec (.unitRetest die (.lane rope lane) res) s = .next t ∧ t.mem = s.mem ∧ t.cores = s.cores ∧
        (t.measuredRope die rope).deadln = setBit (s.measuredRope die rope).deadln lane true) ∧
    (d.inReset = true → exec (.mapPublication die) s = .next s) ∧
    (d.inReset = false → d.vmargin.getLsbD 0 = true → ∃ t, exec (.mapPublication die) s = .next t ∧ t.dies = s.dies ∧ t.cores = s.cores ∧
      ∃ e ∈ t.agenda, s.cycle < e.at_ ∧ e.ev = .mapPublication die) ∧
    (d.inReset = false → d.vmargin.getLsbD 0 = false → d.dirty = true →
      let old := d.mapAt s.cycle
      ∃ t m, exec (.mapPublication die) s = .next t ∧ t.mem = s.mem ∧ (t.die die).maps = m :: d.maps ∧ m.version = old.version + 1 ∧ m.pubCyc = s.cycle ∧
        m.prev = hash128 (old.content die) ∧ (t.die die).dirty = false ∧ (t.die die).measuredCores = [] ∧
        (∀ k, k < 64 → (s.core (64 * die.val + k)).launch.isSome = true → (old.core k).bind ≠ (m.core k).bind →
          ((t.core (64 * die.val + k)).csrGet 0x103).getLsbD 1 = true) ∧
        t.disp.stream.length = s.disp.stream.length + 1) ∧
    (∃ t, exec (.reset die) s = .next t ∧ (t.die die).fenced = fencedChannels die s.sec.resets ∧
      (firmwareRuns die s.sec.resets = true → (t.die die).maps = [powerUpMap die s.cycle] ∧ (t.die die).inReset = false ∧
        (∀ c, c < 32 → ((die.val, c) ∈ t.sec.reported ↔ channelFenced die s.sec.resets c = true))) ∧
      (firmwareRuns die s.sec.resets = false → (t.die die).inReset = true ∧ t.disp.stream = s.disp.stream) ∧
      (∀ r off, dieOfRope r = die.val → off < 2 ^ 23 → memGet t.mem (keyPad r off) = 0#8) ∧
      (∀ c off, dieOf c = die.val → off < 2 ^ 25 → memGet t.mem (keyB c off) = 0#8) ∧ (∀ c, dieOf c = die.val → (t.core c).regs = .reset)) ∧
    (∀ channel : BitVec 5, exec (.laneRecentre die channel) s = .next s) ∧
    (∃ t, exec (.thermalTrip die) s = .next t ∧ t.mem = s.mem ∧ (t.die die).tripped = true ∧
      ∀ l ∈ s.disp.launches, (∃ k ∈ s.coresOf l.id, dieOf k = die.val) → ∀ k ∈ s.coresOf l.id, (t.core k).seq.run = .halted) ∧
    (∀ target : BitVec 3,
      (lifeAllows s.sec.life.toNat target.toNat = false → exec (.lifecycleTransition target) s = .next s) ∧
      (lifeAllows s.sec.life.toNat target.toNat = true → ∃ t, exec (.lifecycleTransition target) s = .next t ∧ t.sec.life = target ∧
        (∀ a, a < 2 ^ 41 → memGet t.mem (keyHbm Config.ownPackage a) = 0#8) ∧ (∀ r off, r < 512 → off < 2 ^ 23 → memGet t.mem (keyPad r off) = 0#8) ∧
        ∀ c, c < 2048 → (t.core c).regs = .reset)) ∧
    (∀ outgoing incoming part,
      let p := s.partition outgoing
      let held := s.tenantRuns outgoing
      (held = true → exec (.tenantReassignment outgoing incoming part) s = .next s) ∧
      (held = false → ∃ t, exec (.tenantReassignment outgoing incoming part) s = .next t ∧ t.partition incoming = s.granted part ∧
        (∀ k, Machine.Partition.holds p k = true → memGet t.mem k = 0#8) ∧ (∀ k, Machine.Partition.holds p k = false → memGet t.mem k = memGet s.mem k) ∧
        (∀ c, c ∈ p.cores → t.core c = .reset) ∧ (∀ c, c ∉ p.cores → t.core c = { s.core c with code := (t.core c).code }))) ∧
    (∀ nonce,
      (s.liveDie = none → exec (.quoteRequest nonce) s = .next s) ∧
      (∀ k, s.liveDie = some k → ∃ t, exec (.quoteRequest nonce) s = .next t ∧ t.mem = s.mem ∧
        t.sec.quote = s.quoteBody k nonce ++ leBytes 512 (Config.rsaSign (dieKey k) (s.quoteBody k nonce)).toNat)) ∧
    (∀ v : W64,
      let off := signedOf 8 (bitsNat v 15 8)
      let ignored : Prop := 3 < bitsNat v 39 32 ∨ off < -20 ∨ 20 < off ∨ d.vmargin.getLsbD 63 = true ∨
        (v.getLsbD 0 = true ∧ ∃ c ∈ dieCores die, (s.core c).launch.isSome = true)
      (ignored → exec (.vmarginWrite die v) s = .next s) ∧
      (¬ ignored → ∃ t, exec (.vmarginWrite die v) s = .next t ∧ t.mem = s.mem ∧ t.cores = s.cores ∧ (t.die die).vmargin.getLsbD 63 = true ∧
        (∀ n, n = 0 ∨ (8 ≤ n ∧ n < 16) ∨ (32 ≤ n ∧ n < 40) → (t.die die).vmargin.getLsbD n = v.getLsbD n) ∧
        ∃ e ∈ t.agenda, s.cycle < e.at_ ∧ e.at_ ≤ s.cycle + 95000 ∧ e.ev = .vmarginSettled die)) ∧
    (∃ t, exec (.vmarginSettled die) s = .next t ∧ t.mem = s.mem ∧ t.cores = s.cores ∧ (t.die die).vmargin.getLsbD 63 = false ∧
      ∀ n, n < 63 → (t.die die).vmargin.getLsbD n = d.vmargin.getLsbD n) ∧
    (∀ v : W64,
      let off := signedOf 8 (bitsNat v 23 16)
      (d.linkmargin.getLsbD 63 = true → exec (.linkmarginScanStart die v) s = .next s) ∧
      (d.linkmargin.getLsbD 63 = false → linkLaneOk die (bitsNat v 3 0) (bitsNat v 15 8) = true → -32 ≤ off → off ≤ 31 →
        ∃ t, exec (.linkmarginScanStart die v) s = .next t ∧ t.mem = s.mem ∧ t.cores = s.cores ∧ (t.die die).linkmargin.getLsbD 63 = true ∧
          (∀ n, n < 4 ∨ (8 ≤ n ∧ n < 36) → (t.die die).linkmargin.getLsbD n = v.getLsbD n) ∧
          { at_ := s.cycle + scanCycles (bitsNat v 3 0) (bitsNat v 35 32), prio := 6, ev := .linkmarginScanDone die } ∈ t.agenda)) ∧
    (∃ t, exec (.linkmarginScanDone die) s = .next t ∧ t.mem = s.mem ∧ t.cores = s.cores ∧ (t.die die).linkmargin.getLsbD 63 = false ∧
      ∀ n, n < 36 → (t.die die).linkmargin.getLsbD n = d.linkmargin.getLsbD n) ∧
    (∀ loc bad, ∃ t x, exec (.storageBitFlip loc bad) s = .next t ∧ t.mem = s.mem ∧ t.cores = s.cores ∧ x ∈ t.flips ∧ x.loc = loc ∧
      (x.bad = true ↔ bad = true ∨ ∃ y ∈ s.flips, y.loc = loc) ∧ (∀ y, y.loc ≠ loc → (y ∈ t.flips ↔ y ∈ s.flips))) ∧
    (∀ core : CoreId, ∃ t, exec (.wfiWakeRequest core) s = .next t ∧ t.mem = s.mem ∧ ((t.core core).csrGet 0x103).getLsbD 2 = true ∧
      (t.core core).regs = (s.core core).regs ∧ ∀ j, j ≠ core.val → t.core j = s.core j) ∧
    (∀ link, ∃ t, exec (.idleFlit link) s = .next t ∧ t.mem = s.mem ∧ t.cores = s.cores ∧ t.coll = { s.coll with lastFlit := tblSet link s.cycle s.coll.lastFlit })


/-! ### Collectives (R383, R427–R440) -/

/-- Timetables and triggers: a call is answered 0 only after every member chiplet accepted it in time, and else with the status of what refused it; an
instance starts at S, or at the end of a rerun, with its handles and entries, an entry reads its source and combines into its destination, of which it first
reads what that holds, once its position is reached, an instance ends when its last entry has landed, and its record is then written, a timetable that fails re-validation becomes stale, and a trigger is armed, once its descriptor has been read,
where nothing forbids it (R74, R87, R102, R299, R383, R425–R434, R440). What an entry does whose handle is not free, and how one combines outside a slot, is
the model's choice (log entries 60 and 77). -/
def Obligations.TimetableEvents : Prop :=
  ∀ (s : State),
    (∀ tt y, s.timetable tt = some y →
      (s.validates y = true → ∃ t, exec (.timetableRevalidation tt) s = .next t ∧ t.mem = s.mem ∧ t.cores = s.cores ∧
        t.timetable tt = some { y with marked := false } ∧ t.coll.instances = s.coll.instances) ∧
      (s.validates y = false → ∃ t, exec (.timetableRevalidation tt) s = .next t ∧ t.cores = s.cores ∧
        (∀ x, t.timetable tt = some x → x.stale = true) ∧ ∀ i ∈ t.coll.instances, i.tt = tt → i.started = true ∨ i.ended = true)) ∧
    (∀ call c, s.call call = some c →
      let answers (i : Instr) (st : Nat) : Prop :=
        ∃ t, exec i s = .next t ∧ t.mem = s.mem ∧ t.coll = { s.coll with calls := s.coll.calls.filter (fun x => x.id != call) } ∧
          ∀ k id f, c.caller = some (k, id) → (s.core k).farOp id = some f →
            { f with phase := .performed, value := BitVec.ofNat 64 st } ∈ (t.core k).far.ops
      (s.installed c.tenant c.number = none → answers (.ccallRequest call) (if ∃ y ∈ s.coll.timetables, y.number = c.number then 0x43 else 0x41)) ∧
      (∀ y, s.installed c.tenant c.number = some y → s.timetable y.id = some y → y.marked = false →
        (y.stale = true → answers (.ccallRequest call) 0x47) ∧
        (y.stale = false → ∃ t, exec (.ccallRequest call) s = .next t ∧ t.mem = s.mem ∧ t.cores = s.cores ∧
          t.call call = some { c with tt := y.id, asked := y.chips, order := s.nextId, sent := y.chips, epoch := s.epochAt 0 } ∧
          (∀ k ∈ y.chips, ∃ d ∈ t.agenda, s.cycle < d.at_ ∧ d.ev = .timetableReservation call k) ∧
          { at_ := max s.cycle (c.s - 4096), prio := 7, ev := .timetableAcceptDeadline call } ∈ t.agenda)) ∧
      (∀ chip y, s.timetable c.tt = some y →
        let busy := s.coll.calls.any (fun x => x.id != call && x.tt == c.tt && x.accepted.contains chip && meets c.s x.s y.duration) ||
          s.coll.instances.any (fun i => i.tt == c.tt && !i.ended && meets c.s i.s y.duration)
        let ahead := s.callAhead c chip
        let here := c.sent.contains chip
        (here = false → exec (.timetableReservation call chip) s = .next s) ∧
        (here = true → ahead = true → ∃ t, exec (.timetableReservation call chip) s = .next t ∧ t.mem = s.mem ∧ t.coll = s.coll ∧
          { at_ := s.cycle + 1, prio := 6, ev := .timetableReservation call chip } ∈ t.agenda) ∧
        (here = true → ahead = false → busy = true → answers (.timetableReservation call chip) 0x40) ∧
        (here = true → ahead = false → busy = false → ∃ t, exec (.timetableReservation call chip) s = .next t ∧ t.mem = s.mem ∧ t.cores = s.cores ∧
          t.call call = some { c with accepted := c.accepted ++ [chip], sent := c.sent.filter (· != chip) } ∧ ∃ d ∈ t.agenda, s.cycle < d.at_ ∧ d.ev = .timetableAcceptance call chip)) ∧
      (∀ chip,
        let left := c.asked.filter (· != chip)
        (c.lost = true → exec (.timetableAcceptance call chip) s = .next s) ∧
        (∀ y, c.lost = false → left = [] → c.closed = false → s.timetable c.tt = some y → y.marked = false → y.stale = true →
          answers (.timetableAcceptance call chip) 0x47) ∧
        (c.lost = false → left ≠ [] → ∃ t, exec (.timetableAcceptance call chip) s = .next t ∧ t.mem = s.mem ∧ t.cores = s.cores ∧
          t.call call = some { c with asked := left } ∧ t.coll.instances = s.coll.instances) ∧
        (∀ y, c.lost = false → left = [] → c.closed = false → s.timetable c.tt = some y → y.marked = false → y.stale = false → ∃ t i, exec (.timetableAcceptance call chip) s = .next t ∧ t.mem = s.mem ∧
          t.coll.instances = s.coll.instances ++ [i] ∧ i.tt = c.tt ∧ i.s = c.s ∧ i.tenant = c.tenant ∧ i.started = false ∧ i.status = 0 ∧
          { at_ := max s.cycle c.s, prio := 0, ev := .timetableInstanceStart i.id } ∈ t.agenda ∧
          (∀ k ∈ c.accepted, ∃ d ∈ t.agenda, s.cycle < d.at_ ∧ d.ev = .timetableCommit call k) ∧
          ∀ k id f, c.caller = some (k, id) → (s.core k).farOp id = some f → { f with phase := .performed, value := 0#64 } ∈ (t.core k).far.ops)) ∧
      (∀ chip, ∃ t, exec (.timetableCommit call chip) s = .next t ∧ t.mem = s.mem ∧ t.cores = s.cores ∧ ∀ x, t.call call = some x → chip ∉ x.accepted) ∧
      (c.closed = true → exec (.timetableAcceptDeadline call) s = .next s) ∧
      (c.closed = false → answers (.timetableAcceptDeadline call) 0x42)) ∧
    (∀ inst i y, s.inst inst = some i → s.timetable i.tt = some y →
      (i.started = false → i.ended = false →
        let others := s.coll.instances.filter (fun x => x.tt == i.tt && x.started && !x.ended)
        let ending := others.any (fun x => s.agenda.any (fun d => d.at_ == s.cycle && d.ev == .timetableInstanceEnd x.id))
        let start (t : State) : Prop := exec (.timetableInstanceStart inst) s = .next t ∧ t.mem = s.mem ∧ t.cores = s.cores
        (ending = true → ∃ t, start t ∧ t.coll = s.coll ∧ { at_ := s.cycle, prio := 0, ev := .timetableInstanceStart inst } ∈ t.agenda) ∧
        (ending = false → others.any (fun x => x.rerun) = true → ∃ t, start t ∧ t.inst inst = some { i with late := true } ∧ t.agenda = s.agenda) ∧
        (ending = false → others.any (fun x => x.rerun) = false → y.marked = false → y.stale = true → y.done = 0#64 →
          ∃ t, start t ∧ ∀ z ∈ t.coll.instances, z.id ≠ i.id) ∧
        (ending = false → others.any (fun x => x.rerun) = false → y.marked = false → y.stale = false →
          ∃ t, start t ∧ (∃ z, t.inst inst = some z ∧ z.started = true ∧ z.s = i.s ∧ z.late = i.late) ∧
          (∀ e x, y.entries[e]? = some x → { at_ := s.cycle + x.off, prio := 0, ev := .timetableEntryStart inst e } ∈ t.agenda ∧
            ∀ h, x.dhandle = some h → x.dst.ownPad = true → ((s.rope x.dst.ropeNo).handle h).st = .free →
              ((t.rope x.dst.ropeNo).handle h).st = .filling) ∧
          { at_ := s.cycle + y.duration, prio := 0, ev := .timetableInstanceEnd inst } ∈ t.agenda)) ∧
      (∀ e x, y.entries[e]? = some x → i.ended = false → i.blocked.contains e = false → i.begun.contains e = false →
        let a := x.src.off / 64 * 64
        (x.src.ownPad = true → ∃ t q, exec (.timetableEntryStart inst e) s = .next t ∧ t.mem = s.mem ∧ t.cores = s.cores ∧
          t.inst inst = some { i with begun := i.begun ++ [e] } ∧ q ∈ (t.rope x.src.ropeNo).ports ∧ q.station = 13 ∧ q.write = false ∧ q.off = a ∧
          q.owner = .timetable inst e 0) ∧
        (∀ k p, x.src.kind = 2 → s.endpointKey i.tenant x.src a .read = .inr k → ownPhys k = some p →
          ∃ t, exec (.timetableEntryStart inst e) s = .next t ∧ t.mem = s.mem ∧ t.cores = s.cores ∧
            t.inst inst = some { i with begun := i.begun ++ [e] } ∧
            ∃ w ∈ (t.die (homeDie p)).portWaits, w.started = false ∧ w.what = 4 ∧ w.phys = p ∧ w.key = k ∧ w.owner = .timetable inst e 0) ∧
        (∀ b, x.src.kind = 1 → slotDone y i x.src (some x.off) = true → x.bytes = 64 → b = readBytes s.mem (keyChunk (2 * x.src.mem + x.src.chip) x.src.off) 64 →
          ∃ t, exec (.timetableEntryStart inst e) s = .next t ∧ t.mem = s.mem ∧ t.cores = s.cores ∧
            t.inst inst = some { i with begun := i.begun ++ [e], data := tblSet e b i.data, epochs := tblSet e (s.epochAt x.src.chip) i.epochs } ∧
            ∃ d ∈ t.agenda, s.cycle < d.at_ ∧ d.ev = .timetableEntryCombine inst e)) ∧
      (∀ e x d, y.entries[e]? = some x → i.ended = false → i.combined.contains e = false → i.data.find? (fun z => z.1 == e) = some d →
        let i1 := { i with arrived := i.arrived.filter (· != e) ++ [e] }
        let combines (t : State) : Prop := exec (.timetableEntryCombine inst e) s = .next t ∧ t.mem = s.mem ∧ t.cores = s.cores
        (prevDone y i x = false → ∃ t, combines t ∧ t.inst inst = some i1) ∧
        (prevDone y i x = true → x.dst.ownPad = true → x.needsOld = false →
          ∃ t q, combines t ∧ q ∈ (t.rope x.dst.ropeNo).ports ∧ q.station = 12 ∧ q.write = true ∧ q.off = x.dst.off ∧
            q.data = (combineEntry y.seed x [] d.2).bytes ∧ q.owner = .timetable inst e 0) ∧
        (prevDone y i x = true → x.dst.ownPad = true → x.needsOld = true → i.olds.any (fun o => o.1 == e) = false →
          ∃ t q, combines t ∧ t.inst inst = some { i1 with olds := tblSet e [] i.olds } ∧ q ∈ (t.rope x.dst.ropeNo).ports ∧ q.station = 13 ∧
            q.write = false ∧ q.off = x.dst.off / 64 * 64 ∧ q.owner = .old inst e 0) ∧
        (prevDone y i x = true → x.dst.kind = 1 → x.bytes = 64 → x.trig = none →
          let k := keyChunk (2 * x.dst.mem + x.dst.chip) x.dst.off
          let r := combineEntry y.seed x (readBytes s.mem k 64) d.2
          ∃ t, exec (.timetableEntryCombine inst e) s = .next t ∧ t.mem = writeBytes s.mem k (cut 64 r.bytes).1 ∧ t.cores = s.cores) ∧
        (∀ (core : CoreId) (id : Nat) w p k2 p2, (s.core core).farOp id = none → ownPhys w.key = some p → s.partitionCode w.tenant p = 0 → s.hbmLineBad p = false →
          (s.dies.flatMap (fun d => d.2.portWaits)).find? (fun z => z.id == id && (z.what == 1 || z.what == 4 || z.what == 5) && z.started) = some w →
          w.what = 4 → w.owner = .old inst e 0 → x.dst.kind = 2 → x.bytes = 64 → x.dst.off % 64 = 0 → tblGet [] e i.olds = [] → tblGet [] e i.data = d.2 →
          s.endpointKey i.tenant x.dst x.dst.off .write = .inr k2 → ownPhys k2 = some p2 →
          (combineEntry y.seed x (readBytes s.mem w.key 64) d.2).bytes.length = 64 →
          ∃ t, exec (.farAccessHomeService core id) s = .next t ∧ t.mem = s.mem ∧ t.cores = s.cores ∧
            ∃ v ∈ (t.die (homeDie p2)).portWaits, v.started = false ∧ v.what = 5 ∧ v.phys = p2 ∧ v.key = k2 ∧ v.owner = .timetable inst e 0 ∧
              v.data = (combineEntry y.seed x (readBytes s.mem w.key 64) d.2).bytes)) ∧
      (i.ended = false → (∀ e, e < y.entries.length → i.landed.contains e = true) → y.done = 0#64 →
        ∃ t, exec (.timetableInstanceEnd inst) s = .next t ∧ t.mem = s.mem ∧
        t.cores = s.cores ∧ (∀ z ∈ t.coll.instances, z.id ≠ i.id) ∧ (y.persist = true → t.coll.timetables = s.coll.timetables)) ∧
      (∀ k p, i.ended = false → (∀ e, e < y.entries.length → i.landed.contains e = true) → s.doneKey y = some k → ownPhys k = some p →
        let j := { i with late := i.late || decide (i.s + y.duration < s.cycle) }
        ∃ t, exec (.timetableInstanceEnd inst) s = .next t ∧ t.mem = s.mem ∧ t.cores = s.cores ∧ t.inst inst = some { j with ended := true } ∧
          ∃ w ∈ (t.die (homeDie p)).portWaits, w.started = false ∧ w.what = 5 ∧ w.phys = p ∧ w.key = k ∧ w.data = s.doneBytes j) ∧
      ((∃ e, e < y.entries.length ∧ i.landed.contains e = false) → exec (.timetableInstanceEnd inst) s = .next s)) ∧
    (∀ (core : CoreId) (id : Nat) f, (s.core core).farOp id = some f →
      let a := f.desc
      let chip := dieOf core % 16 / 8
      let st := s.armStatus core f.data.toNat a
      (f.desc = [] → addrSpace f.addr = 1 → ∃ t q, exec (.triggerArm core id) s = .next t ∧ t.mem = s.mem ∧ t.cores = s.cores ∧ t.coll = s.coll ∧
        q ∈ (t.rope (ropeOf core)).ports ∧ q.station = 13 ∧ q.write = false ∧ q.off = bitsNat f.addr 22 0 ∧ q.owner = .desc core id) ∧
      (64 ≤ f.desc.length → ∃ t, exec (.triggerArm core id) s = .next t ∧ t.mem = s.mem ∧ { f with phase := .performed, value := BitVec.ofNat 64 st } ∈ (t.core core).far.ops ∧
        (st ≠ 0 → t.coll = s.coll) ∧
        (st = 0 → (t.trigger chip f.data.toNat).armed = true ∧ (t.trigger chip f.data.toNat).count = 0 ∧ (t.trigger chip f.data.toNat).action = a ∧
          ∀ e, e < 1024 → e ≠ f.data.toNat → t.trigger chip e = s.trigger chip e)))

/-- Failures of the network: a silent link, or one whose link layer's retries are exhausted, and a silent switch with all its links are declared dead, one epoch
up at the chiplet that declares; an update at or below a chiplet's epoch changes nothing; a drain round follows every update, which the chiplet forwards, and
ends what has no route; a member that times out is recorded and the instances that include it end (R435–R439). The links themselves lie outside the machine:
what a chiplet forwards stands in `updates` (log entry 62). -/
def Obligations.LinkAndDrainEvents : Prop :=
  ∀ (s : State),
    let up (t : State) (chip : Nat) (x : NetElement) (epoch : BitVec 32) : Prop :=
      tblGet 0#32 chip t.coll.epochs = epoch ∧ (chip, epoch, s.cycle + 38000) ∈ t.coll.draining ∧
        { at_ := s.cycle + 38000, prio := 0, ev := .drainRoundEnd epoch } ∈ t.agenda ∧
        ∃ u ∈ t.coll.updates, u.node = chip ∧ u.element = x ∧ u.epoch = epoch ∧
          ∀ l, l ∈ u.links ↔ l ∈ Config.chipLinks chip ∧ l ∉ t.coll.deadLinks
    let next (chip : Nat) : BitVec 32 := tblGet 0#32 chip s.coll.epochs + 1#32
    (∀ link,
      let i := Instr.linkTimeout link
      (s.coll.deadLinks.contains link = true → exec i s = .next s) ∧
      (s.coll.deadLinks.contains link = false → ∃ t, exec i s = .next t ∧ t.mem = s.mem ∧ t.cores = s.cores ∧
        let dead : Prop := t.coll.deadLinks = s.coll.deadLinks ++ [link] ∧ up t (chipOfLink link) (.link link) (next (chipOfLink link))
        if s.coll.lastFlit.any (fun e => e.1 == link && decide (s.cycle < e.2 + 3800)) then dead ∨ t.coll = s.coll else dead)) ∧
    (∀ switch,
      let i := Instr.switchTimeout switch
      let links := Config.switchLinks switch
      let heard := s.coll.lastFlit.any (fun e => links.contains e.1 && decide (s.cycle < e.2 + 38000))
      (s.coll.deadSwitches.contains switch = true ∨ heard = true → exec i s = .next s) ∧
      (s.coll.deadSwitches.contains switch = false → heard = false → ∃ t, exec i s = .next t ∧ t.mem = s.mem ∧ t.cores = s.cores ∧
        t.coll.deadSwitches = s.coll.deadSwitches ++ [switch] ∧ (∀ l ∈ links, l ∈ t.coll.deadLinks) ∧
        up t (chipOfLink (links.headD 0)) (.switch switch) (next (chipOfLink (links.headD 0))))) ∧
    (∀ element (epoch : BitVec 32) (path : UpdatePath),
      let i := Instr.linkStateUpdate element epoch path
      let node := path.node
      let seen := (tblGet 0#32 node.toNat s.coll.epochs).toNat
      (epoch.toNat ≤ seen → exec i s = .next s) ∧
      (seen < epoch.toNat → ∃ t, exec i s = .next t ∧ t.cores = s.cores ∧ up t node.toNat element epoch ∧
        (∀ n, element = .link n → t.mem = s.mem ∧ n ∈ t.coll.deadLinks) ∧
        (∀ n, element = .switch n → t.mem = s.mem ∧ n ∈ t.coll.deadSwitches) ∧
        (∀ p, element = .member p → p.val ∈ t.coll.failedMembers))) ∧
    (∀ pkg : PkgId,
      let ended (t : State) : Prop := ∀ i ∈ t.coll.instances, ∀ y, s.timetable i.tt = some y → pkg.val ∈ y.packages → i.started = false ∨ i.ended = true
      let heard := s.coll.lastFlit.any (fun e => (Config.memberLinks pkg.val).contains e.1 && decide (s.cycle < e.2 + 380000))
      let recorded := s.coll.failureRecords.any (fun r => r.1 == pkg.val)
      (s.coll.failedMembers.contains pkg.val = true ∨ heard = true → exec (.groupTimeout pkg) s = .next s) ∧
      (s.coll.failedMembers.contains pkg.val = false → heard = false → recorded = false →
        ∃ t, exec (.groupTimeout pkg) s = .next t ∧ t.cores = s.cores ∧ pkg.val ∈ t.coll.failedMembers ∧
          (pkg.val, (next 0).toNat, s.cycle) ∈ t.coll.failureRecords ∧ ended t ∧ up t 0 (.member pkg) (next 0)) ∧
      (∀ epoch : BitVec 32,
        (recorded = true → exec (.memberFailureRecord pkg epoch) s = .next s) ∧
        (recorded = false → ∃ t, exec (.memberFailureRecord pkg epoch) s = .next t ∧ t.cores = s.cores ∧
          pkg.val ∈ t.coll.failedMembers ∧ t.coll.failureRecords = s.coll.failureRecords ++ [(pkg.val, epoch.toNat, s.cycle)] ∧ ended t))) ∧
    (∀ epoch : BitVec 32,
      ((∀ e ∈ s.coll.draining, e.2 ≠ (epoch, s.cycle)) → exec (.drainRoundEnd epoch) s = .next s) ∧
      (∀ chip, s.coll.draining = [(chip, epoch, s.cycle)] → ∃ t, exec (.drainRoundEnd epoch) s = .next t ∧ t.cores = s.cores ∧ t.coll.draining = [] ∧
        t.coll.deadLinks = s.coll.deadLinks ∧
        ∀ i y, s.coll.instances = [i] → i.started = true → i.ended = false → s.timetable i.tt = some y → s.unrouted y = true →
          ∀ z ∈ t.coll.instances, z.ended = true))


/-! ### Words, steps and the whole machine (R39, R106, R107, R115, R117–R128, R353, R456) -/

/-- Words written out from the layouts of R117, R120–R124 and the opcode map of R126 decode to the instructions they stand for: `bc.ne.x0 s7` to literal 2,
`cmp.ltn.x2 p3, s4, s5`, `loop.rot.pre.x0 s20`, `add.x1 s3, s4, s5`; and the word 0 is an instruction in no slot (R117, R120, R126–R128). -/
def Obligations.DecodedWords : Prop :=
  decodeSlot .sa 0x2B007041#32 = .ok (.bc { unit := 0#2, d := 0#5, a := 7#5, b := 0#5, l := 1#1, guard := 0#3, funct := 1#3 }) ∧
  decodeSlot .sb 0x20A64282#32 = .ok (.cmp { unit := 2#2, d := 19#5, a := 4#5, b := 5#5, l := 0#1, guard := 0#3, funct := 2#3 }) ∧
  decodeSlot .sa 0x2F014043#32 = .ok (.loop { unit := 0#2, d := 0#5, a := 20#5, b := 0#5, l := 1#1, guard := 0#3, funct := 3#3 }) ∧
  decodeSlot .sb 0x01464280#32 = .ok (.add { unit := 1#2, d := 3#5, a := 4#5, b := 5#5, l := 0#1, guard := 0#3, funct := 0#3 }) ∧
  ∀ k : SlotKind, decodeSlot k 0#32 = .error .opcode

/-- Decoding the word of a well-formed slot instruction, in every slot that may hold it, gives the instruction back, with every operand at every value
(R117–R127). -/
def Obligations.EncodingRoundTrip : Prop :=
  ∀ (i : Instr) (k : SlotKind), i.slot? = some k.column → (i.isControl = true → k = .sa) → i.wf = true → decodeSlot k (encode i) = .ok i

/-- A word that decodes is exactly the encoding of its instruction, so that no bit its layout marks zero or does not assign is set, and its coded fields
hold values the spec lists; opcodes 42 to 48 are no instruction in SB; and a word that is no instruction raises an illegal-instruction fault of its slot,
which traps with cause 2 where no slot of the bundle has faulted before it (R125, R127, R128). -/
def Obligations.IllegalWords : Prop :=
  (∀ (k : SlotKind) (w : W32) (i : Instr), decodeSlot k w = .ok i →
    encode i = w ∧ i.wf = true ∧ i.slot? = some k.column ∧ (i.isControl = true → k ≠ .sb)) ∧
  (∀ w : W32, 42 ≤ w.toNat / 2 ^ 24 → w.toNat / 2 ^ 24 ≤ 48 → ∀ i, decodeSlot .sb w ≠ .ok i) ∧
  (∀ (s : State) (k : SlotKind) rest w e, s.bnd.active = true → s.bnd.rest = k :: rest → (s.core s.bnd.core).seq.run ≠ .halted →
    s.bnd.lat.words.find? (fun x => x.1 == k.num) = some (k.num, w) → decodeSlot k w = .error e →
    let u : State := { s with bnd := { s.bnd with slot := k, word := w, rest := rest } }
    step s = .next u.illegalInstruction ∧
    (s.bnd.probing = false → s.bnd.faulted = 0#12 → (s.core s.bnd.core).frame = none → ∃ t, step s = .next t ∧ t.mem = s.mem ∧ t.ropes = s.ropes ∧
      (t.core s.bnd.core).frame.isSome = true ∧ (t.core s.bnd.core).regs = (s.core s.bnd.core).regs ∧
      ((t.core s.bnd.core).csrGet 0x040).toNat % 256 = 2 ∧ (t.core s.bnd.core).csrGet 0x043 = w.setWidth 64))

/-- A step runs the decoded instruction: the next slot of the bundle that is issuing is executed with its word named in the bundle, or raises a timing fault
where another bundle has taken its port in this cycle (R114, R116); a core in lockstep whose
turn it is fetches the bundle at its program counter from its instruction store and, in the same step, executes its first present slot on its latched
operands; an event due before issue is executed; and with nothing to do the counter moves on (R2, R106, R107, R109, R129). -/
def Obligations.StepRunsDecoded : Prop :=
  (∀ (s : State) (k : SlotKind) rest w i, s.bnd.active = true → s.bnd.rest = k :: rest → (s.core s.bnd.core).seq.run ≠ .halted →
    s.bnd.lat.words.find? (fun x => x.1 == k.num) = some (k.num, w) → decodeSlot k w = .ok i →
    let t : State := { s with bnd := { s.bnd with slot := k, word := w, rest := rest } }
    (s.bnd.busy.getLsbD k.num = false → step s = exec i t) ∧ (s.bnd.busy.getLsbD k.num = true → step s = .next (t.timingFault 5))) ∧
  (∀ (s : State) (n : Nat) (c : Core) (b : BundleWord) (k : SlotKind) (w : W32) (i : Instr),
    s.bnd.active = false → (∀ d ∈ s.agenda, s.cycle < d.at_) → s.cores.find? (fun e => decide (s.turn ≤ e.1) && s.needsTurn e.2) = some (n, c) →
    s.core n = c → c.seq.run = .running → c.seq.nextIssue ≤ s.cycle → c.fpDue s.cycle = false → c.frame = none → c.owedFpe = false → c.owed = [] →
    c.replay = none → c.timed = false → c.interlocked = false → c.seq.preBoundary = false → c.seq.ilDrain = false → c.seq.ilLeave = false → c.leaving = false → c.far.fault = none →
    (∀ f ∈ c.far.ops, f.heldBack = false) → (c.busyPorts s.cycle).getLsbD k.num = false → s.imageCheck n = false → s.bundleAt n = some b → b.words = [(k.num, w)] →
    bundleIllegal b.words b.pool b.cmask false false = false → decodeSlot k w = .ok i → anchorOp i = false →
    ∃ t : State, step s = exec i t ∧ t.bnd.core = n ∧ t.bnd.slot = k ∧ t.bnd.word = w ∧ t.bnd.rest = [] ∧ t.bnd.probing = false ∧ t.bnd.handler = false ∧
      t.bnd.faulted = 0#12 ∧ t.bnd.lat.pc = c.seq.pc ∧ t.bnd.lat.regs = c.regs ∧ t.bnd.lat.rrb = c.seq.rrb ∧ t.bnd.lat.loops = c.seq.loops ∧
      t.bnd.lat.cmask = b.cmask ∧ t.bnd.lat.time = b.time ∧ t.bnd.lat.pool = b.pool ∧ t.bnd.lat.clk = s.cycle ∧ t.cycle = s.cycle ∧ t.mem = s.mem ∧
      t.ropes = s.ropes ∧ t.agenda = s.agenda ∧ (∀ j, j ≠ n → t.core j = s.core j) ∧ (t.core n).regs = c.regs ∧ (t.core n).csr = c.csr ∧
      (t.core n).inflight = c.inflight ∧ (t.core n).seq.pc = c.seq.pc) ∧
  (∀ (s : State) (d : Due) rest, s.bnd.active = false → s.agenda = d :: rest → d.at_ = s.cycle →
    (d.prio ≤ 1 ∨ s.cores.find? (fun e => decide (s.turn ≤ e.1) && s.needsTurn e.2) = none) → step s = exec d.ev { s with agenda := rest }) ∧
  (∀ s : State, s.bnd.active = false → (∀ d ∈ s.agenda, s.cycle < d.at_) → s.cores.find? (fun e => decide (s.turn ≤ e.1) && s.needsTurn e.2) = none →
    step s = .next { s with cycle := s.cycle + 1, turn := 0 })

/-- Every step keeps memory in its canonical form, so that equal memories are equal data. -/
def Obligations.StepKeepsMemoryForm : Prop := ∀ s t : State, s.MemForm → step s = .next t → t.MemForm

/-- After reset every register, tile, CSR and byte of storage reads zero, but for the registers the spec gives another value: BELAYRETRY LIMIT 3, WDLIMIT and
QAGE, and the hard-wired p0 and q0 (R39, R180, R322, R353, R456); no core holds a launch, no handle is taken, memory is in its canonical form. The counter's
0, HBM's zeros and the CSRs the spec gives no value are the model's choice (log entries 1, 2, 3 and 6). Nothing is due, so the counter moves on. -/
def Obligations.ResetState : Prop :=
  State.reset.MemForm ∧ (∀ k, memGet State.reset.mem k = 0#8) ∧ State.reset.disp.qage = 3800000#32 ∧
  (∀ k n, (State.reset.core k).regs.sGet n = 0#64 ∧ (n ≠ 0 → (State.reset.core k).regs.pGet n = false) ∧ (State.reset.core k).regs.vGet n = 0#32 ∧
    ∀ p, n ≠ 0 → (State.reset.core k).regs.qGet p n = 0#16) ∧
  (∀ k, (State.reset.core k).csrGet 0x007 = 3#64 ∧ (State.reset.core k).csrGet 0x045 = 0x713FB300#64 ∧
    (∀ n, n ≠ 0x007 → n ≠ 0x045 → (State.reset.core k).csrGet n = 0#64) ∧ (State.reset.core k).launch = none ∧ (State.reset.core k).frame = none ∧
    (State.reset.core k).seq.run = .idle ∧ ∀ t r j, (State.reset.core k).mx.elem t r j = 0#32) ∧
  (∀ r h, ((State.reset.rope r).handle h).st = .free) ∧ (∀ q, (State.reset.queue q).en = false) ∧
  step State.reset = .next { State.reset with cycle := 1 }
end

