-- ==== Sys2Proof/Laws/Encode.lean ====
section
/-!
SUPPORT. Every field of an encoded word reads back as it was put there, so the opcode map answers the instruction encoded.
-/

namespace Sys2Proof

/-- What the decoder needs beside the opcode map. -/
theorem decodeSlot_of_ctor {k : SlotKind} {i : Instr} (h : ctorOf k (encode i) = some i) (hw : i.wf = true)
    (hc : i.isControl = true → k = .sa) : decodeSlot k (encode i) = .ok i := by
  unfold decodeSlot
  rw [h]
  have hb : (i.isControl && k == .sb) = false := by
    cases hi : i.isControl
    · rfl
    · rw [hc hi]; rfl
  simp [hb, hw]

/-- A field above the low part of a word, and one within it. -/
theorem fieldUp {v w l n : Nat} {hi : BitVec v} {lo : BitVec w} (h : w ≤ l) :
    BitVec.extractLsb' l n (hi ++ lo) = BitVec.extractLsb' (l - w) n hi := BitVec.extractLsb'_append_eq_of_le h
theorem fieldDown {v w l n : Nat} {hi : BitVec v} {lo : BitVec w} (h : l + n ≤ w) :
    BitVec.extractLsb' l n (hi ++ lo) = BitVec.extractLsb' l n lo := BitVec.extractLsb'_append_eq_of_add_le h

/-- A slot reads the column it shares with another slot (R126). -/
theorem ctorOf_column (k : SlotKind) (w : W32) : ctorOf k.column w = ctorOf k w := by
  cases k <;> rfl

theorem packScalar_op (op : BitVec 8) (o : ScalarOp) : fld (packScalar op o) 24 8 = op := by
  unfold fld packScalar
  exact (fieldUp (by decide)).trans ((fieldUp (by decide)).trans ((fieldUp (by decide)).trans ((fieldUp (by decide)).trans ((fieldUp (by decide)).trans ((fieldUp (by decide)).trans ((fieldUp (by decide)).trans BitVec.extractLsb'_eq_self))))))

theorem packScalar_unit (op : BitVec 8) (o : ScalarOp) : fld (packScalar op o) 22 2 = o.unit := by
  unfold fld packScalar
  exact (fieldUp (by decide)).trans ((fieldUp (by decide)).trans ((fieldUp (by decide)).trans ((fieldUp (by decide)).trans ((fieldUp (by decide)).trans ((fieldUp (by decide)).trans ((fieldDown (by decide)).trans BitVec.extractLsb'_eq_self))))))

theorem packScalar_d (op : BitVec 8) (o : ScalarOp) : fld (packScalar op o) 17 5 = o.d := by
  unfold fld packScalar
  exact (fieldUp (by decide)).trans ((fieldUp (by decide)).trans ((fieldUp (by decide)).trans ((fieldUp (by decide)).trans ((fieldUp (by decide)).trans ((fieldDown (by decide)).trans BitVec.extractLsb'_eq_self)))))

theorem packScalar_a (op : BitVec 8) (o : ScalarOp) : fld (packScalar op o) 12 5 = o.a := by
  unfold fld packScalar
  exact (fieldUp (by decide)).trans ((fieldUp (by decide)).trans ((fieldUp (by decide)).trans ((fieldUp (by decide)).trans ((fieldDown (by decide)).trans BitVec.extractLsb'_eq_self))))

theorem packScalar_b (op : BitVec 8) (o : ScalarOp) : fld (packScalar op o) 7 5 = o.b := by
  unfold fld packScalar
  exact (fieldUp (by decide)).trans ((fieldUp (by decide)).trans ((fieldUp (by decide)).trans ((fieldDown (by decide)).trans BitVec.extractLsb'_eq_self)))

theorem packScalar_l (op : BitVec 8) (o : ScalarOp) : fld (packScalar op o) 6 1 = o.l := by
  unfold fld packScalar
  exact (fieldUp (by decide)).trans ((fieldUp (by decide)).trans ((fieldDown (by decide)).trans BitVec.extractLsb'_eq_self))

theorem packScalar_guard (op : BitVec 8) (o : ScalarOp) : fld (packScalar op o) 3 3 = o.guard := by
  unfold fld packScalar
  exact (fieldUp (by decide)).trans ((fieldDown (by decide)).trans BitVec.extractLsb'_eq_self)

theorem packScalar_funct (op : BitVec 8) (o : ScalarOp) : fld (packScalar op o) 0 3 = o.funct := by
  unfold fld packScalar
  exact (fieldDown (by decide)).trans BitVec.extractLsb'_eq_self

theorem ScalarOp.ofWord_packScalar (op : BitVec 8) (o : ScalarOp) : ScalarOp.ofWord (packScalar op o) = o := by
  simp only [ScalarOp.ofWord, packScalar_unit, packScalar_d, packScalar_a, packScalar_b, packScalar_l, packScalar_guard, packScalar_funct]

theorem packVector_op (op : BitVec 7) (o : VecOp) : fld (packVector op o) 25 7 = op := by
  unfold fld packVector
  exact (fieldUp (by decide)).trans ((fieldUp (by decide)).trans ((fieldUp (by decide)).trans ((fieldUp (by decide)).trans ((fieldUp (by decide)).trans ((fieldUp (by decide)).trans ((fieldUp (by decide)).trans BitVec.extractLsb'_eq_self))))))

theorem packVector_ty (op : BitVec 7) (o : VecOp) : fld (packVector op o) 22 3 = o.ty := by
  unfold fld packVector
  exact (fieldUp (by decide)).trans ((fieldUp (by decide)).trans ((fieldUp (by decide)).trans ((fieldUp (by decide)).trans ((fieldUp (by decide)).trans ((fieldUp (by decide)).trans ((fieldDown (by decide)).trans BitVec.extractLsb'_eq_self))))))

theorem packVector_unit (op : BitVec 7) (o : VecOp) : fld (packVector op o) 19 3 = o.unit := by
  unfold fld packVector
  exact (fieldUp (by decide)).trans ((fieldUp (by decide)).trans ((fieldUp (by decide)).trans ((fieldUp (by decide)).trans ((fieldUp (by decide)).trans ((fieldDown (by decide)).trans BitVec.extractLsb'_eq_self)))))

theorem packVector_d (op : BitVec 7) (o : VecOp) : fld (packVector op o) 14 5 = o.d := by
  unfold fld packVector
  exact (fieldUp (by decide)).trans ((fieldUp (by decide)).trans ((fieldUp (by decide)).trans ((fieldUp (by decide)).trans ((fieldDown (by decide)).trans BitVec.extractLsb'_eq_self))))

theorem packVector_a (op : BitVec 7) (o : VecOp) : fld (packVector op o) 9 5 = o.a := by
  unfold fld packVector
  exact (fieldUp (by decide)).trans ((fieldUp (by decide)).trans ((fieldUp (by decide)).trans ((fieldDown (by decide)).trans BitVec.extractLsb'_eq_self)))

theorem packVector_b (op : BitVec 7) (o : VecOp) : fld (packVector op o) 4 5 = o.b := by
  unfold fld packVector
  exact (fieldUp (by decide)).trans ((fieldUp (by decide)).trans ((fieldDown (by decide)).trans BitVec.extractLsb'_eq_self))

theorem packVector_l (op : BitVec 7) (o : VecOp) : fld (packVector op o) 3 1 = o.l := by
  unfold fld packVector
  exact (fieldUp (by decide)).trans ((fieldDown (by decide)).trans BitVec.extractLsb'_eq_self)

theorem packVector_q (op : BitVec 7) (o : VecOp) : fld (packVector op o) 0 3 = o.q := by
  unfold fld packVector
  exact (fieldDown (by decide)).trans BitVec.extractLsb'_eq_self

theorem VecOp.ofWord_packVector (op : BitVec 7) (o : VecOp) : VecOp.ofWord (packVector op o) = o := by
  simp only [VecOp.ofWord, packVector_ty, packVector_unit, packVector_d, packVector_a, packVector_b, packVector_l, packVector_q]

theorem packXf_op (op : BitVec 6) (o : XfOp) : fld (packXf op o) 26 6 = op := by
  unfold fld packXf
  exact (fieldUp (by decide)).trans ((fieldUp (by decide)).trans ((fieldUp (by decide)).trans ((fieldUp (by decide)).trans ((fieldUp (by decide)).trans ((fieldUp (by decide)).trans ((fieldUp (by decide)).trans BitVec.extractLsb'_eq_self))))))

theorem packXf_ty (op : BitVec 6) (o : XfOp) : fld (packXf op o) 24 2 = o.ty := by
  unfold fld packXf
  exact (fieldUp (by decide)).trans ((fieldUp (by decide)).trans ((fieldUp (by decide)).trans ((fieldUp (by decide)).trans ((fieldUp (by decide)).trans ((fieldUp (by decide)).trans ((fieldDown (by decide)).trans BitVec.extractLsb'_eq_self))))))

theorem packXf_d (op : BitVec 6) (o : XfOp) : fld (packXf op o) 19 5 = o.d := by
  unfold fld packXf
  exact (fieldUp (by decide)).trans ((fieldUp (by decide)).trans ((fieldUp (by decide)).trans ((fieldUp (by decide)).trans ((fieldUp (by decide)).trans ((fieldDown (by decide)).trans BitVec.extractLsb'_eq_self)))))

theorem packXf_a (op : BitVec 6) (o : XfOp) : fld (packXf op o) 14 5 = o.a := by
  unfold fld packXf
  exact (fieldUp (by decide)).trans ((fieldUp (by decide)).trans ((fieldUp (by decide)).trans ((fieldUp (by decide)).trans ((fieldDown (by decide)).trans BitVec.extractLsb'_eq_self))))

theorem packXf_b (op : BitVec 6) (o : XfOp) : fld (packXf op o) 9 5 = o.b := by
  unfold fld packXf
  exact (fieldUp (by decide)).trans ((fieldUp (by decide)).trans ((fieldUp (by decide)).trans ((fieldDown (by decide)).trans BitVec.extractLsb'_eq_self)))

theorem packXf_c1 (op : BitVec 6) (o : XfOp) : fld (packXf op o) 6 3 = o.c1 := by
  unfold fld packXf
  exact (fieldUp (by decide)).trans ((fieldUp (by decide)).trans ((fieldDown (by decide)).trans BitVec.extractLsb'_eq_self))

theorem packXf_c2 (op : BitVec 6) (o : XfOp) : fld (packXf op o) 3 3 = o.c2 := by
  unfold fld packXf
  exact (fieldUp (by decide)).trans ((fieldDown (by decide)).trans BitVec.extractLsb'_eq_self)

theorem packXf_q (op : BitVec 6) (o : XfOp) : fld (packXf op o) 0 3 = o.q := by
  unfold fld packXf
  exact (fieldDown (by decide)).trans BitVec.extractLsb'_eq_self

theorem XfOp.ofWord_packXf (op : BitVec 6) (o : XfOp) : XfOp.ofWord (packXf op o) = o := by
  simp only [XfOp.ofWord, packXf_ty, packXf_d, packXf_a, packXf_b, packXf_c1, packXf_c2, packXf_q]

theorem packXt_op (op : BitVec 4) (o : XtOp) : fld (packXt op o) 28 4 = op := by
  unfold fld packXt
  exact (fieldUp (by decide)).trans ((fieldUp (by decide)).trans ((fieldUp (by decide)).trans ((fieldUp (by decide)).trans BitVec.extractLsb'_eq_self)))

theorem packXt_v (op : BitVec 4) (o : XtOp) : fld (packXt op o) 23 5 = o.v := by
  unfold fld packXt
  exact (fieldUp (by decide)).trans ((fieldUp (by decide)).trans ((fieldUp (by decide)).trans ((fieldDown (by decide)).trans BitVec.extractLsb'_eq_self)))

theorem packXt_idx (op : BitVec 4) (o : XtOp) : fld (packXt op o) 18 5 = o.idx := by
  unfold fld packXt
  exact (fieldUp (by decide)).trans ((fieldUp (by decide)).trans ((fieldDown (by decide)).trans BitVec.extractLsb'_eq_self))

theorem packXt_esize (op : BitVec 4) (o : XtOp) : fld (packXt op o) 16 2 = o.esize := by
  unfold fld packXt
  exact (fieldUp (by decide)).trans ((fieldDown (by decide)).trans BitVec.extractLsb'_eq_self)

theorem XtOp.ofWord_packXt (op : BitVec 4) (o : XtOp) : XtOp.ofWord (packXt op o) = o := by
  simp only [XtOp.ofWord, packXt_v, packXt_idx, packXt_esize]

theorem packAtom_op (op : BitVec 6) (o : AtomOp) : fld (packAtom op o) 26 6 = op := by
  unfold fld packAtom
  exact (fieldUp (by decide)).trans ((fieldUp (by decide)).trans ((fieldUp (by decide)).trans ((fieldUp (by decide)).trans ((fieldUp (by decide)).trans ((fieldUp (by decide)).trans BitVec.extractLsb'_eq_self)))))

theorem packAtom_d (op : BitVec 6) (o : AtomOp) : fld (packAtom op o) 21 5 = o.d := by
  unfold fld packAtom
  exact (fieldUp (by decide)).trans ((fieldUp (by decide)).trans ((fieldUp (by decide)).trans ((fieldUp (by decide)).trans ((fieldUp (by decide)).trans ((fieldDown (by decide)).trans BitVec.extractLsb'_eq_self)))))

theorem packAtom_a (op : BitVec 6) (o : AtomOp) : fld (packAtom op o) 16 5 = o.a := by
  unfold fld packAtom
  exact (fieldUp (by decide)).trans ((fieldUp (by decide)).trans ((fieldUp (by decide)).trans ((fieldUp (by decide)).trans ((fieldDown (by decide)).trans BitVec.extractLsb'_eq_self))))

theorem packAtom_lane (op : BitVec 6) (o : AtomOp) : fld (packAtom op o) 12 4 = o.lane := by
  unfold fld packAtom
  exact (fieldUp (by decide)).trans ((fieldUp (by decide)).trans ((fieldUp (by decide)).trans ((fieldDown (by decide)).trans BitVec.extractLsb'_eq_self)))

theorem packAtom_tap (op : BitVec 6) (o : AtomOp) : fld (packAtom op o) 6 6 = o.tap := by
  unfold fld packAtom
  exact (fieldUp (by decide)).trans ((fieldUp (by decide)).trans ((fieldDown (by decide)).trans BitVec.extractLsb'_eq_self))

theorem packAtom_s (op : BitVec 6) (o : AtomOp) : fld (packAtom op o) 1 5 = o.s := by
  unfold fld packAtom
  exact (fieldUp (by decide)).trans ((fieldDown (by decide)).trans BitVec.extractLsb'_eq_self)

theorem packAtom_n (op : BitVec 6) (o : AtomOp) : fld (packAtom op o) 0 1 = o.n := by
  unfold fld packAtom
  exact (fieldDown (by decide)).trans BitVec.extractLsb'_eq_self

theorem AtomOp.ofWord_packAtom (op : BitVec 6) (o : AtomOp) : AtomOp.ofWord (packAtom op o) = o := by
  simp only [AtomOp.ofWord, packAtom_d, packAtom_a, packAtom_lane, packAtom_tap, packAtom_s, packAtom_n]

theorem packXfer_op (op : BitVec 6) (o : XferOp) : fld (packXfer op o) 26 6 = op := by
  unfold fld packXfer
  exact (fieldUp (by decide)).trans ((fieldUp (by decide)).trans ((fieldUp (by decide)).trans ((fieldUp (by decide)).trans ((fieldUp (by decide)).trans BitVec.extractLsb'_eq_self))))

theorem packXfer_e (op : BitVec 6) (o : XferOp) : fld (packXfer op o) 25 1 = o.e := by
  unfold fld packXfer
  exact (fieldUp (by decide)).trans ((fieldUp (by decide)).trans ((fieldUp (by decide)).trans ((fieldUp (by decide)).trans ((fieldDown (by decide)).trans BitVec.extractLsb'_eq_self))))

theorem packXfer_x (op : BitVec 6) (o : XferOp) : fld (packXfer op o) 20 5 = o.x := by
  unfold fld packXfer
  exact (fieldUp (by decide)).trans ((fieldUp (by decide)).trans ((fieldUp (by decide)).trans ((fieldDown (by decide)).trans BitVec.extractLsb'_eq_self)))

theorem packXfer_h (op : BitVec 6) (o : XferOp) : fld (packXfer op o) 19 1 = o.h := by
  unfold fld packXfer
  exact (fieldUp (by decide)).trans ((fieldUp (by decide)).trans ((fieldDown (by decide)).trans BitVec.extractLsb'_eq_self))

theorem packXfer_handle (op : BitVec 6) (o : XferOp) : fld (packXfer op o) 13 6 = o.handle := by
  unfold fld packXfer
  exact (fieldUp (by decide)).trans ((fieldDown (by decide)).trans BitVec.extractLsb'_eq_self)

theorem XferOp.ofWord_packXfer (op : BitVec 6) (o : XferOp) : XferOp.ofWord (packXfer op o) = o := by
  simp only [XferOp.ofWord, packXfer_e, packXfer_x, packXfer_h, packXfer_handle]

theorem packColl_op (op : BitVec 6) (o : CollOp) : fld (packColl op o) 26 6 = op := by
  unfold fld packColl
  exact (fieldUp (by decide)).trans ((fieldUp (by decide)).trans ((fieldUp (by decide)).trans ((fieldUp (by decide)).trans BitVec.extractLsb'_eq_self)))

theorem packColl_d (op : BitVec 6) (o : CollOp) : fld (packColl op o) 21 5 = o.d := by
  unfold fld packColl
  exact (fieldUp (by decide)).trans ((fieldUp (by decide)).trans ((fieldUp (by decide)).trans ((fieldDown (by decide)).trans BitVec.extractLsb'_eq_self)))

theorem packColl_a (op : BitVec 6) (o : CollOp) : fld (packColl op o) 16 5 = o.a := by
  unfold fld packColl
  exact (fieldUp (by decide)).trans ((fieldUp (by decide)).trans ((fieldDown (by decide)).trans BitVec.extractLsb'_eq_self))

theorem packColl_b (op : BitVec 6) (o : CollOp) : fld (packColl op o) 11 5 = o.b := by
  unfold fld packColl
  exact (fieldUp (by decide)).trans ((fieldDown (by decide)).trans BitVec.extractLsb'_eq_self)

theorem CollOp.ofWord_packColl (op : BitVec 6) (o : CollOp) : CollOp.ofWord (packColl op o) = o := by
  simp only [CollOp.ofWord, packColl_d, packColl_a, packColl_b]

theorem packCsr_op (op : BitVec 6) (o : CsrOp) : fld (packCsr op o) 26 6 = op := by
  unfold fld packCsr
  exact (fieldUp (by decide)).trans ((fieldUp (by decide)).trans ((fieldUp (by decide)).trans ((fieldUp (by decide)).trans BitVec.extractLsb'_eq_self)))

theorem packCsr_d (op : BitVec 6) (o : CsrOp) : fld (packCsr op o) 21 5 = o.d := by
  unfold fld packCsr
  exact (fieldUp (by decide)).trans ((fieldUp (by decide)).trans ((fieldUp (by decide)).trans ((fieldDown (by decide)).trans BitVec.extractLsb'_eq_self)))

theorem packCsr_a (op : BitVec 6) (o : CsrOp) : fld (packCsr op o) 16 5 = o.a := by
  unfold fld packCsr
  exact (fieldUp (by decide)).trans ((fieldUp (by decide)).trans ((fieldDown (by decide)).trans BitVec.extractLsb'_eq_self))

theorem packCsr_num (op : BitVec 6) (o : CsrOp) : fld (packCsr op o) 4 12 = o.num := by
  unfold fld packCsr
  exact (fieldUp (by decide)).trans ((fieldDown (by decide)).trans BitVec.extractLsb'_eq_self)

theorem CsrOp.ofWord_packCsr (op : BitVec 6) (o : CsrOp) : CsrOp.ofWord (packCsr op o) = o := by
  simp only [CsrOp.ofWord, packCsr_d, packCsr_a, packCsr_num]

theorem ctorOf_add (o : ScalarOp) : ctorOf .sa (encode (.add o)) = some (.add o) := by
  show ctorScalar (packScalar 1#8 o) = _
  unfold ctorScalar
  rw [packScalar_op]
  simp [ScalarOp.ofWord_packScalar]

theorem ctorOf_sub (o : ScalarOp) : ctorOf .sa (encode (.sub o)) = some (.sub o) := by
  show ctorScalar (packScalar 2#8 o) = _
  unfold ctorScalar
  rw [packScalar_op]
  simp [ScalarOp.ofWord_packScalar]

theorem ctorOf_mul (o : ScalarOp) : ctorOf .sa (encode (.mul o)) = some (.mul o) := by
  show ctorScalar (packScalar 3#8 o) = _
  unfold ctorScalar
  rw [packScalar_op]
  simp [ScalarOp.ofWord_packScalar]

theorem ctorOf_mulh (o : ScalarOp) : ctorOf .sa (encode (.mulh o)) = some (.mulh o) := by
  show ctorScalar (packScalar 4#8 o) = _
  unfold ctorScalar
  rw [packScalar_op]
  simp [ScalarOp.ofWord_packScalar]

theorem ctorOf_mulhn (o : ScalarOp) : ctorOf .sa (encode (.mulhn o)) = some (.mulhn o) := by
  show ctorScalar (packScalar 5#8 o) = _
  unfold ctorScalar
  rw [packScalar_op]
  simp [ScalarOp.ofWord_packScalar]

theorem ctorOf_div (o : ScalarOp) : ctorOf .sa (encode (.div o)) = some (.div o) := by
  show ctorScalar (packScalar 6#8 o) = _
  unfold ctorScalar
  rw [packScalar_op]
  simp [ScalarOp.ofWord_packScalar]

theorem ctorOf_divn (o : ScalarOp) : ctorOf .sa (encode (.divn o)) = some (.divn o) := by
  show ctorScalar (packScalar 7#8 o) = _
  unfold ctorScalar
  rw [packScalar_op]
  simp [ScalarOp.ofWord_packScalar]

theorem ctorOf_rem (o : ScalarOp) : ctorOf .sa (encode (.rem o)) = some (.rem o) := by
  show ctorScalar (packScalar 8#8 o) = _
  unfold ctorScalar
  rw [packScalar_op]
  simp [ScalarOp.ofWord_packScalar]

theorem ctorOf_remn (o : ScalarOp) : ctorOf .sa (encode (.remn o)) = some (.remn o) := by
  show ctorScalar (packScalar 9#8 o) = _
  unfold ctorScalar
  rw [packScalar_op]
  simp [ScalarOp.ofWord_packScalar]

theorem ctorOf_and (o : ScalarOp) : ctorOf .sa (encode (.and o)) = some (.and o) := by
  show ctorScalar (packScalar 10#8 o) = _
  unfold ctorScalar
  rw [packScalar_op]
  simp [ScalarOp.ofWord_packScalar]

theorem ctorOf_or (o : ScalarOp) : ctorOf .sa (encode (.or o)) = some (.or o) := by
  show ctorScalar (packScalar 11#8 o) = _
  unfold ctorScalar
  rw [packScalar_op]
  simp [ScalarOp.ofWord_packScalar]

theorem ctorOf_xor (o : ScalarOp) : ctorOf .sa (encode (.xor o)) = some (.xor o) := by
  show ctorScalar (packScalar 12#8 o) = _
  unfold ctorScalar
  rw [packScalar_op]
  simp [ScalarOp.ofWord_packScalar]

theorem ctorOf_andn (o : ScalarOp) : ctorOf .sa (encode (.andn o)) = some (.andn o) := by
  show ctorScalar (packScalar 13#8 o) = _
  unfold ctorScalar
  rw [packScalar_op]
  simp [ScalarOp.ofWord_packScalar]

theorem ctorOf_shl (o : ScalarOp) : ctorOf .sa (encode (.shl o)) = some (.shl o) := by
  show ctorScalar (packScalar 14#8 o) = _
  unfold ctorScalar
  rw [packScalar_op]
  simp [ScalarOp.ofWord_packScalar]

theorem ctorOf_shr (o : ScalarOp) : ctorOf .sa (encode (.shr o)) = some (.shr o) := by
  show ctorScalar (packScalar 15#8 o) = _
  unfold ctorScalar
  rw [packScalar_op]
  simp [ScalarOp.ofWord_packScalar]

theorem ctorOf_sra (o : ScalarOp) : ctorOf .sa (encode (.sra o)) = some (.sra o) := by
  show ctorScalar (packScalar 16#8 o) = _
  unfold ctorScalar
  rw [packScalar_op]
  simp [ScalarOp.ofWord_packScalar]

theorem ctorOf_rot (o : ScalarOp) : ctorOf .sa (encode (.rot o)) = some (.rot o) := by
  show ctorScalar (packScalar 17#8 o) = _
  unfold ctorScalar
  rw [packScalar_op]
  simp [ScalarOp.ofWord_packScalar]

theorem ctorOf_clz (o : ScalarOp) : ctorOf .sa (encode (.clz o)) = some (.clz o) := by
  show ctorScalar (packScalar 18#8 o) = _
  unfold ctorScalar
  rw [packScalar_op]
  simp [ScalarOp.ofWord_packScalar]

theorem ctorOf_popc (o : ScalarOp) : ctorOf .sa (encode (.popc o)) = some (.popc o) := by
  show ctorScalar (packScalar 19#8 o) = _
  unfold ctorScalar
  rw [packScalar_op]
  simp [ScalarOp.ofWord_packScalar]

theorem ctorOf_min (o : ScalarOp) : ctorOf .sa (encode (.min o)) = some (.min o) := by
  show ctorScalar (packScalar 20#8 o) = _
  unfold ctorScalar
  rw [packScalar_op]
  simp [ScalarOp.ofWord_packScalar]

theorem ctorOf_max (o : ScalarOp) : ctorOf .sa (encode (.max o)) = some (.max o) := by
  show ctorScalar (packScalar 21#8 o) = _
  unfold ctorScalar
  rw [packScalar_op]
  simp [ScalarOp.ofWord_packScalar]

theorem ctorOf_minn (o : ScalarOp) : ctorOf .sa (encode (.minn o)) = some (.minn o) := by
  show ctorScalar (packScalar 22#8 o) = _
  unfold ctorScalar
  rw [packScalar_op]
  simp [ScalarOp.ofWord_packScalar]

theorem ctorOf_maxn (o : ScalarOp) : ctorOf .sa (encode (.maxn o)) = some (.maxn o) := by
  show ctorScalar (packScalar 23#8 o) = _
  unfold ctorScalar
  rw [packScalar_op]
  simp [ScalarOp.ofWord_packScalar]

theorem ctorOf_sext (o : ScalarOp) : ctorOf .sa (encode (.sext o)) = some (.sext o) := by
  show ctorScalar (packScalar 24#8 o) = _
  unfold ctorScalar
  rw [packScalar_op]
  simp [ScalarOp.ofWord_packScalar]

theorem ctorOf_zext (o : ScalarOp) : ctorOf .sa (encode (.zext o)) = some (.zext o) := by
  show ctorScalar (packScalar 25#8 o) = _
  unfold ctorScalar
  rw [packScalar_op]
  simp [ScalarOp.ofWord_packScalar]

theorem ctorOf_bfx (o : ScalarOp) : ctorOf .sa (encode (.bfx o)) = some (.bfx o) := by
  show ctorScalar (packScalar 26#8 o) = _
  unfold ctorScalar
  rw [packScalar_op]
  simp [ScalarOp.ofWord_packScalar]

theorem ctorOf_bfi (o : ScalarOp) : ctorOf .sa (encode (.bfi o)) = some (.bfi o) := by
  show ctorScalar (packScalar 27#8 o) = _
  unfold ctorScalar
  rw [packScalar_op]
  simp [ScalarOp.ofWord_packScalar]

theorem ctorOf_lea (o : ScalarOp) : ctorOf .sa (encode (.lea o)) = some (.lea o) := by
  show ctorScalar (packScalar 28#8 o) = _
  unfold ctorScalar
  rw [packScalar_op]
  simp [ScalarOp.ofWord_packScalar]

theorem ctorOf_mov (o : ScalarOp) : ctorOf .sa (encode (.mov o)) = some (.mov o) := by
  show ctorScalar (packScalar 29#8 o) = _
  unfold ctorScalar
  rw [packScalar_op]
  simp [ScalarOp.ofWord_packScalar]

theorem ctorOf_movl (o : ScalarOp) : ctorOf .sa (encode (.movl o)) = some (.movl o) := by
  show ctorScalar (packScalar 30#8 o) = _
  unfold ctorScalar
  rw [packScalar_op]
  simp [ScalarOp.ofWord_packScalar]

theorem ctorOf_sel (o : ScalarOp) : ctorOf .sa (encode (.sel o)) = some (.sel o) := by
  show ctorScalar (packScalar 31#8 o) = _
  unfold ctorScalar
  rw [packScalar_op]
  simp [ScalarOp.ofWord_packScalar]

theorem ctorOf_cmp (o : ScalarOp) : ctorOf .sa (encode (.cmp o)) = some (.cmp o) := by
  show ctorScalar (packScalar 32#8 o) = _
  unfold ctorScalar
  rw [packScalar_op]
  simp [ScalarOp.ofWord_packScalar]

theorem ctorOf_fadd (o : ScalarOp) : ctorOf .sa (encode (.fadd o)) = some (.fadd o) := by
  show ctorScalar (packScalar 33#8 o) = _
  unfold ctorScalar
  rw [packScalar_op]
  simp [ScalarOp.ofWord_packScalar]

theorem ctorOf_fsub (o : ScalarOp) : ctorOf .sa (encode (.fsub o)) = some (.fsub o) := by
  show ctorScalar (packScalar 34#8 o) = _
  unfold ctorScalar
  rw [packScalar_op]
  simp [ScalarOp.ofWord_packScalar]

theorem ctorOf_fmul (o : ScalarOp) : ctorOf .sa (encode (.fmul o)) = some (.fmul o) := by
  show ctorScalar (packScalar 35#8 o) = _
  unfold ctorScalar
  rw [packScalar_op]
  simp [ScalarOp.ofWord_packScalar]

theorem ctorOf_ffma (o : ScalarOp) : ctorOf .sa (encode (.ffma o)) = some (.ffma o) := by
  show ctorScalar (packScalar 36#8 o) = _
  unfold ctorScalar
  rw [packScalar_op]
  simp [ScalarOp.ofWord_packScalar]

theorem ctorOf_fmin (o : ScalarOp) : ctorOf .sa (encode (.fmin o)) = some (.fmin o) := by
  show ctorScalar (packScalar 37#8 o) = _
  unfold ctorScalar
  rw [packScalar_op]
  simp [ScalarOp.ofWord_packScalar]

theorem ctorOf_fmax (o : ScalarOp) : ctorOf .sa (encode (.fmax o)) = some (.fmax o) := by
  show ctorScalar (packScalar 38#8 o) = _
  unfold ctorScalar
  rw [packScalar_op]
  simp [ScalarOp.ofWord_packScalar]

theorem ctorOf_fcmp (o : ScalarOp) : ctorOf .sa (encode (.fcmp o)) = some (.fcmp o) := by
  show ctorScalar (packScalar 39#8 o) = _
  unfold ctorScalar
  rw [packScalar_op]
  simp [ScalarOp.ofWord_packScalar]

theorem ctorOf_fcvt (o : ScalarOp) : ctorOf .sa (encode (.fcvt o)) = some (.fcvt o) := by
  show ctorScalar (packScalar 40#8 o) = _
  unfold ctorScalar
  rw [packScalar_op]
  simp [ScalarOp.ofWord_packScalar]

theorem ctorOf_lix (o : ScalarOp) : ctorOf .sa (encode (.lix o)) = some (.lix o) := by
  show ctorScalar (packScalar 41#8 o) = _
  unfold ctorScalar
  rw [packScalar_op]
  simp [ScalarOp.ofWord_packScalar]

theorem ctorOf_br (o : ScalarOp) : ctorOf .sa (encode (.br o)) = some (.br o) := by
  show ctorScalar (packScalar 42#8 o) = _
  unfold ctorScalar
  rw [packScalar_op]
  simp [ScalarOp.ofWord_packScalar]

theorem ctorOf_bc (o : ScalarOp) : ctorOf .sa (encode (.bc o)) = some (.bc o) := by
  show ctorScalar (packScalar 43#8 o) = _
  unfold ctorScalar
  rw [packScalar_op]
  simp [ScalarOp.ofWord_packScalar]

theorem ctorOf_jmp (o : ScalarOp) : ctorOf .sa (encode (.jmp o)) = some (.jmp o) := by
  show ctorScalar (packScalar 44#8 o) = _
  unfold ctorScalar
  rw [packScalar_op]
  simp [ScalarOp.ofWord_packScalar]

theorem ctorOf_callRelative (o : ScalarOp)  (hw : Instr.wf (.callRelative o) = true): ctorOf .sa (encode (.callRelative o)) = some (.callRelative o) := by
  have hf : o.funct = 0#3 := by
    simp only [Instr.wf, ScalarOp.wfPlain, Bool.and_eq_true, beq_iff_eq] at hw
    tauto
  show ctorScalar (packScalar 45#8 o) = _
  unfold ctorScalar
  rw [packScalar_op]
  simp [packScalar_funct, ScalarOp.ofWord_packScalar, hf]

theorem ctorOf_callRegister (o : ScalarOp)  (hw : Instr.wf (.callRegister o) = true): ctorOf .sa (encode (.callRegister o)) = some (.callRegister o) := by
  have hf : o.funct = 1#3 := by
    simp only [Instr.wf, Bool.and_eq_true, beq_iff_eq] at hw
    tauto
  show ctorScalar (packScalar 45#8 o) = _
  unfold ctorScalar
  rw [packScalar_op]
  simp [packScalar_funct, ScalarOp.ofWord_packScalar, hf]

theorem ctorOf_ret (o : ScalarOp) : ctorOf .sa (encode (.ret o)) = some (.ret o) := by
  show ctorScalar (packScalar 46#8 o) = _
  unfold ctorScalar
  rw [packScalar_op]
  simp [ScalarOp.ofWord_packScalar]

theorem ctorOf_loop (o : ScalarOp) : ctorOf .sa (encode (.loop o)) = some (.loop o) := by
  show ctorScalar (packScalar 47#8 o) = _
  unfold ctorScalar
  rw [packScalar_op]
  simp [ScalarOp.ofWord_packScalar]

theorem ctorOf_loopx (o : ScalarOp) : ctorOf .sa (encode (.loopx o)) = some (.loopx o) := by
  show ctorScalar (packScalar 48#8 o) = _
  unfold ctorScalar
  rw [packScalar_op]
  simp [ScalarOp.ofWord_packScalar]

theorem ctorOf_vadd (o : VecOp) : ctorOf .va (encode (.vadd o)) = some (.vadd o) := by
  show ctorVector (packVector 1#7 o) = _
  unfold ctorVector
  rw [packVector_op]
  simp [VecOp.ofWord_packVector]

theorem ctorOf_vsub (o : VecOp) : ctorOf .va (encode (.vsub o)) = some (.vsub o) := by
  show ctorVector (packVector 2#7 o) = _
  unfold ctorVector
  rw [packVector_op]
  simp [VecOp.ofWord_packVector]

theorem ctorOf_vmul (o : VecOp) : ctorOf .va (encode (.vmul o)) = some (.vmul o) := by
  show ctorVector (packVector 3#7 o) = _
  unfold ctorVector
  rw [packVector_op]
  simp [VecOp.ofWord_packVector]

theorem ctorOf_vmulh (o : VecOp) : ctorOf .va (encode (.vmulh o)) = some (.vmulh o) := by
  show ctorVector (packVector 4#7 o) = _
  unfold ctorVector
  rw [packVector_op]
  simp [VecOp.ofWord_packVector]

theorem ctorOf_vfma (o : VecOp) : ctorOf .va (encode (.vfma o)) = some (.vfma o) := by
  show ctorVector (packVector 5#7 o) = _
  unfold ctorVector
  rw [packVector_op]
  simp [VecOp.ofWord_packVector]

theorem ctorOf_vfms (o : VecOp) : ctorOf .va (encode (.vfms o)) = some (.vfms o) := by
  show ctorVector (packVector 6#7 o) = _
  unfold ctorVector
  rw [packVector_op]
  simp [VecOp.ofWord_packVector]

theorem ctorOf_vfnma (o : VecOp) : ctorOf .va (encode (.vfnma o)) = some (.vfnma o) := by
  show ctorVector (packVector 7#7 o) = _
  unfold ctorVector
  rw [packVector_op]
  simp [VecOp.ofWord_packVector]

theorem ctorOf_vmin (o : VecOp) : ctorOf .va (encode (.vmin o)) = some (.vmin o) := by
  show ctorVector (packVector 8#7 o) = _
  unfold ctorVector
  rw [packVector_op]
  simp [VecOp.ofWord_packVector]

theorem ctorOf_vmax (o : VecOp) : ctorOf .va (encode (.vmax o)) = some (.vmax o) := by
  show ctorVector (packVector 9#7 o) = _
  unfold ctorVector
  rw [packVector_op]
  simp [VecOp.ofWord_packVector]

theorem ctorOf_vabs (o : VecOp) : ctorOf .va (encode (.vabs o)) = some (.vabs o) := by
  show ctorVector (packVector 10#7 o) = _
  unfold ctorVector
  rw [packVector_op]
  simp [VecOp.ofWord_packVector]

theorem ctorOf_vneg (o : VecOp) : ctorOf .va (encode (.vneg o)) = some (.vneg o) := by
  show ctorVector (packVector 11#7 o) = _
  unfold ctorVector
  rw [packVector_op]
  simp [VecOp.ofWord_packVector]

theorem ctorOf_vclamp (o : VecOp) : ctorOf .va (encode (.vclamp o)) = some (.vclamp o) := by
  show ctorVector (packVector 12#7 o) = _
  unfold ctorVector
  rw [packVector_op]
  simp [VecOp.ofWord_packVector]

theorem ctorOf_vceq (o : VecOp) : ctorOf .va (encode (.vceq o)) = some (.vceq o) := by
  show ctorVector (packVector 13#7 o) = _
  unfold ctorVector
  rw [packVector_op]
  simp [VecOp.ofWord_packVector]

theorem ctorOf_vcne (o : VecOp) : ctorOf .va (encode (.vcne o)) = some (.vcne o) := by
  show ctorVector (packVector 14#7 o) = _
  unfold ctorVector
  rw [packVector_op]
  simp [VecOp.ofWord_packVector]

theorem ctorOf_vclt (o : VecOp) : ctorOf .va (encode (.vclt o)) = some (.vclt o) := by
  show ctorVector (packVector 15#7 o) = _
  unfold ctorVector
  rw [packVector_op]
  simp [VecOp.ofWord_packVector]

theorem ctorOf_vcle (o : VecOp) : ctorOf .va (encode (.vcle o)) = some (.vcle o) := by
  show ctorVector (packVector 16#7 o) = _
  unfold ctorVector
  rw [packVector_op]
  simp [VecOp.ofWord_packVector]

theorem ctorOf_vsel (o : VecOp) : ctorOf .va (encode (.vsel o)) = some (.vsel o) := by
  show ctorVector (packVector 17#7 o) = _
  unfold ctorVector
  rw [packVector_op]
  simp [VecOp.ofWord_packVector]

theorem ctorOf_vand (o : VecOp) : ctorOf .va (encode (.vand o)) = some (.vand o) := by
  show ctorVector (packVector 18#7 o) = _
  unfold ctorVector
  rw [packVector_op]
  simp [VecOp.ofWord_packVector]

theorem ctorOf_vor (o : VecOp) : ctorOf .va (encode (.vor o)) = some (.vor o) := by
  show ctorVector (packVector 19#7 o) = _
  unfold ctorVector
  rw [packVector_op]
  simp [VecOp.ofWord_packVector]

theorem ctorOf_vxor (o : VecOp) : ctorOf .va (encode (.vxor o)) = some (.vxor o) := by
  show ctorVector (packVector 20#7 o) = _
  unfold ctorVector
  rw [packVector_op]
  simp [VecOp.ofWord_packVector]

theorem ctorOf_vnot (o : VecOp) : ctorOf .va (encode (.vnot o)) = some (.vnot o) := by
  show ctorVector (packVector 21#7 o) = _
  unfold ctorVector
  rw [packVector_op]
  simp [VecOp.ofWord_packVector]

theorem ctorOf_vshl (o : VecOp) : ctorOf .va (encode (.vshl o)) = some (.vshl o) := by
  show ctorVector (packVector 22#7 o) = _
  unfold ctorVector
  rw [packVector_op]
  simp [VecOp.ofWord_packVector]

theorem ctorOf_vshr (o : VecOp) : ctorOf .va (encode (.vshr o)) = some (.vshr o) := by
  show ctorVector (packVector 23#7 o) = _
  unfold ctorVector
  rw [packVector_op]
  simp [VecOp.ofWord_packVector]

theorem ctorOf_vsra (o : VecOp) : ctorOf .va (encode (.vsra o)) = some (.vsra o) := by
  show ctorVector (packVector 24#7 o) = _
  unfold ctorVector
  rw [packVector_op]
  simp [VecOp.ofWord_packVector]

theorem ctorOf_vcvt (o : VecOp) : ctorOf .va (encode (.vcvt o)) = some (.vcvt o) := by
  show ctorVector (packVector 25#7 o) = _
  unfold ctorVector
  rw [packVector_op]
  simp [VecOp.ofWord_packVector]

theorem ctorOf_vmov (o : VecOp) : ctorOf .va (encode (.vmov o)) = some (.vmov o) := by
  show ctorVector (packVector 26#7 o) = _
  unfold ctorVector
  rw [packVector_op]
  simp [VecOp.ofWord_packVector]

theorem ctorOf_vsplat (o : VecOp) : ctorOf .va (encode (.vsplat o)) = some (.vsplat o) := by
  show ctorVector (packVector 27#7 o) = _
  unfold ctorVector
  rw [packVector_op]
  simp [VecOp.ofWord_packVector]

theorem ctorOf_vperm (o : VecOp) : ctorOf .va (encode (.vperm o)) = some (.vperm o) := by
  show ctorVector (packVector 28#7 o) = _
  unfold ctorVector
  rw [packVector_op]
  simp [VecOp.ofWord_packVector]

theorem ctorOf_vrot (o : VecOp) : ctorOf .va (encode (.vrot o)) = some (.vrot o) := by
  show ctorVector (packVector 29#7 o) = _
  unfold ctorVector
  rw [packVector_op]
  simp [VecOp.ofWord_packVector]

theorem ctorOf_vdot (o : VecOp) : ctorOf .va (encode (.vdot o)) = some (.vdot o) := by
  show ctorVector (packVector 30#7 o) = _
  unfold ctorVector
  rw [packVector_op]
  simp [VecOp.ofWord_packVector]

theorem ctorOf_vred (o : VecOp) : ctorOf .va (encode (.vred o)) = some (.vred o) := by
  show ctorVector (packVector 31#7 o) = _
  unfold ctorVector
  rw [packVector_op]
  simp [VecOp.ofWord_packVector]

theorem ctorOf_vscan (o : VecOp) : ctorOf .va (encode (.vscan o)) = some (.vscan o) := by
  show ctorVector (packVector 32#7 o) = _
  unfold ctorVector
  rw [packVector_op]
  simp [VecOp.ofWord_packVector]

theorem ctorOf_vdraw (o : VecOp) : ctorOf .va (encode (.vdraw o)) = some (.vdraw o) := by
  show ctorVector (packVector 33#7 o) = _
  unfold ctorVector
  rw [packVector_op]
  simp [VecOp.ofWord_packVector]

theorem ctorOf_vquant (o : VecOp) : ctorOf .va (encode (.vquant o)) = some (.vquant o) := by
  show ctorVector (packVector 34#7 o) = _
  unfold ctorVector
  rw [packVector_op]
  simp [VecOp.ofWord_packVector]

theorem ctorOf_vdeq (o : VecOp) : ctorOf .va (encode (.vdeq o)) = some (.vdeq o) := by
  show ctorVector (packVector 35#7 o) = _
  unfold ctorVector
  rw [packVector_op]
  simp [VecOp.ofWord_packVector]

theorem ctorOf_xexp2 (o : XfOp) : ctorOf .xf (encode (.xexp2 o)) = some (.xexp2 o) := by
  show ctorXf (packXf 1#6 o) = _
  unfold ctorXf
  rw [packXf_op]
  simp [XfOp.ofWord_packXf]

theorem ctorOf_xlog2 (o : XfOp) : ctorOf .xf (encode (.xlog2 o)) = some (.xlog2 o) := by
  show ctorXf (packXf 2#6 o) = _
  unfold ctorXf
  rw [packXf_op]
  simp [XfOp.ofWord_packXf]

theorem ctorOf_xrcp (o : XfOp) : ctorOf .xf (encode (.xrcp o)) = some (.xrcp o) := by
  show ctorXf (packXf 3#6 o) = _
  unfold ctorXf
  rw [packXf_op]
  simp [XfOp.ofWord_packXf]

theorem ctorOf_xrsq (o : XfOp) : ctorOf .xf (encode (.xrsq o)) = some (.xrsq o) := by
  show ctorXf (packXf 4#6 o) = _
  unfold ctorXf
  rw [packXf_op]
  simp [XfOp.ofWord_packXf]

theorem ctorOf_xsqrt (o : XfOp) : ctorOf .xf (encode (.xsqrt o)) = some (.xsqrt o) := by
  show ctorXf (packXf 5#6 o) = _
  unfold ctorXf
  rw [packXf_op]
  simp [XfOp.ofWord_packXf]

theorem ctorOf_xtanh (o : XfOp) : ctorOf .xf (encode (.xtanh o)) = some (.xtanh o) := by
  show ctorXf (packXf 6#6 o) = _
  unfold ctorXf
  rw [packXf_op]
  simp [XfOp.ofWord_packXf]

theorem ctorOf_xsig (o : XfOp) : ctorOf .xf (encode (.xsig o)) = some (.xsig o) := by
  show ctorXf (packXf 7#6 o) = _
  unfold ctorXf
  rw [packXf_op]
  simp [XfOp.ofWord_packXf]

theorem ctorOf_xsin (o : XfOp) : ctorOf .xf (encode (.xsin o)) = some (.xsin o) := by
  show ctorXf (packXf 8#6 o) = _
  unfold ctorXf
  rw [packXf_op]
  simp [XfOp.ofWord_packXf]

theorem ctorOf_xcos (o : XfOp) : ctorOf .xf (encode (.xcos o)) = some (.xcos o) := by
  show ctorXf (packXf 9#6 o) = _
  unfold ctorXf
  rw [packXf_op]
  simp [XfOp.ofWord_packXf]

theorem ctorOf_xfer (o : XfOp) : ctorOf .xf (encode (.xfer o)) = some (.xfer o) := by
  show ctorXf (packXf 10#6 o) = _
  unfold ctorXf
  rw [packXf_op]
  simp [XfOp.ofWord_packXf]

theorem ctorOf_xbcast (o : XfOp) : ctorOf .xf (encode (.xbcast o)) = some (.xbcast o) := by
  show ctorXf (packXf 11#6 o) = _
  unfold ctorXf
  rw [packXf_op]
  simp [XfOp.ofWord_packXf]

theorem ctorOf_xred (o : XfOp) : ctorOf .xf (encode (.xred o)) = some (.xred o) := by
  show ctorXf (packXf 12#6 o) = _
  unfold ctorXf
  rw [packXf_op]
  simp [XfOp.ofWord_packXf]

theorem ctorOf_xdraw (o : XfOp) : ctorOf .xf (encode (.xdraw o)) = some (.xdraw o) := by
  show ctorXf (packXf 13#6 o) = _
  unfold ctorXf
  rw [packXf_op]
  simp [XfOp.ofWord_packXf]

theorem ctorOf_trow (o : XtOp) : ctorOf .xt (encode (.trow o)) = some (.trow o) := by
  show ctorXt (packXt 1#4 o) = _
  unfold ctorXt
  rw [packXt_op]
  simp [XtOp.ofWord_packXt]

theorem ctorOf_tcol (o : XtOp) : ctorOf .xt (encode (.tcol o)) = some (.tcol o) := by
  show ctorXt (packXt 2#4 o) = _
  unfold ctorXt
  rw [packXt_op]
  simp [XtOp.ofWord_packXt]

theorem ctorOf_tclr (o : XtOp) : ctorOf .xt (encode (.tclr o)) = some (.tclr o) := by
  show ctorXt (packXt 3#4 o) = _
  unfold ctorXt
  rw [packXt_op]
  simp [XtOp.ofWord_packXt]

theorem ctorOf_tmode (o : XtOp) : ctorOf .xt (encode (.tmode o)) = some (.tmode o) := by
  show ctorXt (packXt 4#4 o) = _
  unfold ctorXt
  rw [packXt_op]
  simp [XtOp.ofWord_packXt]

theorem ctorOf_mpush (o : MpushOp) : ctorOf .mx (encode (.mpush o)) = some (.mpush o) := by
  have h0 : fld (encode (.mpush o)) 26 6 = 1#6 := by
    unfold fld encode
    exact (fieldUp (by decide)).trans ((fieldUp (by decide)).trans ((fieldUp (by decide)).trans ((fieldUp (by decide)).trans ((fieldUp (by decide)).trans BitVec.extractLsb'_eq_self))))
  have h1 : fld (encode (.mpush o)) 19 7 = o.row := by
    unfold fld encode
    exact (fieldUp (by decide)).trans ((fieldUp (by decide)).trans ((fieldUp (by decide)).trans ((fieldUp (by decide)).trans ((fieldDown (by decide)).trans BitVec.extractLsb'_eq_self))))
  have h2 : fld (encode (.mpush o)) 13 5 = o.a := by
    unfold fld encode
    exact (fieldUp (by decide)).trans ((fieldUp (by decide)).trans ((fieldDown (by decide)).trans BitVec.extractLsb'_eq_self))
  have h3 : fld (encode (.mpush o)) 10 3 = o.c := by
    unfold fld encode
    exact (fieldUp (by decide)).trans ((fieldDown (by decide)).trans BitVec.extractLsb'_eq_self)
  have h4 : fld (encode (.mpush o)) 18 1 = 0#1 := by
    unfold fld encode
    exact (fieldUp (by decide)).trans ((fieldUp (by decide)).trans ((fieldUp (by decide)).trans ((fieldDown (by decide)).trans BitVec.extractLsb'_eq_self)))
  show ctorMx (encode (.mpush o)) = _
  generalize encode (.mpush o) = w at *
  simp [ctorMx, MpushOp.ofWord, h0, h1, h2, h3, h4]

theorem ctorOf_mpushT (o : MpushTOp) : ctorOf .mx (encode (.mpushT o)) = some (.mpushT o) := by
  have h0 : fld (encode (.mpushT o)) 26 6 = 1#6 := by
    unfold fld encode
    exact (fieldUp (by decide)).trans ((fieldUp (by decide)).trans ((fieldUp (by decide)).trans ((fieldUp (by decide)).trans ((fieldUp (by decide)).trans ((fieldUp (by decide)).trans BitVec.extractLsb'_eq_self)))))
  have h1 : fld (encode (.mpushT o)) 19 7 = o.row := by
    unfold fld encode
    exact (fieldUp (by decide)).trans ((fieldUp (by decide)).trans ((fieldUp (by decide)).trans ((fieldUp (by decide)).trans ((fieldUp (by decide)).trans ((fieldDown (by decide)).trans BitVec.extractLsb'_eq_self)))))
  have h2 : fld (encode (.mpushT o)) 18 1 = 1#1 := by
    unfold fld encode
    exact (fieldUp (by decide)).trans ((fieldUp (by decide)).trans ((fieldUp (by decide)).trans ((fieldUp (by decide)).trans ((fieldDown (by decide)).trans BitVec.extractLsb'_eq_self))))
  have h3 : fld (encode (.mpushT o)) 14 4 = o.col := by
    unfold fld encode
    exact (fieldUp (by decide)).trans ((fieldUp (by decide)).trans ((fieldUp (by decide)).trans ((fieldDown (by decide)).trans BitVec.extractLsb'_eq_self)))
  have h4 : fld (encode (.mpushT o)) 10 3 = o.c := by
    unfold fld encode
    exact (fieldUp (by decide)).trans ((fieldDown (by decide)).trans BitVec.extractLsb'_eq_self)
  show ctorMx (encode (.mpushT o)) = _
  generalize encode (.mpushT o) = w at *
  simp [ctorMx, MpushTOp.ofWord, h0, h1, h2, h3, h4]

theorem ctorOf_mmac (o : MmacOp) : ctorOf .mx (encode (.mmac o)) = some (.mmac o) := by
  have h0 : fld (encode (.mmac o)) 26 6 = 2#6 := by
    unfold fld encode
    exact (fieldUp (by decide)).trans ((fieldUp (by decide)).trans ((fieldUp (by decide)).trans ((fieldUp (by decide)).trans ((fieldUp (by decide)).trans BitVec.extractLsb'_eq_self))))
  have h1 : fld (encode (.mmac o)) 18 8 = o.tile := by
    unfold fld encode
    exact (fieldUp (by decide)).trans ((fieldUp (by decide)).trans ((fieldUp (by decide)).trans ((fieldUp (by decide)).trans ((fieldDown (by decide)).trans BitVec.extractLsb'_eq_self))))
  have h2 : fld (encode (.mmac o)) 11 7 = o.mm1 := by
    unfold fld encode
    exact (fieldUp (by decide)).trans ((fieldUp (by decide)).trans ((fieldUp (by decide)).trans ((fieldDown (by decide)).trans BitVec.extractLsb'_eq_self)))
  have h3 : fld (encode (.mmac o)) 4 6 = o.fmt := by
    unfold fld encode
    exact (fieldUp (by decide)).trans ((fieldDown (by decide)).trans BitVec.extractLsb'_eq_self)
  have h4 : fld (encode (.mmac o)) 0 4 = o.cs := by
    unfold fld encode
    exact (fieldDown (by decide)).trans BitVec.extractLsb'_eq_self
  have h5 : fld (encode (.mmac o)) 10 1 = 0#1 := by
    unfold fld encode
    exact (fieldUp (by decide)).trans ((fieldUp (by decide)).trans ((fieldDown (by decide)).trans BitVec.extractLsb'_eq_self))
  show ctorMx (encode (.mmac o)) = _
  generalize encode (.mmac o) = w at *
  simp [ctorMx, MmacOp.ofWord, h0, h1, h2, h3, h4, h5]

theorem ctorOf_mmacF (o : MmacOp) : ctorOf .mx (encode (.mmacF o)) = some (.mmacF o) := by
  have h0 : fld (encode (.mmacF o)) 26 6 = 2#6 := by
    unfold fld encode
    exact (fieldUp (by decide)).trans ((fieldUp (by decide)).trans ((fieldUp (by decide)).trans ((fieldUp (by decide)).trans ((fieldUp (by decide)).trans BitVec.extractLsb'_eq_self))))
  have h1 : fld (encode (.mmacF o)) 18 8 = o.tile := by
    unfold fld encode
    exact (fieldUp (by decide)).trans ((fieldUp (by decide)).trans ((fieldUp (by decide)).trans ((fieldUp (by decide)).trans ((fieldDown (by decide)).trans BitVec.extractLsb'_eq_self))))
  have h2 : fld (encode (.mmacF o)) 11 7 = o.mm1 := by
    unfold fld encode
    exact (fieldUp (by decide)).trans ((fieldUp (by decide)).trans ((fieldUp (by decide)).trans ((fieldDown (by decide)).trans BitVec.extractLsb'_eq_self)))
  have h3 : fld (encode (.mmacF o)) 10 1 = 1#1 := by
    unfold fld encode
    exact (fieldUp (by decide)).trans ((fieldUp (by decide)).trans ((fieldDown (by decide)).trans BitVec.extractLsb'_eq_self))
  have h4 : fld (encode (.mmacF o)) 4 6 = o.fmt := by
    unfold fld encode
    exact (fieldUp (by decide)).trans ((fieldDown (by decide)).trans BitVec.extractLsb'_eq_self)
  have h5 : fld (encode (.mmacF o)) 0 4 = o.cs := by
    unfold fld encode
    exact (fieldDown (by decide)).trans BitVec.extractLsb'_eq_self
  show ctorMx (encode (.mmacF o)) = _
  generalize encode (.mmacF o) = w at *
  simp [ctorMx, MmacOp.ofWord, h0, h1, h2, h3, h4, h5]

theorem ctorOf_mprom (chk : BitVec 1) : ctorOf .mx (encode (.mprom chk)) = some (.mprom chk) := by
  have h0 : fld (encode (.mprom chk)) 26 6 = 3#6 := by
    unfold fld encode
    exact (fieldUp (by decide)).trans ((fieldUp (by decide)).trans BitVec.extractLsb'_eq_self)
  have h1 : fld (encode (.mprom chk)) 25 1 = chk := by
    unfold fld encode
    exact (fieldUp (by decide)).trans ((fieldDown (by decide)).trans BitVec.extractLsb'_eq_self)
  show ctorMx (encode (.mprom chk)) = _
  generalize encode (.mprom chk) = w at *
  simp [ctorMx, h0, h1]

theorem ctorOf_mclr (o : MclrOp) : ctorOf .mx (encode (.mclr o)) = some (.mclr o) := by
  have h0 : fld (encode (.mclr o)) 26 6 = 4#6 := by
    unfold fld encode
    exact (fieldUp (by decide)).trans ((fieldUp (by decide)).trans ((fieldUp (by decide)).trans BitVec.extractLsb'_eq_self))
  have h1 : fld (encode (.mclr o)) 18 8 = o.tile := by
    unfold fld encode
    exact (fieldUp (by decide)).trans ((fieldUp (by decide)).trans ((fieldDown (by decide)).trans BitVec.extractLsb'_eq_self))
  have h2 : fld (encode (.mclr o)) 15 3 = o.nm1 := by
    unfold fld encode
    exact (fieldUp (by decide)).trans ((fieldDown (by decide)).trans BitVec.extractLsb'_eq_self)
  show ctorMx (encode (.mclr o)) = _
  generalize encode (.mclr o) = w at *
  simp [ctorMx, MclrOp.ofWord, h0, h1, h2]

theorem ctorOf_mrd (o : MrowOp) : ctorOf .mx (encode (.mrd o)) = some (.mrd o) := by
  have h0 : fld (encode (.mrd o)) 26 6 = 5#6 := by
    unfold fld encode
    exact (fieldUp (by decide)).trans ((fieldUp (by decide)).trans ((fieldUp (by decide)).trans ((fieldUp (by decide)).trans ((fieldUp (by decide)).trans ((fieldUp (by decide)).trans BitVec.extractLsb'_eq_self)))))
  have h1 : fld (encode (.mrd o)) 21 5 = o.v := by
    unfold fld encode
    exact (fieldUp (by decide)).trans ((fieldUp (by decide)).trans ((fieldUp (by decide)).trans ((fieldUp (by decide)).trans ((fieldUp (by decide)).trans ((fieldDown (by decide)).trans BitVec.extractLsb'_eq_self)))))
  have h2 : fld (encode (.mrd o)) 13 8 = o.tile := by
    unfold fld encode
    exact (fieldUp (by decide)).trans ((fieldUp (by decide)).trans ((fieldUp (by decide)).trans ((fieldUp (by decide)).trans ((fieldDown (by decide)).trans BitVec.extractLsb'_eq_self))))
  have h3 : fld (encode (.mrd o)) 6 7 = o.row := by
    unfold fld encode
    exact (fieldUp (by decide)).trans ((fieldUp (by decide)).trans ((fieldUp (by decide)).trans ((fieldDown (by decide)).trans BitVec.extractLsb'_eq_self)))
  have h4 : fld (encode (.mrd o)) 3 3 = o.c := by
    unfold fld encode
    exact (fieldUp (by decide)).trans ((fieldUp (by decide)).trans ((fieldDown (by decide)).trans BitVec.extractLsb'_eq_self))
  have h5 : fld (encode (.mrd o)) 2 1 = o.i := by
    unfold fld encode
    exact (fieldUp (by decide)).trans ((fieldDown (by decide)).trans BitVec.extractLsb'_eq_self)
  show ctorMx (encode (.mrd o)) = _
  generalize encode (.mrd o) = w at *
  simp [ctorMx, MrowOp.ofWord, h0, h1, h2, h3, h4, h5]

theorem ctorOf_mwr (o : MrowOp) : ctorOf .mx (encode (.mwr o)) = some (.mwr o) := by
  have h0 : fld (encode (.mwr o)) 26 6 = 6#6 := by
    unfold fld encode
    exact (fieldUp (by decide)).trans ((fieldUp (by decide)).trans ((fieldUp (by decide)).trans ((fieldUp (by decide)).trans ((fieldUp (by decide)).trans ((fieldUp (by decide)).trans BitVec.extractLsb'_eq_self)))))
  have h1 : fld (encode (.mwr o)) 21 5 = o.v := by
    unfold fld encode
    exact (fieldUp (by decide)).trans ((fieldUp (by decide)).trans ((fieldUp (by decide)).trans ((fieldUp (by decide)).trans ((fieldUp (by decide)).trans ((fieldDown (by decide)).trans BitVec.extractLsb'_eq_self)))))
  have h2 : fld (encode (.mwr o)) 13 8 = o.tile := by
    unfold fld encode
    exact (fieldUp (by decide)).trans ((fieldUp (by decide)).trans ((fieldUp (by decide)).trans ((fieldUp (by decide)).trans ((fieldDown (by decide)).trans BitVec.extractLsb'_eq_self))))
  have h3 : fld (encode (.mwr o)) 6 7 = o.row := by
    unfold fld encode
    exact (fieldUp (by decide)).trans ((fieldUp (by decide)).trans ((fieldUp (by decide)).trans ((fieldDown (by decide)).trans BitVec.extractLsb'_eq_self)))
  have h4 : fld (encode (.mwr o)) 3 3 = o.c := by
    unfold fld encode
    exact (fieldUp (by decide)).trans ((fieldUp (by decide)).trans ((fieldDown (by decide)).trans BitVec.extractLsb'_eq_self))
  have h5 : fld (encode (.mwr o)) 2 1 = o.i := by
    unfold fld encode
    exact (fieldUp (by decide)).trans ((fieldDown (by decide)).trans BitVec.extractLsb'_eq_self)
  show ctorMx (encode (.mwr o)) = _
  generalize encode (.mwr o) = w at *
  simp [ctorMx, MrowOp.ofWord, h0, h1, h2, h3, h4, h5]

theorem ctorOf_mfmt (entry : BitVec 6) (s : BitVec 5) : ctorOf .mx (encode (.mfmt entry s)) = some (.mfmt entry s) := by
  have h0 : fld (encode (.mfmt entry s)) 26 6 = 7#6 := by
    unfold fld encode
    exact (fieldUp (by decide)).trans ((fieldUp (by decide)).trans ((fieldUp (by decide)).trans BitVec.extractLsb'_eq_self))
  have h1 : fld (encode (.mfmt entry s)) 20 6 = entry := by
    unfold fld encode
    exact (fieldUp (by decide)).trans ((fieldUp (by decide)).trans ((fieldDown (by decide)).trans BitVec.extractLsb'_eq_self))
  have h2 : fld (encode (.mfmt entry s)) 15 5 = s := by
    unfold fld encode
    exact (fieldUp (by decide)).trans ((fieldDown (by decide)).trans BitVec.extractLsb'_eq_self)
  show ctorMx (encode (.mfmt entry s)) = _
  generalize encode (.mfmt entry s) = w at *
  simp [ctorMx, h0, h1, h2]

theorem ctorOf_mfsel (level : BitVec 3) (base : BitVec 6) : ctorOf .mx (encode (.mfsel level base)) = some (.mfsel level base) := by
  have h0 : fld (encode (.mfsel level base)) 26 6 = 8#6 := by
    unfold fld encode
    exact (fieldUp (by decide)).trans ((fieldUp (by decide)).trans ((fieldUp (by decide)).trans BitVec.extractLsb'_eq_self))
  have h1 : fld (encode (.mfsel level base)) 23 3 = level := by
    unfold fld encode
    exact (fieldUp (by decide)).trans ((fieldUp (by decide)).trans ((fieldDown (by decide)).trans BitVec.extractLsb'_eq_self))
  have h2 : fld (encode (.mfsel level base)) 17 6 = base := by
    unfold fld encode
    exact (fieldUp (by decide)).trans ((fieldDown (by decide)).trans BitVec.extractLsb'_eq_self)
  show ctorMx (encode (.mfsel level base)) = _
  generalize encode (.mfsel level base) = w at *
  simp [ctorMx, h0, h1, h2]

theorem ctorOf_mscq (cnt : BitVec 6) : ctorOf .mx (encode (.mscq cnt)) = some (.mscq cnt) := by
  have h0 : fld (encode (.mscq cnt)) 26 6 = 9#6 := by
    unfold fld encode
    exact (fieldUp (by decide)).trans ((fieldUp (by decide)).trans BitVec.extractLsb'_eq_self)
  have h1 : fld (encode (.mscq cnt)) 20 6 = cnt := by
    unfold fld encode
    exact (fieldUp (by decide)).trans ((fieldDown (by decide)).trans BitVec.extractLsb'_eq_self)
  show ctorMx (encode (.mscq cnt)) = _
  generalize encode (.mscq cnt) = w at *
  simp [ctorMx, h0, h1]

theorem ctorOf_ld (o : LdOp) : ctorOf .ld (encode (.ld o)) = some (.ld o) := by
  have h0 : fld (encode (.ld o)) 26 6 = 1#6 := by
    unfold fld encode
    exact (fieldUp (by decide)).trans ((fieldUp (by decide)).trans ((fieldUp (by decide)).trans ((fieldUp (by decide)).trans ((fieldUp (by decide)).trans ((fieldUp (by decide)).trans ((fieldUp (by decide)).trans ((fieldUp (by decide)).trans BitVec.extractLsb'_eq_self)))))))
  have h1 : fld (encode (.ld o)) 21 5 = o.d := by
    unfold fld encode
    exact (fieldUp (by decide)).trans ((fieldUp (by decide)).trans ((fieldUp (by decide)).trans ((fieldUp (by decide)).trans ((fieldUp (by decide)).trans ((fieldUp (by decide)).trans ((fieldUp (by decide)).trans ((fieldDown (by decide)).trans BitVec.extractLsb'_eq_self)))))))
  have h2 : fld (encode (.ld o)) 16 5 = o.a := by
    unfold fld encode
    exact (fieldUp (by decide)).trans ((fieldUp (by decide)).trans ((fieldUp (by decide)).trans ((fieldUp (by decide)).trans ((fieldUp (by decide)).trans ((fieldUp (by decide)).trans ((fieldDown (by decide)).trans BitVec.extractLsb'_eq_self))))))
  have h3 : fld (encode (.ld o)) 12 4 = o.lane := by
    unfold fld encode
    exact (fieldUp (by decide)).trans ((fieldUp (by decide)).trans ((fieldUp (by decide)).trans ((fieldUp (by decide)).trans ((fieldUp (by decide)).trans ((fieldDown (by decide)).trans BitVec.extractLsb'_eq_self)))))
  have h4 : fld (encode (.ld o)) 6 6 = o.tap := by
    unfold fld encode
    exact (fieldUp (by decide)).trans ((fieldUp (by decide)).trans ((fieldUp (by decide)).trans ((fieldUp (by decide)).trans ((fieldDown (by decide)).trans BitVec.extractLsb'_eq_self))))
  have h5 : fld (encode (.ld o)) 4 2 = o.size := by
    unfold fld encode
    exact (fieldUp (by decide)).trans ((fieldUp (by decide)).trans ((fieldUp (by decide)).trans ((fieldDown (by decide)).trans BitVec.extractLsb'_eq_self)))
  have h6 : fld (encode (.ld o)) 3 1 = o.sx := by
    unfold fld encode
    exact (fieldUp (by decide)).trans ((fieldUp (by decide)).trans ((fieldDown (by decide)).trans BitVec.extractLsb'_eq_self))
  have h7 : fld (encode (.ld o)) 2 1 = o.il := by
    unfold fld encode
    exact (fieldUp (by decide)).trans ((fieldDown (by decide)).trans BitVec.extractLsb'_eq_self)
  show ctorLd (encode (.ld o)) = _
  generalize encode (.ld o) = w at *
  simp [ctorLd, LdOp.ofWord, h0, h1, h2, h3, h4, h5, h6, h7]

theorem ctorOf_ldg (o : LdgOp) : ctorOf .ld (encode (.ldg o)) = some (.ldg o) := by
  have h0 : fld (encode (.ldg o)) 26 6 = 2#6 := by
    unfold fld encode
    exact (fieldUp (by decide)).trans ((fieldUp (by decide)).trans ((fieldUp (by decide)).trans ((fieldUp (by decide)).trans ((fieldUp (by decide)).trans ((fieldUp (by decide)).trans BitVec.extractLsb'_eq_self)))))
  have h1 : fld (encode (.ldg o)) 21 5 = o.d := by
    unfold fld encode
    exact (fieldUp (by decide)).trans ((fieldUp (by decide)).trans ((fieldUp (by decide)).trans ((fieldUp (by decide)).trans ((fieldUp (by decide)).trans ((fieldDown (by decide)).trans BitVec.extractLsb'_eq_self)))))
  have h2 : fld (encode (.ldg o)) 16 5 = o.a := by
    unfold fld encode
    exact (fieldUp (by decide)).trans ((fieldUp (by decide)).trans ((fieldUp (by decide)).trans ((fieldUp (by decide)).trans ((fieldDown (by decide)).trans BitVec.extractLsb'_eq_self))))
  have h3 : fld (encode (.ldg o)) 4 2 = o.size := by
    unfold fld encode
    exact (fieldUp (by decide)).trans ((fieldUp (by decide)).trans ((fieldDown (by decide)).trans BitVec.extractLsb'_eq_self))
  have h4 : fld (encode (.ldg o)) 3 1 = o.sx := by
    unfold fld encode
    exact (fieldUp (by decide)).trans ((fieldDown (by decide)).trans BitVec.extractLsb'_eq_self)
  show ctorLd (encode (.ldg o)) = _
  generalize encode (.ldg o) = w at *
  simp [ctorLd, LdgOp.ofWord, h0, h1, h2, h3, h4]

theorem ctorOf_vld (o : VldOp) : ctorOf .ld (encode (.vld o)) = some (.vld o) := by
  have h0 : fld (encode (.vld o)) 26 6 = 3#6 := by
    unfold fld encode
    exact (fieldUp (by decide)).trans ((fieldUp (by decide)).trans ((fieldUp (by decide)).trans ((fieldUp (by decide)).trans ((fieldUp (by decide)).trans ((fieldUp (by decide)).trans ((fieldUp (by decide)).trans ((fieldUp (by decide)).trans BitVec.extractLsb'_eq_self)))))))
  have h1 : fld (encode (.vld o)) 21 5 = o.d := by
    unfold fld encode
    exact (fieldUp (by decide)).trans ((fieldUp (by decide)).trans ((fieldUp (by decide)).trans ((fieldUp (by decide)).trans ((fieldUp (by decide)).trans ((fieldUp (by decide)).trans ((fieldUp (by decide)).trans ((fieldDown (by decide)).trans BitVec.extractLsb'_eq_self)))))))
  have h2 : fld (encode (.vld o)) 16 5 = o.a := by
    unfold fld encode
    exact (fieldUp (by decide)).trans ((fieldUp (by decide)).trans ((fieldUp (by decide)).trans ((fieldUp (by decide)).trans ((fieldUp (by decide)).trans ((fieldUp (by decide)).trans ((fieldDown (by decide)).trans BitVec.extractLsb'_eq_self))))))
  have h3 : fld (encode (.vld o)) 12 4 = o.lane := by
    unfold fld encode
    exact (fieldUp (by decide)).trans ((fieldUp (by decide)).trans ((fieldUp (by decide)).trans ((fieldUp (by decide)).trans ((fieldUp (by decide)).trans ((fieldDown (by decide)).trans BitVec.extractLsb'_eq_self)))))
  have h4 : fld (encode (.vld o)) 6 6 = o.tap := by
    unfold fld encode
    exact (fieldUp (by decide)).trans ((fieldUp (by decide)).trans ((fieldUp (by decide)).trans ((fieldUp (by decide)).trans ((fieldDown (by decide)).trans BitVec.extractLsb'_eq_self))))
  have h5 : fld (encode (.vld o)) 3 3 = o.c := by
    unfold fld encode
    exact (fieldUp (by decide)).trans ((fieldUp (by decide)).trans ((fieldUp (by decide)).trans ((fieldDown (by decide)).trans BitVec.extractLsb'_eq_self)))
  have h6 : fld (encode (.vld o)) 2 1 = o.il := by
    unfold fld encode
    exact (fieldUp (by decide)).trans ((fieldUp (by decide)).trans ((fieldDown (by decide)).trans BitVec.extractLsb'_eq_self))
  have h7 : fld (encode (.vld o)) 1 1 = o.h := by
    unfold fld encode
    exact (fieldUp (by decide)).trans ((fieldDown (by decide)).trans BitVec.extractLsb'_eq_self)
  show ctorLd (encode (.vld o)) = _
  generalize encode (.vld o) = w at *
  simp [ctorLd, VldOp.ofWord, h0, h1, h2, h3, h4, h5, h6, h7]

theorem ctorOf_vlds (o : VmaskOp) : ctorOf .ld (encode (.vlds o)) = some (.vlds o) := by
  have h0 : fld (encode (.vlds o)) 26 6 = 4#6 := by
    unfold fld encode
    exact (fieldUp (by decide)).trans ((fieldUp (by decide)).trans ((fieldUp (by decide)).trans ((fieldUp (by decide)).trans ((fieldUp (by decide)).trans ((fieldUp (by decide)).trans BitVec.extractLsb'_eq_self)))))
  have h1 : fld (encode (.vlds o)) 21 5 = o.v := by
    unfold fld encode
    exact (fieldUp (by decide)).trans ((fieldUp (by decide)).trans ((fieldUp (by decide)).trans ((fieldUp (by decide)).trans ((fieldUp (by decide)).trans ((fieldDown (by decide)).trans BitVec.extractLsb'_eq_self)))))
  have h2 : fld (encode (.vlds o)) 16 5 = o.a := by
    unfold fld encode
    exact (fieldUp (by decide)).trans ((fieldUp (by decide)).trans ((fieldUp (by decide)).trans ((fieldUp (by decide)).trans ((fieldDown (by decide)).trans BitVec.extractLsb'_eq_self))))
  have h3 : fld (encode (.vlds o)) 12 4 = o.lane := by
    unfold fld encode
    exact (fieldUp (by decide)).trans ((fieldUp (by decide)).trans ((fieldUp (by decide)).trans ((fieldDown (by decide)).trans BitVec.extractLsb'_eq_self)))
  have h4 : fld (encode (.vlds o)) 6 6 = o.tap := by
    unfold fld encode
    exact (fieldUp (by decide)).trans ((fieldUp (by decide)).trans ((fieldDown (by decide)).trans BitVec.extractLsb'_eq_self))
  have h5 : fld (encode (.vlds o)) 3 3 = o.c := by
    unfold fld encode
    exact (fieldUp (by decide)).trans ((fieldDown (by decide)).trans BitVec.extractLsb'_eq_self)
  have h6 : fld (encode (.vlds o)) 0 3 = o.q := by
    unfold fld encode
    exact (fieldDown (by decide)).trans BitVec.extractLsb'_eq_self
  show ctorLd (encode (.vlds o)) = _
  generalize encode (.vlds o) = w at *
  simp [ctorLd, VmaskOp.ofWord, h0, h1, h2, h3, h4, h5, h6]

theorem ctorOf_vgat (o : VwinOp) : ctorOf .ld (encode (.vgat o)) = some (.vgat o) := by
  have h0 : fld (encode (.vgat o)) 26 6 = 5#6 := by
    unfold fld encode
    exact (fieldUp (by decide)).trans ((fieldUp (by decide)).trans ((fieldUp (by decide)).trans ((fieldUp (by decide)).trans ((fieldUp (by decide)).trans ((fieldUp (by decide)).trans BitVec.extractLsb'_eq_self)))))
  have h1 : fld (encode (.vgat o)) 21 5 = o.v := by
    unfold fld encode
    exact (fieldUp (by decide)).trans ((fieldUp (by decide)).trans ((fieldUp (by decide)).trans ((fieldUp (by decide)).trans ((fieldUp (by decide)).trans ((fieldDown (by decide)).trans BitVec.extractLsb'_eq_self)))))
  have h2 : fld (encode (.vgat o)) 16 5 = o.a := by
    unfold fld encode
    exact (fieldUp (by decide)).trans ((fieldUp (by decide)).trans ((fieldUp (by decide)).trans ((fieldUp (by decide)).trans ((fieldDown (by decide)).trans BitVec.extractLsb'_eq_self))))
  have h3 : fld (encode (.vgat o)) 12 4 = o.lane := by
    unfold fld encode
    exact (fieldUp (by decide)).trans ((fieldUp (by decide)).trans ((fieldUp (by decide)).trans ((fieldDown (by decide)).trans BitVec.extractLsb'_eq_self)))
  have h4 : fld (encode (.vgat o)) 6 6 = o.tap := by
    unfold fld encode
    exact (fieldUp (by decide)).trans ((fieldUp (by decide)).trans ((fieldDown (by decide)).trans BitVec.extractLsb'_eq_self))
  have h5 : fld (encode (.vgat o)) 3 3 = o.c := by
    unfold fld encode
    exact (fieldUp (by decide)).trans ((fieldDown (by decide)).trans BitVec.extractLsb'_eq_self)
  show ctorLd (encode (.vgat o)) = _
  generalize encode (.vgat o) = w at *
  simp [ctorLd, VwinOp.ofWord, h0, h1, h2, h3, h4, h5]

theorem ctorOf_ldsc (o : LdscOp) : ctorOf .ld (encode (.ldsc o)) = some (.ldsc o) := by
  have h0 : fld (encode (.ldsc o)) 26 6 = 6#6 := by
    unfold fld encode
    exact (fieldUp (by decide)).trans ((fieldUp (by decide)).trans ((fieldUp (by decide)).trans ((fieldUp (by decide)).trans ((fieldUp (by decide)).trans BitVec.extractLsb'_eq_self))))
  have h1 : fld (encode (.ldsc o)) 16 5 = o.a := by
    unfold fld encode
    exact (fieldUp (by decide)).trans ((fieldUp (by decide)).trans ((fieldUp (by decide)).trans ((fieldDown (by decide)).trans BitVec.extractLsb'_eq_self)))
  have h2 : fld (encode (.ldsc o)) 12 4 = o.lane := by
    unfold fld encode
    exact (fieldUp (by decide)).trans ((fieldUp (by decide)).trans ((fieldDown (by decide)).trans BitVec.extractLsb'_eq_self))
  have h3 : fld (encode (.ldsc o)) 6 6 = o.tap := by
    unfold fld encode
    exact (fieldUp (by decide)).trans ((fieldDown (by decide)).trans BitVec.extractLsb'_eq_self)
  show ctorLd (encode (.ldsc o)) = _
  generalize encode (.ldsc o) = w at *
  simp [ctorLd, LdscOp.ofWord, h0, h1, h2, h3]

theorem ctorOf_st (o : StOp) : ctorOf .st (encode (.st o)) = some (.st o) := by
  have h0 : fld (encode (.st o)) 26 6 = 1#6 := by
    unfold fld encode
    exact (fieldUp (by decide)).trans ((fieldUp (by decide)).trans ((fieldUp (by decide)).trans ((fieldUp (by decide)).trans ((fieldUp (by decide)).trans ((fieldUp (by decide)).trans ((fieldUp (by decide)).trans ((fieldUp (by decide)).trans BitVec.extractLsb'_eq_self)))))))
  have h1 : fld (encode (.st o)) 21 5 = o.s := by
    unfold fld encode
    exact (fieldUp (by decide)).trans ((fieldUp (by decide)).trans ((fieldUp (by decide)).trans ((fieldUp (by decide)).trans ((fieldUp (by decide)).trans ((fieldUp (by decide)).trans ((fieldUp (by decide)).trans ((fieldDown (by decide)).trans BitVec.extractLsb'_eq_self)))))))
  have h2 : fld (encode (.st o)) 16 5 = o.a := by
    unfold fld encode
    exact (fieldUp (by decide)).trans ((fieldUp (by decide)).trans ((fieldUp (by decide)).trans ((fieldUp (by decide)).trans ((fieldUp (by decide)).trans ((fieldUp (by decide)).trans ((fieldDown (by decide)).trans BitVec.extractLsb'_eq_self))))))
  have h3 : fld (encode (.st o)) 12 4 = o.lane := by
    unfold fld encode
    exact (fieldUp (by decide)).trans ((fieldUp (by decide)).trans ((fieldUp (by decide)).trans ((fieldUp (by decide)).trans ((fieldUp (by decide)).trans ((fieldDown (by decide)).trans BitVec.extractLsb'_eq_self)))))
  have h4 : fld (encode (.st o)) 6 6 = o.tap := by
    unfold fld encode
    exact (fieldUp (by decide)).trans ((fieldUp (by decide)).trans ((fieldUp (by decide)).trans ((fieldUp (by decide)).trans ((fieldDown (by decide)).trans BitVec.extractLsb'_eq_self))))
  have h5 : fld (encode (.st o)) 4 2 = o.size := by
    unfold fld encode
    exact (fieldUp (by decide)).trans ((fieldUp (by decide)).trans ((fieldUp (by decide)).trans ((fieldDown (by decide)).trans BitVec.extractLsb'_eq_self)))
  have h6 : fld (encode (.st o)) 3 1 = o.g := by
    unfold fld encode
    exact (fieldUp (by decide)).trans ((fieldUp (by decide)).trans ((fieldDown (by decide)).trans BitVec.extractLsb'_eq_self))
  have h7 : fld (encode (.st o)) 2 1 = o.il := by
    unfold fld encode
    exact (fieldUp (by decide)).trans ((fieldDown (by decide)).trans BitVec.extractLsb'_eq_self)
  show ctorSt (encode (.st o)) = _
  generalize encode (.st o) = w at *
  simp [ctorSt, StOp.ofWord, h0, h1, h2, h3, h4, h5, h6, h7]

theorem ctorOf_stg (o : StgOp) : ctorOf .st (encode (.stg o)) = some (.stg o) := by
  have h0 : fld (encode (.stg o)) 26 6 = 2#6 := by
    unfold fld encode
    exact (fieldUp (by decide)).trans ((fieldUp (by decide)).trans ((fieldUp (by decide)).trans ((fieldUp (by decide)).trans ((fieldUp (by decide)).trans ((fieldUp (by decide)).trans BitVec.extractLsb'_eq_self)))))
  have h1 : fld (encode (.stg o)) 21 5 = o.s := by
    unfold fld encode
    exact (fieldUp (by decide)).trans ((fieldUp (by decide)).trans ((fieldUp (by decide)).trans ((fieldUp (by decide)).trans ((fieldUp (by decide)).trans ((fieldDown (by decide)).trans BitVec.extractLsb'_eq_self)))))
  have h2 : fld (encode (.stg o)) 16 5 = o.a := by
    unfold fld encode
    exact (fieldUp (by decide)).trans ((fieldUp (by decide)).trans ((fieldUp (by decide)).trans ((fieldUp (by decide)).trans ((fieldDown (by decide)).trans BitVec.extractLsb'_eq_self))))
  have h3 : fld (encode (.stg o)) 4 2 = o.size := by
    unfold fld encode
    exact (fieldUp (by decide)).trans ((fieldUp (by decide)).trans ((fieldDown (by decide)).trans BitVec.extractLsb'_eq_self))
  have h4 : fld (encode (.stg o)) 3 1 = o.g := by
    unfold fld encode
    exact (fieldUp (by decide)).trans ((fieldDown (by decide)).trans BitVec.extractLsb'_eq_self)
  show ctorSt (encode (.stg o)) = _
  generalize encode (.stg o) = w at *
  simp [ctorSt, StgOp.ofWord, h0, h1, h2, h3, h4]

theorem ctorOf_vst (o : VstOp) : ctorOf .st (encode (.vst o)) = some (.vst o) := by
  have h0 : fld (encode (.vst o)) 26 6 = 3#6 := by
    unfold fld encode
    exact (fieldUp (by decide)).trans ((fieldUp (by decide)).trans ((fieldUp (by decide)).trans ((fieldUp (by decide)).trans ((fieldUp (by decide)).trans ((fieldUp (by decide)).trans ((fieldUp (by decide)).trans ((fieldUp (by decide)).trans BitVec.extractLsb'_eq_self)))))))
  have h1 : fld (encode (.vst o)) 21 5 = o.s := by
    unfold fld encode
    exact (fieldUp (by decide)).trans ((fieldUp (by decide)).trans ((fieldUp (by decide)).trans ((fieldUp (by decide)).trans ((fieldUp (by decide)).trans ((fieldUp (by decide)).trans ((fieldUp (by decide)).trans ((fieldDown (by decide)).trans BitVec.extractLsb'_eq_self)))))))
  have h2 : fld (encode (.vst o)) 16 5 = o.a := by
    unfold fld encode
    exact (fieldUp (by decide)).trans ((fieldUp (by decide)).trans ((fieldUp (by decide)).trans ((fieldUp (by decide)).trans ((fieldUp (by decide)).trans ((fieldUp (by decide)).trans ((fieldDown (by decide)).trans BitVec.extractLsb'_eq_self))))))
  have h3 : fld (encode (.vst o)) 12 4 = o.lane := by
    unfold fld encode
    exact (fieldUp (by decide)).trans ((fieldUp (by decide)).trans ((fieldUp (by decide)).trans ((fieldUp (by decide)).trans ((fieldUp (by decide)).trans ((fieldDown (by decide)).trans BitVec.extractLsb'_eq_self)))))
  have h4 : fld (encode (.vst o)) 6 6 = o.tap := by
    unfold fld encode
    exact (fieldUp (by decide)).trans ((fieldUp (by decide)).trans ((fieldUp (by decide)).trans ((fieldUp (by decide)).trans ((fieldDown (by decide)).trans BitVec.extractLsb'_eq_self))))
  have h5 : fld (encode (.vst o)) 3 3 = o.c := by
    unfold fld encode
    exact (fieldUp (by decide)).trans ((fieldUp (by decide)).trans ((fieldUp (by decide)).trans ((fieldDown (by decide)).trans BitVec.extractLsb'_eq_self)))
  have h6 : fld (encode (.vst o)) 2 1 = o.il := by
    unfold fld encode
    exact (fieldUp (by decide)).trans ((fieldUp (by decide)).trans ((fieldDown (by decide)).trans BitVec.extractLsb'_eq_self))
  have h7 : fld (encode (.vst o)) 1 1 = o.g := by
    unfold fld encode
    exact (fieldUp (by decide)).trans ((fieldDown (by decide)).trans BitVec.extractLsb'_eq_self)
  show ctorSt (encode (.vst o)) = _
  generalize encode (.vst o) = w at *
  simp [ctorSt, VstOp.ofWord, h0, h1, h2, h3, h4, h5, h6, h7]

theorem ctorOf_vsts (o : VmaskOp) : ctorOf .st (encode (.vsts o)) = some (.vsts o) := by
  have h0 : fld (encode (.vsts o)) 26 6 = 4#6 := by
    unfold fld encode
    exact (fieldUp (by decide)).trans ((fieldUp (by decide)).trans ((fieldUp (by decide)).trans ((fieldUp (by decide)).trans ((fieldUp (by decide)).trans ((fieldUp (by decide)).trans BitVec.extractLsb'_eq_self)))))
  have h1 : fld (encode (.vsts o)) 21 5 = o.v := by
    unfold fld encode
    exact (fieldUp (by decide)).trans ((fieldUp (by decide)).trans ((fieldUp (by decide)).trans ((fieldUp (by decide)).trans ((fieldUp (by decide)).trans ((fieldDown (by decide)).trans BitVec.extractLsb'_eq_self)))))
  have h2 : fld (encode (.vsts o)) 16 5 = o.a := by
    unfold fld encode
    exact (fieldUp (by decide)).trans ((fieldUp (by decide)).trans ((fieldUp (by decide)).trans ((fieldUp (by decide)).trans ((fieldDown (by decide)).trans BitVec.extractLsb'_eq_self))))
  have h3 : fld (encode (.vsts o)) 12 4 = o.lane := by
    unfold fld encode
    exact (fieldUp (by decide)).trans ((fieldUp (by decide)).trans ((fieldUp (by decide)).trans ((fieldDown (by decide)).trans BitVec.extractLsb'_eq_self)))
  have h4 : fld (encode (.vsts o)) 6 6 = o.tap := by
    unfold fld encode
    exact (fieldUp (by decide)).trans ((fieldUp (by decide)).trans ((fieldDown (by decide)).trans BitVec.extractLsb'_eq_self))
  have h5 : fld (encode (.vsts o)) 3 3 = o.c := by
    unfold fld encode
    exact (fieldUp (by decide)).trans ((fieldDown (by decide)).trans BitVec.extractLsb'_eq_self)
  have h6 : fld (encode (.vsts o)) 0 3 = o.q := by
    unfold fld encode
    exact (fieldDown (by decide)).trans BitVec.extractLsb'_eq_self
  show ctorSt (encode (.vsts o)) = _
  generalize encode (.vsts o) = w at *
  simp [ctorSt, VmaskOp.ofWord, h0, h1, h2, h3, h4, h5, h6]

theorem ctorOf_vsct (o : VwinOp) : ctorOf .st (encode (.vsct o)) = some (.vsct o) := by
  have h0 : fld (encode (.vsct o)) 26 6 = 5#6 := by
    unfold fld encode
    exact (fieldUp (by decide)).trans ((fieldUp (by decide)).trans ((fieldUp (by decide)).trans ((fieldUp (by decide)).trans ((fieldUp (by decide)).trans ((fieldUp (by decide)).trans BitVec.extractLsb'_eq_self)))))
  have h1 : fld (encode (.vsct o)) 21 5 = o.v := by
    unfold fld encode
    exact (fieldUp (by decide)).trans ((fieldUp (by decide)).trans ((fieldUp (by decide)).trans ((fieldUp (by decide)).trans ((fieldUp (by decide)).trans ((fieldDown (by decide)).trans BitVec.extractLsb'_eq_self)))))
  have h2 : fld (encode (.vsct o)) 16 5 = o.a := by
    unfold fld encode
    exact (fieldUp (by decide)).trans ((fieldUp (by decide)).trans ((fieldUp (by decide)).trans ((fieldUp (by decide)).trans ((fieldDown (by decide)).trans BitVec.extractLsb'_eq_self))))
  have h3 : fld (encode (.vsct o)) 12 4 = o.lane := by
    unfold fld encode
    exact (fieldUp (by decide)).trans ((fieldUp (by decide)).trans ((fieldUp (by decide)).trans ((fieldDown (by decide)).trans BitVec.extractLsb'_eq_self)))
  have h4 : fld (encode (.vsct o)) 6 6 = o.tap := by
    unfold fld encode
    exact (fieldUp (by decide)).trans ((fieldUp (by decide)).trans ((fieldDown (by decide)).trans BitVec.extractLsb'_eq_self))
  have h5 : fld (encode (.vsct o)) 3 3 = o.c := by
    unfold fld encode
    exact (fieldUp (by decide)).trans ((fieldDown (by decide)).trans BitVec.extractLsb'_eq_self)
  show ctorSt (encode (.vsct o)) = _
  generalize encode (.vsct o) = w at *
  simp [ctorSt, VwinOp.ofWord, h0, h1, h2, h3, h4, h5]

theorem ctorOf_aadd (o : AtomOp) : ctorOf .st (encode (.aadd o)) = some (.aadd o) := by
  show ctorSt (packAtom 6#6 o) = _
  unfold ctorSt
  rw [packAtom_op]
  simp [AtomOp.ofWord_packAtom]

theorem ctorOf_amin (o : AtomOp) : ctorOf .st (encode (.amin o)) = some (.amin o) := by
  show ctorSt (packAtom 7#6 o) = _
  unfold ctorSt
  rw [packAtom_op]
  simp [AtomOp.ofWord_packAtom]

theorem ctorOf_amax (o : AtomOp) : ctorOf .st (encode (.amax o)) = some (.amax o) := by
  show ctorSt (packAtom 8#6 o) = _
  unfold ctorSt
  rw [packAtom_op]
  simp [AtomOp.ofWord_packAtom]

theorem ctorOf_axchg (o : AtomOp) : ctorOf .st (encode (.axchg o)) = some (.axchg o) := by
  show ctorSt (packAtom 9#6 o) = _
  unfold ctorSt
  rw [packAtom_op]
  simp [AtomOp.ofWord_packAtom]

theorem ctorOf_acas (o : AtomOp) : ctorOf .st (encode (.acas o)) = some (.acas o) := by
  show ctorSt (packAtom 10#6 o) = _
  unfold ctorSt
  rw [packAtom_op]
  simp [AtomOp.ofWord_packAtom]

theorem ctorOf_aand (o : AtomOp) : ctorOf .st (encode (.aand o)) = some (.aand o) := by
  show ctorSt (packAtom 11#6 o) = _
  unfold ctorSt
  rw [packAtom_op]
  simp [AtomOp.ofWord_packAtom]

theorem ctorOf_aor (o : AtomOp) : ctorOf .st (encode (.aor o)) = some (.aor o) := by
  show ctorSt (packAtom 12#6 o) = _
  unfold ctorSt
  rw [packAtom_op]
  simp [AtomOp.ofWord_packAtom]

theorem ctorOf_axor (o : AtomOp) : ctorOf .st (encode (.axor o)) = some (.axor o) := by
  show ctorSt (packAtom 13#6 o) = _
  unfold ctorSt
  rw [packAtom_op]
  simp [AtomOp.ofWord_packAtom]

theorem ctorOf_fence (scope : BitVec 3) : ctorOf .st (encode (.fence scope)) = some (.fence scope) := by
  have h0 : fld (encode (.fence scope)) 26 6 = 14#6 := by
    unfold fld encode
    exact (fieldUp (by decide)).trans ((fieldUp (by decide)).trans BitVec.extractLsb'_eq_self)
  have h1 : fld (encode (.fence scope)) 23 3 = scope := by
    unfold fld encode
    exact (fieldUp (by decide)).trans ((fieldDown (by decide)).trans BitVec.extractLsb'_eq_self)
  show ctorSt (encode (.fence scope)) = _
  generalize encode (.fence scope) = w at *
  simp [ctorSt, h0, h1]

theorem ctorOf_cpy (o : XferOp) : ctorOf .ce (encode (.cpy o)) = some (.cpy o) := by
  show ctorCe (packXfer 1#6 o) = _
  unfold ctorCe
  rw [packXfer_op]
  simp [XferOp.ofWord_packXfer]

theorem ctorOf_cpyb (o : XferOp) : ctorOf .ce (encode (.cpyb o)) = some (.cpyb o) := by
  show ctorCe (packXfer 2#6 o) = _
  unfold ctorCe
  rw [packXfer_op]
  simp [XferOp.ofWord_packXfer]

theorem ctorOf_bxfer (o : XferOp) : ctorOf .ce (encode (.bxfer o)) = some (.bxfer o) := by
  show ctorCe (packXfer 3#6 o) = _
  unfold ctorCe
  rw [packXfer_op]
  simp [XferOp.ofWord_packXfer]

theorem ctorOf_bxfer2 (o : XferOp) : ctorOf .ce (encode (.bxfer2 o)) = some (.bxfer2 o) := by
  show ctorCe (packXfer 4#6 o) = _
  unfold ctorCe
  rw [packXfer_op]
  simp [XferOp.ofWord_packXfer]

theorem ctorOf_hset (o : HsetOp) : ctorOf .ce (encode (.hset o)) = some (.hset o) := by
  have h0 : fld (encode (.hset o)) 26 6 = 5#6 := by
    unfold fld encode
    exact (fieldUp (by decide)).trans ((fieldUp (by decide)).trans ((fieldUp (by decide)).trans ((fieldUp (by decide)).trans ((fieldUp (by decide)).trans ((fieldUp (by decide)).trans BitVec.extractLsb'_eq_self)))))
  have h1 : fld (encode (.hset o)) 20 6 = o.handle := by
    unfold fld encode
    exact (fieldUp (by decide)).trans ((fieldUp (by decide)).trans ((fieldUp (by decide)).trans ((fieldUp (by decide)).trans ((fieldUp (by decide)).trans ((fieldDown (by decide)).trans BitVec.extractLsb'_eq_self)))))
  have h2 : fld (encode (.hset o)) 15 5 = o.a := by
    unfold fld encode
    exact (fieldUp (by decide)).trans ((fieldUp (by decide)).trans ((fieldUp (by decide)).trans ((fieldUp (by decide)).trans ((fieldDown (by decide)).trans BitVec.extractLsb'_eq_self))))
  have h3 : fld (encode (.hset o)) 10 5 = o.b := by
    unfold fld encode
    exact (fieldUp (by decide)).trans ((fieldUp (by decide)).trans ((fieldUp (by decide)).trans ((fieldDown (by decide)).trans BitVec.extractLsb'_eq_self)))
  have h4 : fld (encode (.hset o)) 9 1 = o.wb := by
    unfold fld encode
    exact (fieldUp (by decide)).trans ((fieldUp (by decide)).trans ((fieldDown (by decide)).trans BitVec.extractLsb'_eq_self))
  have h5 : fld (encode (.hset o)) 4 5 = o.c := by
    unfold fld encode
    exact (fieldUp (by decide)).trans ((fieldDown (by decide)).trans BitVec.extractLsb'_eq_self)
  show ctorCe (encode (.hset o)) = _
  generalize encode (.hset o) = w at *
  simp [ctorCe, HsetOp.ofWord, h0, h1, h2, h3, h4, h5]

theorem ctorOf_hwait (handle : BitVec 6) : ctorOf .ce (encode (.hwait handle)) = some (.hwait handle) := by
  have h0 : fld (encode (.hwait handle)) 26 6 = 6#6 := by
    unfold fld encode
    exact (fieldUp (by decide)).trans ((fieldUp (by decide)).trans BitVec.extractLsb'_eq_self)
  have h1 : fld (encode (.hwait handle)) 20 6 = handle := by
    unfold fld encode
    exact (fieldUp (by decide)).trans ((fieldDown (by decide)).trans BitVec.extractLsb'_eq_self)
  show ctorCe (encode (.hwait handle)) = _
  generalize encode (.hwait handle) = w at *
  simp [ctorCe, h0, h1]

theorem ctorOf_hrel (handle : BitVec 6) : ctorOf .ce (encode (.hrel handle)) = some (.hrel handle) := by
  have h0 : fld (encode (.hrel handle)) 26 6 = 7#6 := by
    unfold fld encode
    exact (fieldUp (by decide)).trans ((fieldUp (by decide)).trans BitVec.extractLsb'_eq_self)
  have h1 : fld (encode (.hrel handle)) 20 6 = handle := by
    unfold fld encode
    exact (fieldUp (by decide)).trans ((fieldDown (by decide)).trans BitVec.extractLsb'_eq_self)
  show ctorCe (encode (.hrel handle)) = _
  generalize encode (.hrel handle) = w at *
  simp [ctorCe, h0, h1]

theorem ctorOf_hprobe (o : HprobeOp) : ctorOf .ce (encode (.hprobe o)) = some (.hprobe o) := by
  have h0 : fld (encode (.hprobe o)) 26 6 = 8#6 := by
    unfold fld encode
    exact (fieldUp (by decide)).trans ((fieldUp (by decide)).trans ((fieldUp (by decide)).trans ((fieldUp (by decide)).trans BitVec.extractLsb'_eq_self)))
  have h1 : fld (encode (.hprobe o)) 20 6 = o.handle := by
    unfold fld encode
    exact (fieldUp (by decide)).trans ((fieldUp (by decide)).trans ((fieldUp (by decide)).trans ((fieldDown (by decide)).trans BitVec.extractLsb'_eq_self)))
  have h2 : fld (encode (.hprobe o)) 17 3 = o.p := by
    unfold fld encode
    exact (fieldUp (by decide)).trans ((fieldUp (by decide)).trans ((fieldDown (by decide)).trans BitVec.extractLsb'_eq_self))
  have h3 : fld (encode (.hprobe o)) 14 3 = o.cond := by
    unfold fld encode
    exact (fieldUp (by decide)).trans ((fieldDown (by decide)).trans BitVec.extractLsb'_eq_self)
  show ctorCe (encode (.hprobe o)) = _
  generalize encode (.hprobe o) = w at *
  simp [ctorCe, HprobeOp.ofWord, h0, h1, h2, h3]

theorem ctorOf_ccall (o : CollOp) : ctorOf .ce (encode (.ccall o)) = some (.ccall o) := by
  show ctorCe (packColl 9#6 o) = _
  unfold ctorCe
  rw [packColl_op]
  simp [CollOp.ofWord_packColl]

theorem ctorOf_ctrig (o : CollOp) : ctorOf .ce (encode (.ctrig o)) = some (.ctrig o) := by
  show ctorCe (packColl 10#6 o) = _
  unfold ctorCe
  rw [packColl_op]
  simp [CollOp.ofWord_packColl]

theorem ctorOf_ckpt (o : CollOp) : ctorOf .ce (encode (.ckpt o)) = some (.ckpt o) := by
  show ctorCe (packColl 11#6 o) = _
  unfold ctorCe
  rw [packColl_op]
  simp [CollOp.ofWord_packColl]

theorem ctorOf_anchor : ctorOf .sy (encode (.anchor)) = some (.anchor) := by
  rfl

theorem ctorOf_endOp : ctorOf .sy (encode (.endOp)) = some (.endOp) := by
  rfl

theorem ctorOf_barInit (o : BarOp) : ctorOf .sy (encode (.barInit o)) = some (.barInit o) := by
  have h0 : fld (encode (.barInit o)) 26 6 = 3#6 := by
    unfold fld encode
    exact (fieldUp (by decide)).trans ((fieldUp (by decide)).trans ((fieldUp (by decide)).trans ((fieldUp (by decide)).trans ((fieldUp (by decide)).trans ((fieldUp (by decide)).trans BitVec.extractLsb'_eq_self)))))
  have h1 : fld (encode (.barInit o)) 21 5 = o.a := by
    unfold fld encode
    exact (fieldUp (by decide)).trans ((fieldUp (by decide)).trans ((fieldUp (by decide)).trans ((fieldUp (by decide)).trans ((fieldUp (by decide)).trans ((fieldDown (by decide)).trans BitVec.extractLsb'_eq_self)))))
  have h2 : fld (encode (.barInit o)) 16 5 = o.b := by
    unfold fld encode
    exact (fieldUp (by decide)).trans ((fieldUp (by decide)).trans ((fieldUp (by decide)).trans ((fieldUp (by decide)).trans ((fieldDown (by decide)).trans BitVec.extractLsb'_eq_self))))
  have h3 : fld (encode (.barInit o)) 12 4 = o.lane := by
    unfold fld encode
    exact (fieldUp (by decide)).trans ((fieldUp (by decide)).trans ((fieldUp (by decide)).trans ((fieldDown (by decide)).trans BitVec.extractLsb'_eq_self)))
  have h4 : fld (encode (.barInit o)) 6 6 = o.tap := by
    unfold fld encode
    exact (fieldUp (by decide)).trans ((fieldUp (by decide)).trans ((fieldDown (by decide)).trans BitVec.extractLsb'_eq_self))
  have h5 : fld (encode (.barInit o)) 5 1 = o.nw := by
    unfold fld encode
    exact (fieldUp (by decide)).trans ((fieldDown (by decide)).trans BitVec.extractLsb'_eq_self)
  show ctorSy (encode (.barInit o)) = _
  generalize encode (.barInit o) = w at *
  simp [ctorSy, BarOp.ofWord, h0, h1, h2, h3, h4, h5]

theorem ctorOf_barArrive (o : BarOp) : ctorOf .sy (encode (.barArrive o)) = some (.barArrive o) := by
  have h0 : fld (encode (.barArrive o)) 26 6 = 4#6 := by
    unfold fld encode
    exact (fieldUp (by decide)).trans ((fieldUp (by decide)).trans ((fieldUp (by decide)).trans ((fieldUp (by decide)).trans ((fieldUp (by decide)).trans ((fieldUp (by decide)).trans BitVec.extractLsb'_eq_self)))))
  have h1 : fld (encode (.barArrive o)) 21 5 = o.a := by
    unfold fld encode
    exact (fieldUp (by decide)).trans ((fieldUp (by decide)).trans ((fieldUp (by decide)).trans ((fieldUp (by decide)).trans ((fieldUp (by decide)).trans ((fieldDown (by decide)).trans BitVec.extractLsb'_eq_self)))))
  have h2 : fld (encode (.barArrive o)) 16 5 = o.b := by
    unfold fld encode
    exact (fieldUp (by decide)).trans ((fieldUp (by decide)).trans ((fieldUp (by decide)).trans ((fieldUp (by decide)).trans ((fieldDown (by decide)).trans BitVec.extractLsb'_eq_self))))
  have h3 : fld (encode (.barArrive o)) 12 4 = o.lane := by
    unfold fld encode
    exact (fieldUp (by decide)).trans ((fieldUp (by decide)).trans ((fieldUp (by decide)).trans ((fieldDown (by decide)).trans BitVec.extractLsb'_eq_self)))
  have h4 : fld (encode (.barArrive o)) 6 6 = o.tap := by
    unfold fld encode
    exact (fieldUp (by decide)).trans ((fieldUp (by decide)).trans ((fieldDown (by decide)).trans BitVec.extractLsb'_eq_self))
  have h5 : fld (encode (.barArrive o)) 5 1 = o.nw := by
    unfold fld encode
    exact (fieldUp (by decide)).trans ((fieldDown (by decide)).trans BitVec.extractLsb'_eq_self)
  show ctorSy (encode (.barArrive o)) = _
  generalize encode (.barArrive o) = w at *
  simp [ctorSy, BarOp.ofWord, h0, h1, h2, h3, h4, h5]

theorem ctorOf_barWait (a : BitVec 5) : ctorOf .sy (encode (.barWait a)) = some (.barWait a) := by
  have h0 : fld (encode (.barWait a)) 26 6 = 5#6 := by
    unfold fld encode
    exact (fieldUp (by decide)).trans ((fieldUp (by decide)).trans BitVec.extractLsb'_eq_self)
  have h1 : fld (encode (.barWait a)) 21 5 = a := by
    unfold fld encode
    exact (fieldUp (by decide)).trans ((fieldDown (by decide)).trans BitVec.extractLsb'_eq_self)
  show ctorSy (encode (.barWait a)) = _
  generalize encode (.barWait a) = w at *
  simp [ctorSy, h0, h1]

theorem ctorOf_barFini (o : BarOp) : ctorOf .sy (encode (.barFini o)) = some (.barFini o) := by
  have h0 : fld (encode (.barFini o)) 26 6 = 6#6 := by
    unfold fld encode
    exact (fieldUp (by decide)).trans ((fieldUp (by decide)).trans ((fieldUp (by decide)).trans ((fieldUp (by decide)).trans ((fieldUp (by decide)).trans ((fieldUp (by decide)).trans BitVec.extractLsb'_eq_self)))))
  have h1 : fld (encode (.barFini o)) 21 5 = o.a := by
    unfold fld encode
    exact (fieldUp (by decide)).trans ((fieldUp (by decide)).trans ((fieldUp (by decide)).trans ((fieldUp (by decide)).trans ((fieldUp (by decide)).trans ((fieldDown (by decide)).trans BitVec.extractLsb'_eq_self)))))
  have h2 : fld (encode (.barFini o)) 16 5 = o.b := by
    unfold fld encode
    exact (fieldUp (by decide)).trans ((fieldUp (by decide)).trans ((fieldUp (by decide)).trans ((fieldUp (by decide)).trans ((fieldDown (by decide)).trans BitVec.extractLsb'_eq_self))))
  have h3 : fld (encode (.barFini o)) 12 4 = o.lane := by
    unfold fld encode
    exact (fieldUp (by decide)).trans ((fieldUp (by decide)).trans ((fieldUp (by decide)).trans ((fieldDown (by decide)).trans BitVec.extractLsb'_eq_self)))
  have h4 : fld (encode (.barFini o)) 6 6 = o.tap := by
    unfold fld encode
    exact (fieldUp (by decide)).trans ((fieldUp (by decide)).trans ((fieldDown (by decide)).trans BitVec.extractLsb'_eq_self))
  have h5 : fld (encode (.barFini o)) 5 1 = o.nw := by
    unfold fld encode
    exact (fieldUp (by decide)).trans ((fieldDown (by decide)).trans BitVec.extractLsb'_eq_self)
  show ctorSy (encode (.barFini o)) = _
  generalize encode (.barFini o) = w at *
  simp [ctorSy, BarOp.ofWord, h0, h1, h2, h3, h4, h5]

theorem ctorOf_clk (d : BitVec 5) : ctorOf .sy (encode (.clk d)) = some (.clk d) := by
  have h0 : fld (encode (.clk d)) 26 6 = 7#6 := by
    unfold fld encode
    exact (fieldUp (by decide)).trans ((fieldUp (by decide)).trans BitVec.extractLsb'_eq_self)
  have h1 : fld (encode (.clk d)) 21 5 = d := by
    unfold fld encode
    exact (fieldUp (by decide)).trans ((fieldDown (by decide)).trans BitVec.extractLsb'_eq_self)
  show ctorSy (encode (.clk d)) = _
  generalize encode (.clk d) = w at *
  simp [ctorSy, h0, h1]

theorem ctorOf_waitc (a : BitVec 5) (p : BitVec 3) : ctorOf .sy (encode (.waitc a p)) = some (.waitc a p) := by
  have h0 : fld (encode (.waitc a p)) 26 6 = 8#6 := by
    unfold fld encode
    exact (fieldUp (by decide)).trans ((fieldUp (by decide)).trans ((fieldUp (by decide)).trans BitVec.extractLsb'_eq_self))
  have h1 : fld (encode (.waitc a p)) 21 5 = a := by
    unfold fld encode
    exact (fieldUp (by decide)).trans ((fieldUp (by decide)).trans ((fieldDown (by decide)).trans BitVec.extractLsb'_eq_self))
  have h2 : fld (encode (.waitc a p)) 18 3 = p := by
    unfold fld encode
    exact (fieldUp (by decide)).trans ((fieldDown (by decide)).trans BitVec.extractLsb'_eq_self)
  show ctorSy (encode (.waitc a p)) = _
  generalize encode (.waitc a p) = w at *
  simp [ctorSy, h0, h1, h2]

theorem ctorOf_wfar : ctorOf .sy (encode (.wfar)) = some (.wfar) := by
  rfl

theorem ctorOf_belayBegin : ctorOf .sy (encode (.belayBegin)) = some (.belayBegin) := by
  rfl

theorem ctorOf_belayBeginPitch (hIn : BitVec 6) (hOut : BitVec 6) : ctorOf .sy (encode (.belayBeginPitch hIn hOut)) = some (.belayBeginPitch hIn hOut) := by
  have h0 : fld (encode (.belayBeginPitch hIn hOut)) 26 6 = 10#6 := by
    unfold fld encode
    exact (fieldUp (by decide)).trans ((fieldUp (by decide)).trans ((fieldUp (by decide)).trans ((fieldUp (by decide)).trans BitVec.extractLsb'_eq_self)))
  have h1 : fld (encode (.belayBeginPitch hIn hOut)) 25 1 = 1#1 := by
    unfold fld encode
    exact (fieldUp (by decide)).trans ((fieldUp (by decide)).trans ((fieldUp (by decide)).trans ((fieldDown (by decide)).trans BitVec.extractLsb'_eq_self)))
  have h2 : fld (encode (.belayBeginPitch hIn hOut)) 19 6 = hIn := by
    unfold fld encode
    exact (fieldUp (by decide)).trans ((fieldUp (by decide)).trans ((fieldDown (by decide)).trans BitVec.extractLsb'_eq_self))
  have h3 : fld (encode (.belayBeginPitch hIn hOut)) 13 6 = hOut := by
    unfold fld encode
    exact (fieldUp (by decide)).trans ((fieldDown (by decide)).trans BitVec.extractLsb'_eq_self)
  show ctorSy (encode (.belayBeginPitch hIn hOut)) = _
  generalize encode (.belayBeginPitch hIn hOut) = w at *
  simp [ctorSy, h0, h1, h2, h3]

theorem ctorOf_belayKeepS (lit : BitVec 4) : ctorOf .sy (encode (.belayKeepS lit)) = some (.belayKeepS lit) := by
  have h0 : fld (encode (.belayKeepS lit)) 26 6 = 11#6 := by
    unfold fld encode
    exact (fieldUp (by decide)).trans ((fieldUp (by decide)).trans ((fieldUp (by decide)).trans BitVec.extractLsb'_eq_self))
  have h1 : fld (encode (.belayKeepS lit)) 20 4 = lit := by
    unfold fld encode
    exact (fieldUp (by decide)).trans ((fieldDown (by decide)).trans BitVec.extractLsb'_eq_self)
  have h2 : fld (encode (.belayKeepS lit)) 24 2 = 0#2 := by
    unfold fld encode
    exact (fieldUp (by decide)).trans ((fieldUp (by decide)).trans ((fieldDown (by decide)).trans BitVec.extractLsb'_eq_self))
  show ctorSy (encode (.belayKeepS lit)) = _
  generalize encode (.belayKeepS lit) = w at *
  simp [ctorSy, h0, h1, h2]

theorem ctorOf_belayKeepV (lit : BitVec 4) : ctorOf .sy (encode (.belayKeepV lit)) = some (.belayKeepV lit) := by
  have h0 : fld (encode (.belayKeepV lit)) 26 6 = 11#6 := by
    unfold fld encode
    exact (fieldUp (by decide)).trans ((fieldUp (by decide)).trans ((fieldUp (by decide)).trans BitVec.extractLsb'_eq_self))
  have h1 : fld (encode (.belayKeepV lit)) 24 2 = 1#2 := by
    unfold fld encode
    exact (fieldUp (by decide)).trans ((fieldUp (by decide)).trans ((fieldDown (by decide)).trans BitVec.extractLsb'_eq_self))
  have h2 : fld (encode (.belayKeepV lit)) 20 4 = lit := by
    unfold fld encode
    exact (fieldUp (by decide)).trans ((fieldDown (by decide)).trans BitVec.extractLsb'_eq_self)
  show ctorSy (encode (.belayKeepV lit)) = _
  generalize encode (.belayKeepV lit) = w at *
  simp [ctorSy, h0, h1, h2]

theorem ctorOf_belayKeepA (o : KeepAOp) : ctorOf .sy (encode (.belayKeepA o)) = some (.belayKeepA o) := by
  have h0 : fld (encode (.belayKeepA o)) 26 6 = 11#6 := by
    unfold fld encode
    exact (fieldUp (by decide)).trans ((fieldUp (by decide)).trans ((fieldUp (by decide)).trans ((fieldUp (by decide)).trans BitVec.extractLsb'_eq_self)))
  have h1 : fld (encode (.belayKeepA o)) 24 2 = 2#2 := by
    unfold fld encode
    exact (fieldUp (by decide)).trans ((fieldUp (by decide)).trans ((fieldUp (by decide)).trans ((fieldDown (by decide)).trans BitVec.extractLsb'_eq_self)))
  have h2 : fld (encode (.belayKeepA o)) 16 8 = o.tile := by
    unfold fld encode
    exact (fieldUp (by decide)).trans ((fieldUp (by decide)).trans ((fieldDown (by decide)).trans BitVec.extractLsb'_eq_self))
  have h3 : fld (encode (.belayKeepA o)) 12 4 = o.nm1 := by
    unfold fld encode
    exact (fieldUp (by decide)).trans ((fieldDown (by decide)).trans BitVec.extractLsb'_eq_self)
  show ctorSy (encode (.belayKeepA o)) = _
  generalize encode (.belayKeepA o) = w at *
  simp [ctorSy, KeepAOp.ofWord, h0, h1, h2, h3]

theorem ctorOf_belayEnd : ctorOf .sy (encode (.belayEnd)) = some (.belayEnd) := by
  rfl

theorem ctorOf_cmpt (o : CmptOp) : ctorOf .sy (encode (.cmpt o)) = some (.cmpt o) := by
  have h0 : fld (encode (.cmpt o)) 26 6 = 13#6 := by
    unfold fld encode
    exact (fieldUp (by decide)).trans ((fieldUp (by decide)).trans ((fieldUp (by decide)).trans ((fieldUp (by decide)).trans BitVec.extractLsb'_eq_self)))
  have h1 : fld (encode (.cmpt o)) 25 1 = o.v := by
    unfold fld encode
    exact (fieldUp (by decide)).trans ((fieldUp (by decide)).trans ((fieldUp (by decide)).trans ((fieldDown (by decide)).trans BitVec.extractLsb'_eq_self)))
  have h2 : fld (encode (.cmpt o)) 20 5 = o.a := by
    unfold fld encode
    exact (fieldUp (by decide)).trans ((fieldUp (by decide)).trans ((fieldDown (by decide)).trans BitVec.extractLsb'_eq_self))
  have h3 : fld (encode (.cmpt o)) 15 5 = o.b := by
    unfold fld encode
    exact (fieldUp (by decide)).trans ((fieldDown (by decide)).trans BitVec.extractLsb'_eq_self)
  show ctorSy (encode (.cmpt o)) = _
  generalize encode (.cmpt o) = w at *
  simp [ctorSy, CmptOp.ofWord, h0, h1, h2, h3]

theorem ctorOf_ilock (a : BitVec 5) (b : BitVec 5) : ctorOf .sy (encode (.ilock a b)) = some (.ilock a b) := by
  have h0 : fld (encode (.ilock a b)) 26 6 = 14#6 := by
    unfold fld encode
    exact (fieldUp (by decide)).trans ((fieldUp (by decide)).trans ((fieldUp (by decide)).trans BitVec.extractLsb'_eq_self))
  have h1 : fld (encode (.ilock a b)) 21 5 = a := by
    unfold fld encode
    exact (fieldUp (by decide)).trans ((fieldUp (by decide)).trans ((fieldDown (by decide)).trans BitVec.extractLsb'_eq_self))
  have h2 : fld (encode (.ilock a b)) 16 5 = b := by
    unfold fld encode
    exact (fieldUp (by decide)).trans ((fieldDown (by decide)).trans BitVec.extractLsb'_eq_self)
  show ctorSy (encode (.ilock a b)) = _
  generalize encode (.ilock a b) = w at *
  simp [ctorSy, h0, h1, h2]

theorem ctorOf_iunlock (a : BitVec 5) (b : BitVec 5) : ctorOf .sy (encode (.iunlock a b)) = some (.iunlock a b) := by
  have h0 : fld (encode (.iunlock a b)) 26 6 = 15#6 := by
    unfold fld encode
    exact (fieldUp (by decide)).trans ((fieldUp (by decide)).trans ((fieldUp (by decide)).trans BitVec.extractLsb'_eq_self))
  have h1 : fld (encode (.iunlock a b)) 21 5 = a := by
    unfold fld encode
    exact (fieldUp (by decide)).trans ((fieldUp (by decide)).trans ((fieldDown (by decide)).trans BitVec.extractLsb'_eq_self))
  have h2 : fld (encode (.iunlock a b)) 16 5 = b := by
    unfold fld encode
    exact (fieldUp (by decide)).trans ((fieldDown (by decide)).trans BitVec.extractLsb'_eq_self)
  show ctorSy (encode (.iunlock a b)) = _
  generalize encode (.iunlock a b) = w at *
  simp [ctorSy, h0, h1, h2]

theorem ctorOf_ipref (a : BitVec 5) (b : BitVec 5) : ctorOf .sy (encode (.ipref a b)) = some (.ipref a b) := by
  have h0 : fld (encode (.ipref a b)) 26 6 = 16#6 := by
    unfold fld encode
    exact (fieldUp (by decide)).trans ((fieldUp (by decide)).trans ((fieldUp (by decide)).trans BitVec.extractLsb'_eq_self))
  have h1 : fld (encode (.ipref a b)) 21 5 = a := by
    unfold fld encode
    exact (fieldUp (by decide)).trans ((fieldUp (by decide)).trans ((fieldDown (by decide)).trans BitVec.extractLsb'_eq_self))
  have h2 : fld (encode (.ipref a b)) 16 5 = b := by
    unfold fld encode
    exact (fieldUp (by decide)).trans ((fieldDown (by decide)).trans BitVec.extractLsb'_eq_self)
  show ctorSy (encode (.ipref a b)) = _
  generalize encode (.ipref a b) = w at *
  simp [ctorSy, h0, h1, h2]

theorem ctorOf_trap (code : BitVec 16) : ctorOf .sy (encode (.trap code)) = some (.trap code) := by
  have h0 : fld (encode (.trap code)) 26 6 = 17#6 := by
    unfold fld encode
    exact (fieldUp (by decide)).trans ((fieldUp (by decide)).trans BitVec.extractLsb'_eq_self)
  have h1 : fld (encode (.trap code)) 0 16 = code := by
    unfold fld encode
    exact (fieldDown (by decide)).trans BitVec.extractLsb'_eq_self
  show ctorSy (encode (.trap code)) = _
  generalize encode (.trap code) = w at *
  simp [ctorSy, h0, h1]

theorem ctorOf_sys (code : BitVec 16) : ctorOf .sy (encode (.sys code)) = some (.sys code) := by
  have h0 : fld (encode (.sys code)) 26 6 = 18#6 := by
    unfold fld encode
    exact (fieldUp (by decide)).trans ((fieldUp (by decide)).trans BitVec.extractLsb'_eq_self)
  have h1 : fld (encode (.sys code)) 0 16 = code := by
    unfold fld encode
    exact (fieldDown (by decide)).trans BitVec.extractLsb'_eq_self
  show ctorSy (encode (.sys code)) = _
  generalize encode (.sys code) = w at *
  simp [ctorSy, h0, h1]

theorem ctorOf_eret : ctorOf .sy (encode (.eret)) = some (.eret) := by
  rfl

theorem ctorOf_csrr (o : CsrOp) : ctorOf .sy (encode (.csrr o)) = some (.csrr o) := by
  show ctorSy (packCsr 20#6 o) = _
  unfold ctorSy
  rw [packCsr_op]
  simp [CsrOp.ofWord_packCsr]

theorem ctorOf_csrw (o : CsrOp) : ctorOf .sy (encode (.csrw o)) = some (.csrw o) := by
  show ctorSy (packCsr 21#6 o) = _
  unfold ctorSy
  rw [packCsr_op]
  simp [CsrOp.ofWord_packCsr]

theorem ctorOf_csrs (o : CsrOp) : ctorOf .sy (encode (.csrs o)) = some (.csrs o) := by
  show ctorSy (packCsr 22#6 o) = _
  unfold ctorSy
  rw [packCsr_op]
  simp [CsrOp.ofWord_packCsr]

theorem ctorOf_csrc (o : CsrOp) : ctorOf .sy (encode (.csrc o)) = some (.csrc o) := by
  show ctorSy (packCsr 23#6 o) = _
  unfold ctorSy
  rw [packCsr_op]
  simp [CsrOp.ofWord_packCsr]

theorem ctorOf_yield : ctorOf .sy (encode (.yield)) = some (.yield) := by
  rfl

theorem ctorOf_wfi : ctorOf .sy (encode (.wfi)) = some (.wfi) := by
  rfl

theorem ctorOf_bist (a : BitVec 5) : ctorOf .sy (encode (.bist a)) = some (.bist a) := by
  have h0 : fld (encode (.bist a)) 26 6 = 26#6 := by
    unfold fld encode
    exact (fieldUp (by decide)).trans ((fieldUp (by decide)).trans BitVec.extractLsb'_eq_self)
  have h1 : fld (encode (.bist a)) 21 5 = a := by
    unfold fld encode
    exact (fieldUp (by decide)).trans ((fieldDown (by decide)).trans BitVec.extractLsb'_eq_self)
  show ctorSy (encode (.bist a)) = _
  generalize encode (.bist a) = w at *
  simp [ctorSy, h0, h1]

end Sys2Proof
end

