-- ==== Sys2Proof/Laws/Tbl.lean ====
section
/-!
SUPPORT. Laws of the sparse tables: reading after writing, and the canonical form kept by every write.
-/

namespace Sys2Proof.Machine

variable {α : Type}

theorem tblGet_insert_same (d v : α) (k : Nat) (t : Tbl α) (h : ∀ e ∈ t, e.1 ≠ k) : tblGet d k (tblInsert k v t) = v := by
  induction t with
  | nil => simp [tblInsert, tblGet]
  | cons e t ih =>
    have he := h e (by simp)
    have ht := ih (fun x hx => h x (by simp [hx]))
    unfold tblInsert
    split
    · simp [tblGet]
    · simp [tblGet, he, ht]

theorem tblGet_insert_ne (d v : α) {k j : Nat} (hj : k ≠ j) (t : Tbl α) : tblGet d j (tblInsert k v t) = tblGet d j t := by
  induction t with
  | nil => simp [tblInsert, tblGet, hj]
  | cons e t ih =>
    unfold tblInsert
    split
    · simp [tblGet, hj]
    · simp [tblGet, ih]

theorem tblErase_not_mem (k : Nat) (t : Tbl α) : ∀ e ∈ tblErase k t, e.1 ≠ k := by
  intro e he
  simp [tblErase] at he
  exact he.2

theorem tblGet_erase_same (d : α) (k : Nat) (t : Tbl α) : tblGet d k (tblErase k t) = d := by
  induction t with
  | nil => simp [tblErase, tblGet]
  | cons e t ih =>
    unfold tblErase at ih ⊢
    by_cases h : e.1 = k <;> simp [h, tblGet, ih]

theorem tblGet_erase_ne (d : α) {k j : Nat} (hj : k ≠ j) (t : Tbl α) : tblGet d j (tblErase k t) = tblGet d j t := by
  induction t with
  | nil => simp [tblErase, tblGet]
  | cons e t ih =>
    unfold tblErase at ih ⊢
    by_cases h : e.1 = k
    · simp [h, tblGet, ih, hj]
    · simp [h, tblGet, ih]

/-- A key that was set reads as it was set. -/
@[simp] theorem tblGet_set_same (d v : α) (k : Nat) (t : Tbl α) : tblGet d k (tblSet k v t) = v :=
  tblGet_insert_same d v k _ (tblErase_not_mem k t)

/-- Setting a key leaves every other key alone. -/
theorem tblGet_set_ne (d v : α) {k j : Nat} (hj : k ≠ j) (t : Tbl α) : tblGet d j (tblSet k v t) = tblGet d j t := by
  unfold tblSet
  rw [tblGet_insert_ne d v hj, tblGet_erase_ne d hj]

/-- Reading any key after setting one. -/
theorem tblGet_set (d v : α) (k j : Nat) (t : Tbl α) : tblGet d j (tblSet k v t) = if k = j then v else tblGet d j t := by
  by_cases h : k = j
  · subst h; simp
  · simp [h, tblGet_set_ne d v h]

/-- A byte or register that was put reads as it was put. -/
@[simp] theorem tblGet_put_same [DecidableEq α] (d v : α) (k : Nat) (t : Tbl α) : tblGet d k (tblPut d k v t) = v := by
  unfold tblPut
  split
  · next h => rw [tblGet_erase_same, h]
  · simp

theorem tblGet_put_ne [DecidableEq α] (d v : α) {k j : Nat} (hj : k ≠ j) (t : Tbl α) :
    tblGet d j (tblPut d k v t) = tblGet d j t := by
  unfold tblPut
  split
  · exact tblGet_erase_ne d hj t
  · exact tblGet_set_ne d v hj t

theorem tblGet_put [DecidableEq α] (d v : α) (k j : Nat) (t : Tbl α) :
    tblGet d j (tblPut d k v t) = if k = j then v else tblGet d j t := by
  by_cases h : k = j
  · subst h; simp
  · simp [h, tblGet_put_ne d v h]

/-! ### The canonical form -/

/-- Keys strictly rising, as a pairwise relation. -/
theorem tblSorted_iff (t : Tbl α) : tblSorted t = true ↔ t.Pairwise (fun a b => a.1 < b.1) := by
  induction t with
  | nil => simp [tblSorted]
  | cons e t ih =>
    cases t with
    | nil => simp [tblSorted]
    | cons e' t =>
      simp only [tblSorted, Bool.and_eq_true, decide_eq_true_eq, ih, List.pairwise_cons]
      constructor
      · rintro ⟨h, h', hp⟩
        refine ⟨?_, h', hp⟩
        intro a ha
        rcases List.mem_cons.mp ha with rfl | ha
        · exact h
        · exact Nat.lt_trans h (h' a ha)
      · rintro ⟨h, h', hp⟩
        exact ⟨h e' (by simp), h', hp⟩

theorem tblInsert_mem (k : Nat) (v : α) (t : Tbl α) (e : Nat × α) : e ∈ tblInsert k v t ↔ e = (k, v) ∨ e ∈ t := by
  induction t with
  | nil => simp [tblInsert]
  | cons x t ih =>
    unfold tblInsert
    split
    · simp
    · simp only [List.mem_cons, ih]
      constructor
      · rintro (h | h | h)
        · exact .inr (.inl h)
        · exact .inl h
        · exact .inr (.inr h)
      · rintro (h | h | h)
        · exact .inr (.inl h)
        · exact .inl h
        · exact .inr (.inr h)

theorem tblInsert_sorted (k : Nat) (v : α) (t : Tbl α) (hk : ∀ e ∈ t, e.1 ≠ k) (h : tblSorted t = true) :
    tblSorted (tblInsert k v t) = true := by
  rw [tblSorted_iff] at h ⊢
  induction t with
  | nil => simp [tblInsert]
  | cons x t ih =>
    have hx := List.pairwise_cons.mp h
    unfold tblInsert
    split
    · next hlt =>
      rw [List.pairwise_cons]
      refine ⟨?_, h⟩
      intro a ha
      rcases List.mem_cons.mp ha with rfl | ha
      · exact hlt
      · exact Nat.lt_trans hlt (hx.1 a ha)
    · next hge =>
      rw [List.pairwise_cons]
      refine ⟨?_, ih (fun e he => hk e (by simp [he])) hx.2⟩
      intro a ha
      rcases (tblInsert_mem k v t a).mp ha with rfl | ha
      · have := hk x (by simp)
        show x.1 < k
        omega
      · exact hx.1 a ha

theorem tblErase_wf [DecidableEq α] (d : α) (k : Nat) (t : Tbl α) (h : tblWf d t = true) : tblWf d (tblErase k t) = true := by
  simp only [tblWf, Bool.and_eq_true, List.all_eq_true] at h ⊢
  refine ⟨?_, fun e he => h.2 e (List.mem_of_mem_filter he)⟩
  rw [tblSorted_iff] at h ⊢
  exact h.1.filter _

/-- A filtered table keeps the canonical form. -/
theorem tblFilter_wf [DecidableEq α] (d : α) (p : Nat × α → Bool) (t : Tbl α) (h : tblWf d t = true) :
    tblWf d (t.filter p) = true := by
  simp only [tblWf, Bool.and_eq_true, List.all_eq_true] at h ⊢
  refine ⟨?_, fun e he => h.2 e (List.mem_of_mem_filter he)⟩
  rw [tblSorted_iff] at h ⊢
  exact h.1.filter _

/-- A put keeps the canonical form. -/
theorem tblPut_wf [DecidableEq α] (d v : α) (k : Nat) (t : Tbl α) (h : tblWf d t = true) : tblWf d (tblPut d k v t) = true := by
  unfold tblPut
  have he := tblErase_wf d k t h
  split
  · exact he
  · next hv =>
    simp only [tblWf, Bool.and_eq_true, List.all_eq_true] at he ⊢
    refine ⟨tblInsert_sorted k v _ (tblErase_not_mem k t) he.1, ?_⟩
    intro e hm
    rcases (tblInsert_mem k v _ e).mp hm with rfl | hm
    · simpa using hv
    · exact he.2 e hm

theorem tblPutAll_wf [DecidableEq α] (d : α) (es : List (Nat × α)) (t : Tbl α) (h : tblWf d t = true) :
    tblWf d (tblPutAll d es t) = true := by
  unfold tblPutAll
  induction es generalizing t with
  | nil => exact h
  | cons e es ih => exact ih _ (tblPut_wf d e.2 e.1 t h)

end Sys2Proof.Machine
end

