-- ==== Sys2Proof/Laws/Memory.lean ====
section
/-!
SUPPORT. Laws of memory: a byte reads as it was last written, a write leaves every other byte alone, and every memory
operation keeps the canonical form.
-/

namespace Sys2Proof.Machine

@[simp] theorem memGet_put_same (m : List Host.Cell) (k : Nat) (b : Byte) : memGet (memPut m k b) k = b := tblGet_put_same _ _ _ _

theorem memGet_put_ne (m : List Host.Cell) {k j : Nat} (b : Byte) (h : k ≠ j) : memGet (memPut m k b) j = memGet m j :=
  tblGet_put_ne _ _ h _

/-- A byte below the bytes written reads as before. -/
theorem memGet_writeBytes_lt (bs : List Byte) (m : List Host.Cell) {k j : Nat} (h : j < k) :
    memGet (writeBytes m k bs) j = memGet m j := by
  induction bs generalizing m k with
  | nil => rfl
  | cons b t ih =>
    show memGet (writeBytes (memPut m k b) (k + 1) t) j = _
    rw [ih _ (by omega), memGet_put_ne _ _ (by omega)]

/-- A byte above the bytes written reads as before. -/
theorem memGet_writeBytes_ge (bs : List Byte) (m : List Host.Cell) {k j : Nat} (h : k + bs.length ≤ j) :
    memGet (writeBytes m k bs) j = memGet m j := by
  induction bs generalizing m k with
  | nil => rfl
  | cons b t ih =>
    simp only [List.length_cons] at h
    show memGet (writeBytes (memPut m k b) (k + 1) t) j = _
    rw [ih _ (by omega), memGet_put_ne _ _ (by omega)]

/-- A write leaves every byte outside it alone. -/
theorem memGet_writeBytes_out (bs : List Byte) (m : List Host.Cell) {k j : Nat} (h : j < k ∨ k + bs.length ≤ j) :
    memGet (writeBytes m k bs) j = memGet m j := by
  rcases h with h | h
  · exact memGet_writeBytes_lt bs m h
  · exact memGet_writeBytes_ge bs m h

/-- Reading back the bytes just written. -/
theorem readBytes_writeBytes (bs : List Byte) (m : List Host.Cell) (k : Nat) : readBytes (writeBytes m k bs) k bs.length = bs := by
  induction bs generalizing m k with
  | nil => rfl
  | cons b t ih =>
    show memGet (writeBytes (memPut m k b) (k + 1) t) k :: readBytes (writeBytes (memPut m k b) (k + 1) t) (k + 1) t.length = b :: t
    rw [memGet_writeBytes_lt t _ (by omega), memGet_put_same, ih]

theorem leBytes_length (n x : Nat) : (leBytes n x).length = n := by
  induction n generalizing x with
  | zero => rfl
  | succ n ih => simp [leBytes, ih]

/-- Little-endian bytes read back (R4). -/
theorem leNat_leBytes (n x : Nat) : leNat (leBytes n x) = x % 256 ^ n := by
  induction n generalizing x with
  | zero => simp [leBytes, leNat, Nat.mod_one]
  | succ n ih =>
    have h : 256 ^ (n + 1) = 256 * 256 ^ n := by rw [Nat.pow_succ, Nat.mul_comm]
    rw [h, Nat.mod_mul]
    simp [leBytes, leNat, ih]

/-- A 64-bit word reads back as it was written (R4). -/
theorem readWord64_writeWord64 (m : List Host.Cell) (k : Nat) (v : W64) : readWord64 (writeWord64 m k v) k = v := by
  have h : readBytes (writeBytes m k (leBytes 8 v.toNat)) k 8 = leBytes 8 v.toNat := by
    have := readBytes_writeBytes (leBytes 8 v.toNat) m k
    rwa [leBytes_length] at this
  unfold readWord64 readNat writeWord64
  rw [h, leNat_leBytes]
  apply BitVec.eq_of_toNat_eq
  have : v.toNat < 2 ^ 64 := v.isLt
  simp only [BitVec.toNat_ofNat]
  omega

/-! ### The canonical form -/

theorem memPut_wf (m : List Host.Cell) (k : Nat) (b : Byte) (h : memWf m = true) : memWf (memPut m k b) = true :=
  tblPut_wf _ _ _ _ h

theorem writeBytes_wf (bs : List Byte) (m : List Host.Cell) (k : Nat) (h : memWf m = true) : memWf (writeBytes m k bs) = true := by
  induction bs generalizing m k with
  | nil => exact h
  | cons b t ih => exact ih _ _ (memPut_wf m k b h)

theorem memFilter_wf (p : Host.Cell → Bool) (m : List Host.Cell) (h : memWf m = true) : memWf (m.filter p) = true :=
  tblFilter_wf _ p m h

theorem wipeRange_wf (m : List Host.Cell) (lo hi : Nat) (h : memWf m = true) : memWf (wipeRange m lo hi) = true :=
  memFilter_wf _ m h

theorem writeWord64_wf (m : List Host.Cell) (k : Nat) (v : W64) (h : memWf m = true) : memWf (writeWord64 m k v) = true :=
  writeBytes_wf _ m k h

theorem writePad_wf (rope : Nat) (ws : List (Nat × Byte)) (m : List Host.Cell) (h : memWf m = true) :
    memWf (writePad rope m ws) = true := by
  unfold writePad
  induction ws generalizing m with
  | nil => exact h
  | cons w ws ih => exact ih _ (memPut_wf m _ _ h)

end Sys2Proof.Machine
end

