-- ==== Sys2Proof/Laws/PerInstr.lean ====
section
/-!
SUPPORT. The families of statements made per instruction: one lemma for each constructor of `Instr`.
-/

namespace Sys2Proof.Laws.RoundTrip

/-- Decoding the word of a well-formed slot instruction, in every slot that may issue it, gives the instruction back (R117–R127). Events have
no word. -/
def Statement (i : Instr) : Prop :=
  ∀ k : SlotKind, i.slot? = some k.column → (i.isControl = true → k = .sa) → i.wf = true → decodeSlot k (encode i) = .ok i

/-- From the opcode map to the statement. -/
theorem ofCtor {i : Instr} {j : SlotKind} (hs : i.slot? = some j) (h : i.wf = true → ctorOf j (encode i) = some i) : Statement i := by
  intro k hk hc hw
  have hj : j = k.column := by
    rw [hs] at hk
    exact Option.some.inj hk
  subst hj
  exact decodeSlot_of_ctor ((ctorOf_column k _).symm.trans (h hw)) hw hc

/-- An instruction without a slot. -/
theorem ofNone {i : Instr} (hs : i.slot? = none) : Statement i := by
  intro k hk
  rw [hs] at hk
  exact nomatch hk

theorem add (o : ScalarOp) : Statement (.add o) := ofCtor rfl (fun _ => ctorOf_add o)
theorem sub (o : ScalarOp) : Statement (.sub o) := ofCtor rfl (fun _ => ctorOf_sub o)
theorem mul (o : ScalarOp) : Statement (.mul o) := ofCtor rfl (fun _ => ctorOf_mul o)
theorem mulh (o : ScalarOp) : Statement (.mulh o) := ofCtor rfl (fun _ => ctorOf_mulh o)
theorem mulhn (o : ScalarOp) : Statement (.mulhn o) := ofCtor rfl (fun _ => ctorOf_mulhn o)
theorem div (o : ScalarOp) : Statement (.div o) := ofCtor rfl (fun _ => ctorOf_div o)
theorem divn (o : ScalarOp) : Statement (.divn o) := ofCtor rfl (fun _ => ctorOf_divn o)
theorem rem (o : ScalarOp) : Statement (.rem o) := ofCtor rfl (fun _ => ctorOf_rem o)
theorem remn (o : ScalarOp) : Statement (.remn o) := ofCtor rfl (fun _ => ctorOf_remn o)
theorem and (o : ScalarOp) : Statement (.and o) := ofCtor rfl (fun _ => ctorOf_and o)
theorem or (o : ScalarOp) : Statement (.or o) := ofCtor rfl (fun _ => ctorOf_or o)
theorem xor (o : ScalarOp) : Statement (.xor o) := ofCtor rfl (fun _ => ctorOf_xor o)
theorem andn (o : ScalarOp) : Statement (.andn o) := ofCtor rfl (fun _ => ctorOf_andn o)
theorem shl (o : ScalarOp) : Statement (.shl o) := ofCtor rfl (fun _ => ctorOf_shl o)
theorem shr (o : ScalarOp) : Statement (.shr o) := ofCtor rfl (fun _ => ctorOf_shr o)
theorem sra (o : ScalarOp) : Statement (.sra o) := ofCtor rfl (fun _ => ctorOf_sra o)
theorem rot (o : ScalarOp) : Statement (.rot o) := ofCtor rfl (fun _ => ctorOf_rot o)
theorem clz (o : ScalarOp) : Statement (.clz o) := ofCtor rfl (fun _ => ctorOf_clz o)
theorem popc (o : ScalarOp) : Statement (.popc o) := ofCtor rfl (fun _ => ctorOf_popc o)
theorem min (o : ScalarOp) : Statement (.min o) := ofCtor rfl (fun _ => ctorOf_min o)
theorem max (o : ScalarOp) : Statement (.max o) := ofCtor rfl (fun _ => ctorOf_max o)
theorem minn (o : ScalarOp) : Statement (.minn o) := ofCtor rfl (fun _ => ctorOf_minn o)
theorem maxn (o : ScalarOp) : Statement (.maxn o) := ofCtor rfl (fun _ => ctorOf_maxn o)
theorem sext (o : ScalarOp) : Statement (.sext o) := ofCtor rfl (fun _ => ctorOf_sext o)
theorem zext (o : ScalarOp) : Statement (.zext o) := ofCtor rfl (fun _ => ctorOf_zext o)
theorem bfx (o : ScalarOp) : Statement (.bfx o) := ofCtor rfl (fun _ => ctorOf_bfx o)
theorem bfi (o : ScalarOp) : Statement (.bfi o) := ofCtor rfl (fun _ => ctorOf_bfi o)
theorem lea (o : ScalarOp) : Statement (.lea o) := ofCtor rfl (fun _ => ctorOf_lea o)
theorem mov (o : ScalarOp) : Statement (.mov o) := ofCtor rfl (fun _ => ctorOf_mov o)
theorem movl (o : ScalarOp) : Statement (.movl o) := ofCtor rfl (fun _ => ctorOf_movl o)
theorem sel (o : ScalarOp) : Statement (.sel o) := ofCtor rfl (fun _ => ctorOf_sel o)
theorem cmp (o : ScalarOp) : Statement (.cmp o) := ofCtor rfl (fun _ => ctorOf_cmp o)
theorem fadd (o : ScalarOp) : Statement (.fadd o) := ofCtor rfl (fun _ => ctorOf_fadd o)
theorem fsub (o : ScalarOp) : Statement (.fsub o) := ofCtor rfl (fun _ => ctorOf_fsub o)
theorem fmul (o : ScalarOp) : Statement (.fmul o) := ofCtor rfl (fun _ => ctorOf_fmul o)
theorem ffma (o : ScalarOp) : Statement (.ffma o) := ofCtor rfl (fun _ => ctorOf_ffma o)
theorem fmin (o : ScalarOp) : Statement (.fmin o) := ofCtor rfl (fun _ => ctorOf_fmin o)
theorem fmax (o : ScalarOp) : Statement (.fmax o) := ofCtor rfl (fun _ => ctorOf_fmax o)
theorem fcmp (o : ScalarOp) : Statement (.fcmp o) := ofCtor rfl (fun _ => ctorOf_fcmp o)
theorem fcvt (o : ScalarOp) : Statement (.fcvt o) := ofCtor rfl (fun _ => ctorOf_fcvt o)
theorem lix (o : ScalarOp) : Statement (.lix o) := ofCtor rfl (fun _ => ctorOf_lix o)
theorem br (o : ScalarOp) : Statement (.br o) := ofCtor rfl (fun _ => ctorOf_br o)
theorem bc (o : ScalarOp) : Statement (.bc o) := ofCtor rfl (fun _ => ctorOf_bc o)
theorem jmp (o : ScalarOp) : Statement (.jmp o) := ofCtor rfl (fun _ => ctorOf_jmp o)
theorem callRelative (o : ScalarOp) : Statement (.callRelative o) := ofCtor rfl (fun hw => ctorOf_callRelative o hw)
theorem callRegister (o : ScalarOp) : Statement (.callRegister o) := ofCtor rfl (fun hw => ctorOf_callRegister o hw)
theorem ret (o : ScalarOp) : Statement (.ret o) := ofCtor rfl (fun _ => ctorOf_ret o)
theorem loop (o : ScalarOp) : Statement (.loop o) := ofCtor rfl (fun _ => ctorOf_loop o)
theorem loopx (o : ScalarOp) : Statement (.loopx o) := ofCtor rfl (fun _ => ctorOf_loopx o)
theorem vadd (o : VecOp) : Statement (.vadd o) := ofCtor rfl (fun _ => ctorOf_vadd o)
theorem vsub (o : VecOp) : Statement (.vsub o) := ofCtor rfl (fun _ => ctorOf_vsub o)
theorem vmul (o : VecOp) : Statement (.vmul o) := ofCtor rfl (fun _ => ctorOf_vmul o)
theorem vmulh (o : VecOp) : Statement (.vmulh o) := ofCtor rfl (fun _ => ctorOf_vmulh o)
theorem vfma (o : VecOp) : Statement (.vfma o) := ofCtor rfl (fun _ => ctorOf_vfma o)
theorem vfms (o : VecOp) : Statement (.vfms o) := ofCtor rfl (fun _ => ctorOf_vfms o)
theorem vfnma (o : VecOp) : Statement (.vfnma o) := ofCtor rfl (fun _ => ctorOf_vfnma o)
theorem vmin (o : VecOp) : Statement (.vmin o) := ofCtor rfl (fun _ => ctorOf_vmin o)
theorem vmax (o : VecOp) : Statement (.vmax o) := ofCtor rfl (fun _ => ctorOf_vmax o)
theorem vabs (o : VecOp) : Statement (.vabs o) := ofCtor rfl (fun _ => ctorOf_vabs o)
theorem vneg (o : VecOp) : Statement (.vneg o) := ofCtor rfl (fun _ => ctorOf_vneg o)
theorem vclamp (o : VecOp) : Statement (.vclamp o) := ofCtor rfl (fun _ => ctorOf_vclamp o)
theorem vceq (o : VecOp) : Statement (.vceq o) := ofCtor rfl (fun _ => ctorOf_vceq o)
theorem vcne (o : VecOp) : Statement (.vcne o) := ofCtor rfl (fun _ => ctorOf_vcne o)
theorem vclt (o : VecOp) : Statement (.vclt o) := ofCtor rfl (fun _ => ctorOf_vclt o)
theorem vcle (o : VecOp) : Statement (.vcle o) := ofCtor rfl (fun _ => ctorOf_vcle o)
theorem vsel (o : VecOp) : Statement (.vsel o) := ofCtor rfl (fun _ => ctorOf_vsel o)
theorem vand (o : VecOp) : Statement (.vand o) := ofCtor rfl (fun _ => ctorOf_vand o)
theorem vor (o : VecOp) : Statement (.vor o) := ofCtor rfl (fun _ => ctorOf_vor o)
theorem vxor (o : VecOp) : Statement (.vxor o) := ofCtor rfl (fun _ => ctorOf_vxor o)
theorem vnot (o : VecOp) : Statement (.vnot o) := ofCtor rfl (fun _ => ctorOf_vnot o)
theorem vshl (o : VecOp) : Statement (.vshl o) := ofCtor rfl (fun _ => ctorOf_vshl o)
theorem vshr (o : VecOp) : Statement (.vshr o) := ofCtor rfl (fun _ => ctorOf_vshr o)
theorem vsra (o : VecOp) : Statement (.vsra o) := ofCtor rfl (fun _ => ctorOf_vsra o)
theorem vcvt (o : VecOp) : Statement (.vcvt o) := ofCtor rfl (fun _ => ctorOf_vcvt o)
theorem vmov (o : VecOp) : Statement (.vmov o) := ofCtor rfl (fun _ => ctorOf_vmov o)
theorem vsplat (o : VecOp) : Statement (.vsplat o) := ofCtor rfl (fun _ => ctorOf_vsplat o)
theorem vperm (o : VecOp) : Statement (.vperm o) := ofCtor rfl (fun _ => ctorOf_vperm o)
theorem vrot (o : VecOp) : Statement (.vrot o) := ofCtor rfl (fun _ => ctorOf_vrot o)
theorem vdot (o : VecOp) : Statement (.vdot o) := ofCtor rfl (fun _ => ctorOf_vdot o)
theorem vred (o : VecOp) : Statement (.vred o) := ofCtor rfl (fun _ => ctorOf_vred o)
theorem vscan (o : VecOp) : Statement (.vscan o) := ofCtor rfl (fun _ => ctorOf_vscan o)
theorem vdraw (o : VecOp) : Statement (.vdraw o) := ofCtor rfl (fun _ => ctorOf_vdraw o)
theorem vquant (o : VecOp) : Statement (.vquant o) := ofCtor rfl (fun _ => ctorOf_vquant o)
theorem vdeq (o : VecOp) : Statement (.vdeq o) := ofCtor rfl (fun _ => ctorOf_vdeq o)
theorem xexp2 (o : XfOp) : Statement (.xexp2 o) := ofCtor rfl (fun _ => ctorOf_xexp2 o)
theorem xlog2 (o : XfOp) : Statement (.xlog2 o) := ofCtor rfl (fun _ => ctorOf_xlog2 o)
theorem xrcp (o : XfOp) : Statement (.xrcp o) := ofCtor rfl (fun _ => ctorOf_xrcp o)
theorem xrsq (o : XfOp) : Statement (.xrsq o) := ofCtor rfl (fun _ => ctorOf_xrsq o)
theorem xsqrt (o : XfOp) : Statement (.xsqrt o) := ofCtor rfl (fun _ => ctorOf_xsqrt o)
theorem xtanh (o : XfOp) : Statement (.xtanh o) := ofCtor rfl (fun _ => ctorOf_xtanh o)
theorem xsig (o : XfOp) : Statement (.xsig o) := ofCtor rfl (fun _ => ctorOf_xsig o)
theorem xsin (o : XfOp) : Statement (.xsin o) := ofCtor rfl (fun _ => ctorOf_xsin o)
theorem xcos (o : XfOp) : Statement (.xcos o) := ofCtor rfl (fun _ => ctorOf_xcos o)
theorem xfer (o : XfOp) : Statement (.xfer o) := ofCtor rfl (fun _ => ctorOf_xfer o)
theorem xbcast (o : XfOp) : Statement (.xbcast o) := ofCtor rfl (fun _ => ctorOf_xbcast o)
theorem xred (o : XfOp) : Statement (.xred o) := ofCtor rfl (fun _ => ctorOf_xred o)
theorem xdraw (o : XfOp) : Statement (.xdraw o) := ofCtor rfl (fun _ => ctorOf_xdraw o)
theorem trow (o : XtOp) : Statement (.trow o) := ofCtor rfl (fun _ => ctorOf_trow o)
theorem tcol (o : XtOp) : Statement (.tcol o) := ofCtor rfl (fun _ => ctorOf_tcol o)
theorem tclr (o : XtOp) : Statement (.tclr o) := ofCtor rfl (fun _ => ctorOf_tclr o)
theorem tmode (o : XtOp) : Statement (.tmode o) := ofCtor rfl (fun _ => ctorOf_tmode o)
theorem mpush (o : MpushOp) : Statement (.mpush o) := ofCtor rfl (fun _ => ctorOf_mpush o)
theorem mpushT (o : MpushTOp) : Statement (.mpushT o) := ofCtor rfl (fun _ => ctorOf_mpushT o)
theorem mmac (o : MmacOp) : Statement (.mmac o) := ofCtor rfl (fun _ => ctorOf_mmac o)
theorem mmacF (o : MmacOp) : Statement (.mmacF o) := ofCtor rfl (fun _ => ctorOf_mmacF o)
theorem mprom (chk : BitVec 1) : Statement (.mprom chk) := ofCtor rfl (fun _ => ctorOf_mprom chk)
theorem mclr (o : MclrOp) : Statement (.mclr o) := ofCtor rfl (fun _ => ctorOf_mclr o)
theorem mrd (o : MrowOp) : Statement (.mrd o) := ofCtor rfl (fun _ => ctorOf_mrd o)
theorem mwr (o : MrowOp) : Statement (.mwr o) := ofCtor rfl (fun _ => ctorOf_mwr o)
theorem mfmt (entry : BitVec 6) (s : BitVec 5) : Statement (.mfmt entry s) := ofCtor rfl (fun _ => ctorOf_mfmt entry s)
theorem mfsel (level : BitVec 3) (base : BitVec 6) : Statement (.mfsel level base) := ofCtor rfl (fun _ => ctorOf_mfsel level base)
theorem mscq (cnt : BitVec 6) : Statement (.mscq cnt) := ofCtor rfl (fun _ => ctorOf_mscq cnt)
theorem ld (o : LdOp) : Statement (.ld o) := ofCtor rfl (fun _ => ctorOf_ld o)
theorem ldg (o : LdgOp) : Statement (.ldg o) := ofCtor rfl (fun _ => ctorOf_ldg o)
theorem vld (o : VldOp) : Statement (.vld o) := ofCtor rfl (fun _ => ctorOf_vld o)
theorem vlds (o : VmaskOp) : Statement (.vlds o) := ofCtor rfl (fun _ => ctorOf_vlds o)
theorem vgat (o : VwinOp) : Statement (.vgat o) := ofCtor rfl (fun _ => ctorOf_vgat o)
theorem ldsc (o : LdscOp) : Statement (.ldsc o) := ofCtor rfl (fun _ => ctorOf_ldsc o)
theorem st (o : StOp) : Statement (.st o) := ofCtor rfl (fun _ => ctorOf_st o)
theorem stg (o : StgOp) : Statement (.stg o) := ofCtor rfl (fun _ => ctorOf_stg o)
theorem vst (o : VstOp) : Statement (.vst o) := ofCtor rfl (fun _ => ctorOf_vst o)
theorem vsts (o : VmaskOp) : Statement (.vsts o) := ofCtor rfl (fun _ => ctorOf_vsts o)
theorem vsct (o : VwinOp) : Statement (.vsct o) := ofCtor rfl (fun _ => ctorOf_vsct o)
theorem aadd (o : AtomOp) : Statement (.aadd o) := ofCtor rfl (fun _ => ctorOf_aadd o)
theorem amin (o : AtomOp) : Statement (.amin o) := ofCtor rfl (fun _ => ctorOf_amin o)
theorem amax (o : AtomOp) : Statement (.amax o) := ofCtor rfl (fun _ => ctorOf_amax o)
theorem axchg (o : AtomOp) : Statement (.axchg o) := ofCtor rfl (fun _ => ctorOf_axchg o)
theorem acas (o : AtomOp) : Statement (.acas o) := ofCtor rfl (fun _ => ctorOf_acas o)
theorem aand (o : AtomOp) : Statement (.aand o) := ofCtor rfl (fun _ => ctorOf_aand o)
theorem aor (o : AtomOp) : Statement (.aor o) := ofCtor rfl (fun _ => ctorOf_aor o)
theorem axor (o : AtomOp) : Statement (.axor o) := ofCtor rfl (fun _ => ctorOf_axor o)
theorem fence (scope : BitVec 3) : Statement (.fence scope) := ofCtor rfl (fun _ => ctorOf_fence scope)
theorem cpy (o : XferOp) : Statement (.cpy o) := ofCtor rfl (fun _ => ctorOf_cpy o)
theorem cpyb (o : XferOp) : Statement (.cpyb o) := ofCtor rfl (fun _ => ctorOf_cpyb o)
theorem bxfer (o : XferOp) : Statement (.bxfer o) := ofCtor rfl (fun _ => ctorOf_bxfer o)
theorem bxfer2 (o : XferOp) : Statement (.bxfer2 o) := ofCtor rfl (fun _ => ctorOf_bxfer2 o)
theorem hset (o : HsetOp) : Statement (.hset o) := ofCtor rfl (fun _ => ctorOf_hset o)
theorem hwait (handle : BitVec 6) : Statement (.hwait handle) := ofCtor rfl (fun _ => ctorOf_hwait handle)
theorem hrel (handle : BitVec 6) : Statement (.hrel handle) := ofCtor rfl (fun _ => ctorOf_hrel handle)
theorem hprobe (o : HprobeOp) : Statement (.hprobe o) := ofCtor rfl (fun _ => ctorOf_hprobe o)
theorem ccall (o : CollOp) : Statement (.ccall o) := ofCtor rfl (fun _ => ctorOf_ccall o)
theorem ctrig (o : CollOp) : Statement (.ctrig o) := ofCtor rfl (fun _ => ctorOf_ctrig o)
theorem ckpt (o : CollOp) : Statement (.ckpt o) := ofCtor rfl (fun _ => ctorOf_ckpt o)
theorem barInit (o : BarOp) : Statement (.barInit o) := ofCtor rfl (fun _ => ctorOf_barInit o)
theorem barArrive (o : BarOp) : Statement (.barArrive o) := ofCtor rfl (fun _ => ctorOf_barArrive o)
theorem barWait (a : BitVec 5) : Statement (.barWait a) := ofCtor rfl (fun _ => ctorOf_barWait a)
theorem barFini (o : BarOp) : Statement (.barFini o) := ofCtor rfl (fun _ => ctorOf_barFini o)
theorem clk (d : BitVec 5) : Statement (.clk d) := ofCtor rfl (fun _ => ctorOf_clk d)
theorem waitc (a : BitVec 5) (p : BitVec 3) : Statement (.waitc a p) := ofCtor rfl (fun _ => ctorOf_waitc a p)
theorem belayBeginPitch (hIn : BitVec 6) (hOut : BitVec 6) : Statement (.belayBeginPitch hIn hOut) := ofCtor rfl (fun _ => ctorOf_belayBeginPitch hIn hOut)
theorem belayKeepS (lit : BitVec 4) : Statement (.belayKeepS lit) := ofCtor rfl (fun _ => ctorOf_belayKeepS lit)
theorem belayKeepV (lit : BitVec 4) : Statement (.belayKeepV lit) := ofCtor rfl (fun _ => ctorOf_belayKeepV lit)
theorem belayKeepA (o : KeepAOp) : Statement (.belayKeepA o) := ofCtor rfl (fun _ => ctorOf_belayKeepA o)
theorem cmpt (o : CmptOp) : Statement (.cmpt o) := ofCtor rfl (fun _ => ctorOf_cmpt o)
theorem ilock (a : BitVec 5) (b : BitVec 5) : Statement (.ilock a b) := ofCtor rfl (fun _ => ctorOf_ilock a b)
theorem iunlock (a : BitVec 5) (b : BitVec 5) : Statement (.iunlock a b) := ofCtor rfl (fun _ => ctorOf_iunlock a b)
theorem ipref (a : BitVec 5) (b : BitVec 5) : Statement (.ipref a b) := ofCtor rfl (fun _ => ctorOf_ipref a b)
theorem trap (code : BitVec 16) : Statement (.trap code) := ofCtor rfl (fun _ => ctorOf_trap code)
theorem sys (code : BitVec 16) : Statement (.sys code) := ofCtor rfl (fun _ => ctorOf_sys code)
theorem csrr (o : CsrOp) : Statement (.csrr o) := ofCtor rfl (fun _ => ctorOf_csrr o)
theorem csrw (o : CsrOp) : Statement (.csrw o) := ofCtor rfl (fun _ => ctorOf_csrw o)
theorem csrs (o : CsrOp) : Statement (.csrs o) := ofCtor rfl (fun _ => ctorOf_csrs o)
theorem csrc (o : CsrOp) : Statement (.csrc o) := ofCtor rfl (fun _ => ctorOf_csrc o)
theorem bist (a : BitVec 5) : Statement (.bist a) := ofCtor rfl (fun _ => ctorOf_bist a)
theorem timedDispatchRelease (core : CoreId) (id : Nat) : Statement (.timedDispatchRelease core id) := ofNone rfl
theorem matrixQueueStart (core : CoreId) : Statement (.matrixQueueStart core) := ofNone rfl
theorem loopIterationBoundary (core : CoreId) : Statement (.loopIterationBoundary core) := ofNone rfl
theorem instructionStoreSlip (core : CoreId) : Statement (.instructionStoreSlip core) := ofNone rfl
theorem instructionFetchComplete (core : CoreId) (id : Nat) : Statement (.instructionFetchComplete core id) := ofNone rfl
theorem resultLanding (core : CoreId) (id : Nat) : Statement (.resultLanding core id) := ofNone rfl
theorem tileRowLanding (core : CoreId) (id : Nat) : Statement (.tileRowLanding core id) := ofNone rfl
theorem trapHandlerEntry (core : CoreId) : Statement (.trapHandlerEntry core) := ofNone rfl
theorem watchdogExpiry (core : CoreId) : Statement (.watchdogExpiry core) := ofNone rfl
theorem loadTap (core : CoreId) (id : Nat) : Statement (.loadTap core id) := ofNone rfl
theorem storeBankWrite (core : CoreId) (id : Nat) (bank : BitVec 4) : Statement (.storeBankWrite core id bank) := ofNone rfl
theorem scratchpadAtomicRead (core : CoreId) (id : Nat) : Statement (.scratchpadAtomicRead core id) := ofNone rfl
theorem scratchpadAtomicWrite (core : CoreId) (id : Nat) : Statement (.scratchpadAtomicWrite core id) := ofNone rfl
theorem barAccessRead (core : CoreId) (id : Nat) : Statement (.barAccessRead core id) := ofNone rfl
theorem barAccessWrite (core : CoreId) (id : Nat) : Statement (.barAccessWrite core id) := ofNone rfl
theorem interlockedAccessPerform (core : CoreId) (id : Nat) : Statement (.interlockedAccessPerform core id) := ofNone rfl
theorem slotTableSwap (rope : RopeId) : Statement (.slotTableSwap rope) := ofNone rfl
theorem memoryPortTableSwap (die : DieId) : Statement (.memoryPortTableSwap die) := ofNone rfl
theorem memoryPortAccess (die : DieId) (channel : BitVec 5) : Statement (.memoryPortAccess die channel) := ofNone rfl
theorem translationWalkComplete (die : DieId) (id : Nat) : Statement (.translationWalkComplete die id) := ofNone rfl
theorem tbinvPage (core : CoreId) : Statement (.tbinvPage core) := ofNone rfl
theorem tbinvAsid (core : CoreId) : Statement (.tbinvAsid core) := ofNone rfl
theorem tbinvAll (core : CoreId) : Statement (.tbinvAll core) := ofNone rfl
theorem tbinvComplete (die : DieId) : Statement (.tbinvComplete die) := ofNone rfl
theorem farRequestSend (core : CoreId) (id : Nat) : Statement (.farRequestSend core id) := ofNone rfl
theorem farAccessHomeService (core : CoreId) (id : Nat) : Statement (.farAccessHomeService core id) := ofNone rfl
theorem globalAtomicHomeService (core : CoreId) (id : Nat) : Statement (.globalAtomicHomeService core id) := ofNone rfl
theorem farResponseArrival (core : CoreId) (id : Nat) : Statement (.farResponseArrival core id) := ofNone rfl
theorem transferBegin (rope : RopeId) (eng : BitVec 1) : Statement (.transferBegin rope eng) := ofNone rfl
theorem ceReadBeat (rope : RopeId) (eng : BitVec 1) : Statement (.ceReadBeat rope eng) := ofNone rfl
theorem ceOffcoreReadReturn (rope : RopeId) (id : Nat) (line : Nat) : Statement (.ceOffcoreReadReturn rope id line) := ofNone rfl
theorem ceWriteBeat (rope : RopeId) (id : Nat) (line : Nat) : Statement (.ceWriteBeat rope id line) := ofNone rfl
theorem ceOffcoreWritePerform (rope : RopeId) (id : Nat) (line : Nat) : Statement (.ceOffcoreWritePerform rope id line) := ofNone rfl
theorem writeBackBegin (rope : RopeId) (eng : BitVec 1) : Statement (.writeBackBegin rope eng) := ofNone rfl
theorem cefinfoClear (rope : RopeId) : Statement (.cefinfoClear rope) := ofNone rfl
theorem portBeat (rope : RopeId) (id : Nat) : Statement (.portBeat rope id) := ofNone rfl
theorem detectedErrorRollback (core : CoreId) : Statement (.detectedErrorRollback core) := ofNone rfl
theorem rollbackRestore (core : CoreId) : Statement (.rollbackRestore core) := ofNone rfl
theorem regionRestart (core : CoreId) : Statement (.regionRestart core) := ofNone rfl
theorem bistComplete (core : CoreId) : Statement (.bistComplete core) := ofNone rfl
theorem preemptionLanding (core : CoreId) : Statement (.preemptionLanding core) := ofNone rfl
theorem contextSaveComplete (core : CoreId) : Statement (.contextSaveComplete core) := ofNone rfl
theorem preemptionReport (die : DieId) (launch : Nat) : Statement (.preemptionReport die launch) := ofNone rfl
theorem contextRestore (launch : Nat) : Statement (.contextRestore launch) := ofNone rfl
theorem coreRetirement (core : CoreId) : Statement (.coreRetirement core) := ofNone rfl
theorem retirementReport (die : DieId) (launch : Nat) : Statement (.retirementReport die launch) := ofNone rfl
theorem packetLaunch (queue : QueueId) (seq : BitVec 32) : Statement (.packetLaunch queue seq) := ofNone rfl
theorem packetBulkCopy (queue : QueueId) (seq : BitVec 32) : Statement (.packetBulkCopy queue seq) := ofNone rfl
theorem packetWaitOnValue (queue : QueueId) (seq : BitVec 32) : Statement (.packetWaitOnValue queue seq) := ofNone rfl
theorem packetSignal (queue : QueueId) (seq : BitVec 32) : Statement (.packetSignal queue seq) := ofNone rfl
theorem packetTimetableInstall (queue : QueueId) (seq : BitVec 32) : Statement (.packetTimetableInstall queue seq) := ofNone rfl
theorem packetTimetableRemove (queue : QueueId) (seq : BitVec 32) : Statement (.packetTimetableRemove queue seq) := ofNone rfl
theorem packetCheckpointSave (queue : QueueId) (seq : BitVec 32) : Statement (.packetCheckpointSave queue seq) := ofNone rfl
theorem packetCheckpointRestore (queue : QueueId) (seq : BitVec 32) : Statement (.packetCheckpointRestore queue seq) := ofNone rfl
theorem packetMapQuery (queue : QueueId) (seq : BitVec 32) : Statement (.packetMapQuery queue seq) := ofNone rfl
theorem packetInvalid (queue : QueueId) (seq : BitVec 32) : Statement (.packetInvalid queue seq) := ofNone rfl
theorem waitValuePoll (queue : QueueId) (seq : BitVec 32) : Statement (.waitValuePoll queue seq) := ofNone rfl
theorem packetComplete (queue : QueueId) (seq : BitVec 32) : Statement (.packetComplete queue seq) := ofNone rfl
theorem queueAging (queue : QueueId) : Statement (.queueAging queue) := ofNone rfl
theorem launchRecord (id : Nat) : Statement (.launchRecord id) := ofNone rfl
theorem retirementRecord (id : Nat) : Statement (.retirementRecord id) := ofNone rfl
theorem preemptionRecord (id : Nat) : Statement (.preemptionRecord id) := ofNone rfl
theorem mapRecord (id : Nat) : Statement (.mapRecord id) := ofNone rfl
theorem heldTriggerPerform (launch : Nat) : Statement (.heldTriggerPerform launch) := ofNone rfl
theorem mapPublication (die : DieId) : Statement (.mapPublication die) := ofNone rfl
theorem ccallRequest (call : Nat) : Statement (.ccallRequest call) := ofNone rfl
theorem timetableReservation (call : Nat) (chip : Nat) : Statement (.timetableReservation call chip) := ofNone rfl
theorem timetableAcceptance (call : Nat) (chip : Nat) : Statement (.timetableAcceptance call chip) := ofNone rfl
theorem timetableCommit (call : Nat) (chip : Nat) : Statement (.timetableCommit call chip) := ofNone rfl
theorem timetableAcceptDeadline (call : Nat) : Statement (.timetableAcceptDeadline call) := ofNone rfl
theorem timetableInstanceStart (inst : Nat) : Statement (.timetableInstanceStart inst) := ofNone rfl
theorem timetableEntryStart (inst : Nat) (entry : Nat) : Statement (.timetableEntryStart inst entry) := ofNone rfl
theorem timetableEntryCombine (inst : Nat) (entry : Nat) : Statement (.timetableEntryCombine inst entry) := ofNone rfl
theorem timetableInstanceEnd (inst : Nat) : Statement (.timetableInstanceEnd inst) := ofNone rfl
theorem triggerArm (core : CoreId) (id : Nat) : Statement (.triggerArm core id) := ofNone rfl
theorem drainRoundEnd (epoch : BitVec 32) : Statement (.drainRoundEnd epoch) := ofNone rfl
theorem checkpointReadback (ck : Nat) : Statement (.checkpointReadback ck) := ofNone rfl
theorem vmarginSettled (die : DieId) : Statement (.vmarginSettled die) := ofNone rfl
theorem linkmarginScanDone (die : DieId) : Statement (.linkmarginScanDone die) := ofNone rfl
theorem slotTableInstall (rope : RopeId) (tenant : Nat) (image : List Byte) : Statement (.slotTableInstall rope tenant image) := ofNone rfl
theorem memoryPortTableInstall (die : DieId) (tenant : Nat) (image : List Byte) : Statement (.memoryPortTableInstall die tenant image) := ofNone rfl
theorem queueTableWrite (queue : QueueId) (entry : BitVec 256) : Statement (.queueTableWrite queue entry) := ofNone rfl
theorem queueSwitchOut (queue : QueueId) : Statement (.queueSwitchOut queue) := ofNone rfl
theorem queueSwitchIn (queue : QueueId) : Statement (.queueSwitchIn queue) := ofNone rfl
theorem queueReset (queue : QueueId) : Statement (.queueReset queue) := ofNone rfl
theorem hostWindowDescriptorWrite (asid : BitVec 12) (win : BitVec 6) (base : BitVec 64) (len : Nat) (perm : BitVec 3) : Statement (.hostWindowDescriptorWrite asid win base len perm) := ofNone rfl
theorem postedWrite (toDevice : Bool) (w0 : W64) (w1 : W64) (data : List Byte) : Statement (.postedWrite toDevice w0 w1 data) := ofNone rfl
theorem readRequest (toDevice : Bool) (w0 : W64) (w1 : W64) : Statement (.readRequest toDevice w0 w1) := ofNone rfl
theorem readCompletion (toDevice : Bool) (w0 : W64) (w1 : W64) (data : List Byte) : Statement (.readCompletion toDevice w0 w1 data) := ofNone rfl
theorem queueDoorbell (w0 : W64) (w1 : W64) (data : W64) : Statement (.queueDoorbell w0 w1 data) := ofNone rfl
theorem configurationRead (w0 : W64) (w1 : W64) : Statement (.configurationRead w0 w1) := ofNone rfl
theorem refusedTransaction (w0 : W64) : Statement (.refusedTransaction w0) := ofNone rfl
theorem hostLinkTraining (modules : BitVec 4) : Statement (.hostLinkTraining modules) := ofNone rfl
theorem objectUpload (tenant : Nat) (addr : W64) (len : Nat) : Statement (.objectUpload tenant addr len) := ofNone rfl
theorem healthSample (die : DieId) (unit : UnitRef) (margin : Nat) : Statement (.healthSample die unit margin) := ofNone rfl
theorem unitRetest (die : DieId) (unit : UnitRef) (res : RetestResult) : Statement (.unitRetest die unit res) := ofNone rfl
theorem timetableRevalidation (tt : Nat) : Statement (.timetableRevalidation tt) := ofNone rfl
theorem linkTimeout (link : Nat) : Statement (.linkTimeout link) := ofNone rfl
theorem switchTimeout (switch : Nat) : Statement (.switchTimeout switch) := ofNone rfl
theorem groupTimeout (pkg : PkgId) : Statement (.groupTimeout pkg) := ofNone rfl
theorem linkStateUpdate (element : NetElement) (epoch : BitVec 32) (path : UpdatePath) : Statement (.linkStateUpdate element epoch path) := ofNone rfl
theorem memberFailureRecord (pkg : PkgId) (epoch : BitVec 32) : Statement (.memberFailureRecord pkg epoch) := ofNone rfl
theorem reset (die : DieId) : Statement (.reset die) := ofNone rfl
theorem laneRecentre (die : DieId) (channel : BitVec 5) : Statement (.laneRecentre die channel) := ofNone rfl
theorem thermalTrip (die : DieId) : Statement (.thermalTrip die) := ofNone rfl
theorem lifecycleTransition (target : BitVec 3) : Statement (.lifecycleTransition target) := ofNone rfl
theorem tenantReassignment (outgoing : Nat) (incoming : Nat) (part : Partition) : Statement (.tenantReassignment outgoing incoming part) := ofNone rfl
theorem quoteRequest (nonce : List Byte) : Statement (.quoteRequest nonce) := ofNone rfl
theorem vmarginWrite (die : DieId) (v : W64) : Statement (.vmarginWrite die v) := ofNone rfl
theorem linkmarginScanStart (die : DieId) (v : W64) : Statement (.linkmarginScanStart die v) := ofNone rfl
theorem wfiWakeRequest (core : CoreId) : Statement (.wfiWakeRequest core) := ofNone rfl
theorem storageBitFlip (loc : StorageLoc) (uncorrectable : Bool) : Statement (.storageBitFlip loc uncorrectable) := ofNone rfl
theorem idleFlit (link : Nat) : Statement (.idleFlit link) := ofNone rfl
theorem anchor : Statement (.anchor) := ofCtor rfl (fun _ => ctorOf_anchor)
theorem endOp : Statement (.endOp) := ofCtor rfl (fun _ => ctorOf_endOp)
theorem wfar : Statement (.wfar) := ofCtor rfl (fun _ => ctorOf_wfar)
theorem belayBegin : Statement (.belayBegin) := ofCtor rfl (fun _ => ctorOf_belayBegin)
theorem belayEnd : Statement (.belayEnd) := ofCtor rfl (fun _ => ctorOf_belayEnd)
theorem eret : Statement (.eret) := ofCtor rfl (fun _ => ctorOf_eret)
theorem yield : Statement (.yield) := ofCtor rfl (fun _ => ctorOf_yield)
theorem wfi : Statement (.wfi) := ofCtor rfl (fun _ => ctorOf_wfi)
theorem hold : Statement (.hold) := ofNone rfl
theorem launchSelection : Statement (.launchSelection) := ofNone rfl
theorem streamRecovery : Statement (.streamRecovery) := ofNone rfl

end Sys2Proof.Laws.RoundTrip
end

