-- ==== Sys2Proof/Laws/State.lean ====
section
/-!
SUPPORT. One lemma per field per update of the state, and reading an agent after one is changed.
-/

namespace Sys2Proof.Machine

@[simp] theorem State.setCore_cycle (s : State) (c : Nat) (x : Core) : (s.setCore c x).cycle = s.cycle := rfl
@[simp] theorem State.setCore_turn (s : State) (c : Nat) (x : Core) : (s.setCore c x).turn = s.turn := rfl
@[simp] theorem State.setCore_agenda (s : State) (c : Nat) (x : Core) : (s.setCore c x).agenda = s.agenda := rfl
@[simp] theorem State.setCore_bnd (s : State) (c : Nat) (x : Core) : (s.setCore c x).bnd = s.bnd := rfl
@[simp] theorem State.setCore_ropes (s : State) (c : Nat) (x : Core) : (s.setCore c x).ropes = s.ropes := rfl
@[simp] theorem State.setCore_dies (s : State) (c : Nat) (x : Core) : (s.setCore c x).dies = s.dies := rfl
@[simp] theorem State.setCore_mem (s : State) (c : Nat) (x : Core) : (s.setCore c x).mem = s.mem := rfl
@[simp] theorem State.setCore_disp (s : State) (c : Nat) (x : Core) : (s.setCore c x).disp = s.disp := rfl
@[simp] theorem State.setCore_coll (s : State) (c : Nat) (x : Core) : (s.setCore c x).coll = s.coll := rfl
@[simp] theorem State.setCore_host (s : State) (c : Nat) (x : Core) : (s.setCore c x).host = s.host := rfl
@[simp] theorem State.setCore_sec (s : State) (c : Nat) (x : Core) : (s.setCore c x).sec = s.sec := rfl
@[simp] theorem State.setCore_flips (s : State) (c : Nat) (x : Core) : (s.setCore c x).flips = s.flips := rfl
@[simp] theorem State.setCore_nextId (s : State) (c : Nat) (x : Core) : (s.setCore c x).nextId = s.nextId := rfl
@[simp] theorem State.setCore_free (s : State) (c : Nat) (x : Core) : (s.setCore c x).free = s.free := rfl

@[simp] theorem State.modCore_cycle (s : State) (c : Nat) (f : Core → Core) : (s.modCore c f).cycle = s.cycle := rfl
@[simp] theorem State.modCore_turn (s : State) (c : Nat) (f : Core → Core) : (s.modCore c f).turn = s.turn := rfl
@[simp] theorem State.modCore_agenda (s : State) (c : Nat) (f : Core → Core) : (s.modCore c f).agenda = s.agenda := rfl
@[simp] theorem State.modCore_bnd (s : State) (c : Nat) (f : Core → Core) : (s.modCore c f).bnd = s.bnd := rfl
@[simp] theorem State.modCore_ropes (s : State) (c : Nat) (f : Core → Core) : (s.modCore c f).ropes = s.ropes := rfl
@[simp] theorem State.modCore_dies (s : State) (c : Nat) (f : Core → Core) : (s.modCore c f).dies = s.dies := rfl
@[simp] theorem State.modCore_mem (s : State) (c : Nat) (f : Core → Core) : (s.modCore c f).mem = s.mem := rfl
@[simp] theorem State.modCore_disp (s : State) (c : Nat) (f : Core → Core) : (s.modCore c f).disp = s.disp := rfl
@[simp] theorem State.modCore_coll (s : State) (c : Nat) (f : Core → Core) : (s.modCore c f).coll = s.coll := rfl
@[simp] theorem State.modCore_host (s : State) (c : Nat) (f : Core → Core) : (s.modCore c f).host = s.host := rfl
@[simp] theorem State.modCore_sec (s : State) (c : Nat) (f : Core → Core) : (s.modCore c f).sec = s.sec := rfl
@[simp] theorem State.modCore_flips (s : State) (c : Nat) (f : Core → Core) : (s.modCore c f).flips = s.flips := rfl
@[simp] theorem State.modCore_nextId (s : State) (c : Nat) (f : Core → Core) : (s.modCore c f).nextId = s.nextId := rfl
@[simp] theorem State.modCore_free (s : State) (c : Nat) (f : Core → Core) : (s.modCore c f).free = s.free := rfl

@[simp] theorem State.setRope_cycle (s : State) (r : Nat) (x : Rope) : (s.setRope r x).cycle = s.cycle := rfl
@[simp] theorem State.setRope_turn (s : State) (r : Nat) (x : Rope) : (s.setRope r x).turn = s.turn := rfl
@[simp] theorem State.setRope_agenda (s : State) (r : Nat) (x : Rope) : (s.setRope r x).agenda = s.agenda := rfl
@[simp] theorem State.setRope_bnd (s : State) (r : Nat) (x : Rope) : (s.setRope r x).bnd = s.bnd := rfl
@[simp] theorem State.setRope_cores (s : State) (r : Nat) (x : Rope) : (s.setRope r x).cores = s.cores := rfl
@[simp] theorem State.setRope_dies (s : State) (r : Nat) (x : Rope) : (s.setRope r x).dies = s.dies := rfl
@[simp] theorem State.setRope_mem (s : State) (r : Nat) (x : Rope) : (s.setRope r x).mem = s.mem := rfl
@[simp] theorem State.setRope_disp (s : State) (r : Nat) (x : Rope) : (s.setRope r x).disp = s.disp := rfl
@[simp] theorem State.setRope_coll (s : State) (r : Nat) (x : Rope) : (s.setRope r x).coll = s.coll := rfl
@[simp] theorem State.setRope_host (s : State) (r : Nat) (x : Rope) : (s.setRope r x).host = s.host := rfl
@[simp] theorem State.setRope_sec (s : State) (r : Nat) (x : Rope) : (s.setRope r x).sec = s.sec := rfl
@[simp] theorem State.setRope_flips (s : State) (r : Nat) (x : Rope) : (s.setRope r x).flips = s.flips := rfl
@[simp] theorem State.setRope_nextId (s : State) (r : Nat) (x : Rope) : (s.setRope r x).nextId = s.nextId := rfl
@[simp] theorem State.setRope_free (s : State) (r : Nat) (x : Rope) : (s.setRope r x).free = s.free := rfl

@[simp] theorem State.modRope_cycle (s : State) (r : Nat) (f : Rope → Rope) : (s.modRope r f).cycle = s.cycle := rfl
@[simp] theorem State.modRope_turn (s : State) (r : Nat) (f : Rope → Rope) : (s.modRope r f).turn = s.turn := rfl
@[simp] theorem State.modRope_agenda (s : State) (r : Nat) (f : Rope → Rope) : (s.modRope r f).agenda = s.agenda := rfl
@[simp] theorem State.modRope_bnd (s : State) (r : Nat) (f : Rope → Rope) : (s.modRope r f).bnd = s.bnd := rfl
@[simp] theorem State.modRope_cores (s : State) (r : Nat) (f : Rope → Rope) : (s.modRope r f).cores = s.cores := rfl
@[simp] theorem State.modRope_dies (s : State) (r : Nat) (f : Rope → Rope) : (s.modRope r f).dies = s.dies := rfl
@[simp] theorem State.modRope_mem (s : State) (r : Nat) (f : Rope → Rope) : (s.modRope r f).mem = s.mem := rfl
@[simp] theorem State.modRope_disp (s : State) (r : Nat) (f : Rope → Rope) : (s.modRope r f).disp = s.disp := rfl
@[simp] theorem State.modRope_coll (s : State) (r : Nat) (f : Rope → Rope) : (s.modRope r f).coll = s.coll := rfl
@[simp] theorem State.modRope_host (s : State) (r : Nat) (f : Rope → Rope) : (s.modRope r f).host = s.host := rfl
@[simp] theorem State.modRope_sec (s : State) (r : Nat) (f : Rope → Rope) : (s.modRope r f).sec = s.sec := rfl
@[simp] theorem State.modRope_flips (s : State) (r : Nat) (f : Rope → Rope) : (s.modRope r f).flips = s.flips := rfl
@[simp] theorem State.modRope_nextId (s : State) (r : Nat) (f : Rope → Rope) : (s.modRope r f).nextId = s.nextId := rfl
@[simp] theorem State.modRope_free (s : State) (r : Nat) (f : Rope → Rope) : (s.modRope r f).free = s.free := rfl

@[simp] theorem State.setDie_cycle (s : State) (d : Nat) (x : Die) : (s.setDie d x).cycle = s.cycle := rfl
@[simp] theorem State.setDie_turn (s : State) (d : Nat) (x : Die) : (s.setDie d x).turn = s.turn := rfl
@[simp] theorem State.setDie_agenda (s : State) (d : Nat) (x : Die) : (s.setDie d x).agenda = s.agenda := rfl
@[simp] theorem State.setDie_bnd (s : State) (d : Nat) (x : Die) : (s.setDie d x).bnd = s.bnd := rfl
@[simp] theorem State.setDie_cores (s : State) (d : Nat) (x : Die) : (s.setDie d x).cores = s.cores := rfl
@[simp] theorem State.setDie_ropes (s : State) (d : Nat) (x : Die) : (s.setDie d x).ropes = s.ropes := rfl
@[simp] theorem State.setDie_mem (s : State) (d : Nat) (x : Die) : (s.setDie d x).mem = s.mem := rfl
@[simp] theorem State.setDie_disp (s : State) (d : Nat) (x : Die) : (s.setDie d x).disp = s.disp := rfl
@[simp] theorem State.setDie_coll (s : State) (d : Nat) (x : Die) : (s.setDie d x).coll = s.coll := rfl
@[simp] theorem State.setDie_host (s : State) (d : Nat) (x : Die) : (s.setDie d x).host = s.host := rfl
@[simp] theorem State.setDie_sec (s : State) (d : Nat) (x : Die) : (s.setDie d x).sec = s.sec := rfl
@[simp] theorem State.setDie_flips (s : State) (d : Nat) (x : Die) : (s.setDie d x).flips = s.flips := rfl
@[simp] theorem State.setDie_nextId (s : State) (d : Nat) (x : Die) : (s.setDie d x).nextId = s.nextId := rfl
@[simp] theorem State.setDie_free (s : State) (d : Nat) (x : Die) : (s.setDie d x).free = s.free := rfl

@[simp] theorem State.modDie_cycle (s : State) (d : Nat) (f : Die → Die) : (s.modDie d f).cycle = s.cycle := rfl
@[simp] theorem State.modDie_turn (s : State) (d : Nat) (f : Die → Die) : (s.modDie d f).turn = s.turn := rfl
@[simp] theorem State.modDie_agenda (s : State) (d : Nat) (f : Die → Die) : (s.modDie d f).agenda = s.agenda := rfl
@[simp] theorem State.modDie_bnd (s : State) (d : Nat) (f : Die → Die) : (s.modDie d f).bnd = s.bnd := rfl
@[simp] theorem State.modDie_cores (s : State) (d : Nat) (f : Die → Die) : (s.modDie d f).cores = s.cores := rfl
@[simp] theorem State.modDie_ropes (s : State) (d : Nat) (f : Die → Die) : (s.modDie d f).ropes = s.ropes := rfl
@[simp] theorem State.modDie_mem (s : State) (d : Nat) (f : Die → Die) : (s.modDie d f).mem = s.mem := rfl
@[simp] theorem State.modDie_disp (s : State) (d : Nat) (f : Die → Die) : (s.modDie d f).disp = s.disp := rfl
@[simp] theorem State.modDie_coll (s : State) (d : Nat) (f : Die → Die) : (s.modDie d f).coll = s.coll := rfl
@[simp] theorem State.modDie_host (s : State) (d : Nat) (f : Die → Die) : (s.modDie d f).host = s.host := rfl
@[simp] theorem State.modDie_sec (s : State) (d : Nat) (f : Die → Die) : (s.modDie d f).sec = s.sec := rfl
@[simp] theorem State.modDie_flips (s : State) (d : Nat) (f : Die → Die) : (s.modDie d f).flips = s.flips := rfl
@[simp] theorem State.modDie_nextId (s : State) (d : Nat) (f : Die → Die) : (s.modDie d f).nextId = s.nextId := rfl
@[simp] theorem State.modDie_free (s : State) (d : Nat) (f : Die → Die) : (s.modDie d f).free = s.free := rfl

@[simp] theorem State.modQueue_cycle (s : State) (q : Nat) (f : Queue → Queue) : (s.modQueue q f).cycle = s.cycle := rfl
@[simp] theorem State.modQueue_turn (s : State) (q : Nat) (f : Queue → Queue) : (s.modQueue q f).turn = s.turn := rfl
@[simp] theorem State.modQueue_agenda (s : State) (q : Nat) (f : Queue → Queue) : (s.modQueue q f).agenda = s.agenda := rfl
@[simp] theorem State.modQueue_bnd (s : State) (q : Nat) (f : Queue → Queue) : (s.modQueue q f).bnd = s.bnd := rfl
@[simp] theorem State.modQueue_cores (s : State) (q : Nat) (f : Queue → Queue) : (s.modQueue q f).cores = s.cores := rfl
@[simp] theorem State.modQueue_ropes (s : State) (q : Nat) (f : Queue → Queue) : (s.modQueue q f).ropes = s.ropes := rfl
@[simp] theorem State.modQueue_dies (s : State) (q : Nat) (f : Queue → Queue) : (s.modQueue q f).dies = s.dies := rfl
@[simp] theorem State.modQueue_mem (s : State) (q : Nat) (f : Queue → Queue) : (s.modQueue q f).mem = s.mem := rfl
@[simp] theorem State.modQueue_coll (s : State) (q : Nat) (f : Queue → Queue) : (s.modQueue q f).coll = s.coll := rfl
@[simp] theorem State.modQueue_host (s : State) (q : Nat) (f : Queue → Queue) : (s.modQueue q f).host = s.host := rfl
@[simp] theorem State.modQueue_sec (s : State) (q : Nat) (f : Queue → Queue) : (s.modQueue q f).sec = s.sec := rfl
@[simp] theorem State.modQueue_flips (s : State) (q : Nat) (f : Queue → Queue) : (s.modQueue q f).flips = s.flips := rfl
@[simp] theorem State.modQueue_nextId (s : State) (q : Nat) (f : Queue → Queue) : (s.modQueue q f).nextId = s.nextId := rfl
@[simp] theorem State.modQueue_free (s : State) (q : Nat) (f : Queue → Queue) : (s.modQueue q f).free = s.free := rfl

@[simp] theorem State.schedule_cycle (s : State) (t p : Nat) (e : Instr) : (s.schedule t p e).cycle = s.cycle := rfl
@[simp] theorem State.schedule_turn (s : State) (t p : Nat) (e : Instr) : (s.schedule t p e).turn = s.turn := rfl
@[simp] theorem State.schedule_bnd (s : State) (t p : Nat) (e : Instr) : (s.schedule t p e).bnd = s.bnd := rfl
@[simp] theorem State.schedule_cores (s : State) (t p : Nat) (e : Instr) : (s.schedule t p e).cores = s.cores := rfl
@[simp] theorem State.schedule_ropes (s : State) (t p : Nat) (e : Instr) : (s.schedule t p e).ropes = s.ropes := rfl
@[simp] theorem State.schedule_dies (s : State) (t p : Nat) (e : Instr) : (s.schedule t p e).dies = s.dies := rfl
@[simp] theorem State.schedule_mem (s : State) (t p : Nat) (e : Instr) : (s.schedule t p e).mem = s.mem := rfl
@[simp] theorem State.schedule_disp (s : State) (t p : Nat) (e : Instr) : (s.schedule t p e).disp = s.disp := rfl
@[simp] theorem State.schedule_coll (s : State) (t p : Nat) (e : Instr) : (s.schedule t p e).coll = s.coll := rfl
@[simp] theorem State.schedule_host (s : State) (t p : Nat) (e : Instr) : (s.schedule t p e).host = s.host := rfl
@[simp] theorem State.schedule_sec (s : State) (t p : Nat) (e : Instr) : (s.schedule t p e).sec = s.sec := rfl
@[simp] theorem State.schedule_flips (s : State) (t p : Nat) (e : Instr) : (s.schedule t p e).flips = s.flips := rfl
@[simp] theorem State.schedule_nextId (s : State) (t p : Nat) (e : Instr) : (s.schedule t p e).nextId = s.nextId := rfl
@[simp] theorem State.schedule_free (s : State) (t p : Nat) (e : Instr) : (s.schedule t p e).free = s.free := rfl

@[simp] theorem State.fresh_cycle (s : State) : (s.fresh.2).cycle = s.cycle := rfl
@[simp] theorem State.fresh_turn (s : State) : (s.fresh.2).turn = s.turn := rfl
@[simp] theorem State.fresh_agenda (s : State) : (s.fresh.2).agenda = s.agenda := rfl
@[simp] theorem State.fresh_bnd (s : State) : (s.fresh.2).bnd = s.bnd := rfl
@[simp] theorem State.fresh_cores (s : State) : (s.fresh.2).cores = s.cores := rfl
@[simp] theorem State.fresh_ropes (s : State) : (s.fresh.2).ropes = s.ropes := rfl
@[simp] theorem State.fresh_dies (s : State) : (s.fresh.2).dies = s.dies := rfl
@[simp] theorem State.fresh_mem (s : State) : (s.fresh.2).mem = s.mem := rfl
@[simp] theorem State.fresh_disp (s : State) : (s.fresh.2).disp = s.disp := rfl
@[simp] theorem State.fresh_coll (s : State) : (s.fresh.2).coll = s.coll := rfl
@[simp] theorem State.fresh_host (s : State) : (s.fresh.2).host = s.host := rfl
@[simp] theorem State.fresh_sec (s : State) : (s.fresh.2).sec = s.sec := rfl
@[simp] theorem State.fresh_flips (s : State) : (s.fresh.2).flips = s.flips := rfl
@[simp] theorem State.fresh_free (s : State) : (s.fresh.2).free = s.free := rfl

@[simp] theorem State.freshDelay_cycle (s : State) (a : Nat) : ((s.freshDelay a).2).cycle = s.cycle := rfl
@[simp] theorem State.freshDelay_turn (s : State) (a : Nat) : ((s.freshDelay a).2).turn = s.turn := rfl
@[simp] theorem State.freshDelay_agenda (s : State) (a : Nat) : ((s.freshDelay a).2).agenda = s.agenda := rfl
@[simp] theorem State.freshDelay_bnd (s : State) (a : Nat) : ((s.freshDelay a).2).bnd = s.bnd := rfl
@[simp] theorem State.freshDelay_cores (s : State) (a : Nat) : ((s.freshDelay a).2).cores = s.cores := rfl
@[simp] theorem State.freshDelay_ropes (s : State) (a : Nat) : ((s.freshDelay a).2).ropes = s.ropes := rfl
@[simp] theorem State.freshDelay_dies (s : State) (a : Nat) : ((s.freshDelay a).2).dies = s.dies := rfl
@[simp] theorem State.freshDelay_mem (s : State) (a : Nat) : ((s.freshDelay a).2).mem = s.mem := rfl
@[simp] theorem State.freshDelay_disp (s : State) (a : Nat) : ((s.freshDelay a).2).disp = s.disp := rfl
@[simp] theorem State.freshDelay_coll (s : State) (a : Nat) : ((s.freshDelay a).2).coll = s.coll := rfl
@[simp] theorem State.freshDelay_host (s : State) (a : Nat) : ((s.freshDelay a).2).host = s.host := rfl
@[simp] theorem State.freshDelay_sec (s : State) (a : Nat) : ((s.freshDelay a).2).sec = s.sec := rfl
@[simp] theorem State.freshDelay_flips (s : State) (a : Nat) : ((s.freshDelay a).2).flips = s.flips := rfl
@[simp] theorem State.freshDelay_nextId (s : State) (a : Nat) : ((s.freshDelay a).2).nextId = s.nextId := rfl

@[simp] theorem State.scheduleFree_cycle (s : State) (p : Nat) (e : Instr) : (s.scheduleFree p e).cycle = s.cycle := rfl
@[simp] theorem State.scheduleFree_turn (s : State) (p : Nat) (e : Instr) : (s.scheduleFree p e).turn = s.turn := rfl
@[simp] theorem State.scheduleFree_bnd (s : State) (p : Nat) (e : Instr) : (s.scheduleFree p e).bnd = s.bnd := rfl
@[simp] theorem State.scheduleFree_cores (s : State) (p : Nat) (e : Instr) : (s.scheduleFree p e).cores = s.cores := rfl
@[simp] theorem State.scheduleFree_ropes (s : State) (p : Nat) (e : Instr) : (s.scheduleFree p e).ropes = s.ropes := rfl
@[simp] theorem State.scheduleFree_dies (s : State) (p : Nat) (e : Instr) : (s.scheduleFree p e).dies = s.dies := rfl
@[simp] theorem State.scheduleFree_mem (s : State) (p : Nat) (e : Instr) : (s.scheduleFree p e).mem = s.mem := rfl
@[simp] theorem State.scheduleFree_disp (s : State) (p : Nat) (e : Instr) : (s.scheduleFree p e).disp = s.disp := rfl
@[simp] theorem State.scheduleFree_coll (s : State) (p : Nat) (e : Instr) : (s.scheduleFree p e).coll = s.coll := rfl
@[simp] theorem State.scheduleFree_host (s : State) (p : Nat) (e : Instr) : (s.scheduleFree p e).host = s.host := rfl
@[simp] theorem State.scheduleFree_sec (s : State) (p : Nat) (e : Instr) : (s.scheduleFree p e).sec = s.sec := rfl
@[simp] theorem State.scheduleFree_flips (s : State) (p : Nat) (e : Instr) : (s.scheduleFree p e).flips = s.flips := rfl
@[simp] theorem State.scheduleFree_nextId (s : State) (p : Nat) (e : Instr) : (s.scheduleFree p e).nextId = s.nextId := rfl

@[simp] theorem State.fresh_fst (s : State) : s.fresh.1 = s.nextId := rfl
@[simp] theorem State.fresh_nextId (s : State) : s.fresh.2.nextId = s.nextId + 1 := rfl
@[simp] theorem State.freshDelay_free (s : State) (a : Nat) : (s.freshDelay a).2.free = (s.useFree a).free := rfl
@[simp] theorem State.scheduleFree_free (s : State) (p : Nat) (e : Instr) : (s.scheduleFree p e).free = (s.useFree (eventAgent e)).free := rfl

@[simp] theorem State.setCore_core (s : State) (i : Nat) (x : Core) : (s.setCore i x).core i = x := tblGet_set_same _ _ _ _
theorem State.setCore_core_ne (s : State) {i j : Nat} (x : Core) (h : i ≠ j) : (s.setCore i x).core j = s.core j := tblGet_set_ne _ _ h _
@[simp] theorem State.modCore_core (s : State) (i : Nat) (f : Core → Core) : (s.modCore i f).core i = f (s.core i) := tblGet_set_same _ _ _ _
theorem State.modCore_core_ne (s : State) {i j : Nat} (f : Core → Core) (h : i ≠ j) : (s.modCore i f).core j = s.core j := tblGet_set_ne _ _ h _
/-- Reading any core after one is changed. -/
theorem State.modCore_core_any (s : State) (i j : Nat) (f : Core → Core) : (s.modCore i f).core j = if i = j then f (s.core i) else s.core j := tblGet_set _ _ _ _ _
@[simp] theorem State.setRope_core (s : State) (i : Nat) (r : Nat) (x : Rope) : (s.setRope r x).core i = s.core i := rfl
@[simp] theorem State.modRope_core (s : State) (i : Nat) (r : Nat) (f : Rope → Rope) : (s.modRope r f).core i = s.core i := rfl
@[simp] theorem State.setDie_core (s : State) (i : Nat) (d : Nat) (x : Die) : (s.setDie d x).core i = s.core i := rfl
@[simp] theorem State.modDie_core (s : State) (i : Nat) (d : Nat) (f : Die → Die) : (s.modDie d f).core i = s.core i := rfl
@[simp] theorem State.modQueue_core (s : State) (i : Nat) (q : Nat) (f : Queue → Queue) : (s.modQueue q f).core i = s.core i := rfl
@[simp] theorem State.schedule_core (s : State) (i : Nat) (t p : Nat) (e : Instr) : (s.schedule t p e).core i = s.core i := rfl
@[simp] theorem State.fresh_core (s : State) (i : Nat) : (s.fresh.2).core i = s.core i := rfl
@[simp] theorem State.freshDelay_core (s : State) (i : Nat) (a : Nat) : ((s.freshDelay a).2).core i = s.core i := rfl
@[simp] theorem State.scheduleFree_core (s : State) (i : Nat) (p : Nat) (e : Instr) : (s.scheduleFree p e).core i = s.core i := rfl

@[simp] theorem State.setRope_rope (s : State) (i : Nat) (x : Rope) : (s.setRope i x).rope i = x := tblGet_set_same _ _ _ _
theorem State.setRope_rope_ne (s : State) {i j : Nat} (x : Rope) (h : i ≠ j) : (s.setRope i x).rope j = s.rope j := tblGet_set_ne _ _ h _
@[simp] theorem State.modRope_rope (s : State) (i : Nat) (f : Rope → Rope) : (s.modRope i f).rope i = f (s.rope i) := tblGet_set_same _ _ _ _
theorem State.modRope_rope_ne (s : State) {i j : Nat} (f : Rope → Rope) (h : i ≠ j) : (s.modRope i f).rope j = s.rope j := tblGet_set_ne _ _ h _
/-- Reading any rope after one is changed. -/
theorem State.modRope_rope_any (s : State) (i j : Nat) (f : Rope → Rope) : (s.modRope i f).rope j = if i = j then f (s.rope i) else s.rope j := tblGet_set _ _ _ _ _
@[simp] theorem State.setCore_rope (s : State) (i : Nat) (c : Nat) (x : Core) : (s.setCore c x).rope i = s.rope i := rfl
@[simp] theorem State.modCore_rope (s : State) (i : Nat) (c : Nat) (f : Core → Core) : (s.modCore c f).rope i = s.rope i := rfl
@[simp] theorem State.setDie_rope (s : State) (i : Nat) (d : Nat) (x : Die) : (s.setDie d x).rope i = s.rope i := rfl
@[simp] theorem State.modDie_rope (s : State) (i : Nat) (d : Nat) (f : Die → Die) : (s.modDie d f).rope i = s.rope i := rfl
@[simp] theorem State.modQueue_rope (s : State) (i : Nat) (q : Nat) (f : Queue → Queue) : (s.modQueue q f).rope i = s.rope i := rfl
@[simp] theorem State.schedule_rope (s : State) (i : Nat) (t p : Nat) (e : Instr) : (s.schedule t p e).rope i = s.rope i := rfl
@[simp] theorem State.fresh_rope (s : State) (i : Nat) : (s.fresh.2).rope i = s.rope i := rfl
@[simp] theorem State.freshDelay_rope (s : State) (i : Nat) (a : Nat) : ((s.freshDelay a).2).rope i = s.rope i := rfl
@[simp] theorem State.scheduleFree_rope (s : State) (i : Nat) (p : Nat) (e : Instr) : (s.scheduleFree p e).rope i = s.rope i := rfl

@[simp] theorem State.setDie_die (s : State) (i : Nat) (x : Die) : (s.setDie i x).die i = x := tblGet_set_same _ _ _ _
theorem State.setDie_die_ne (s : State) {i j : Nat} (x : Die) (h : i ≠ j) : (s.setDie i x).die j = s.die j := tblGet_set_ne _ _ h _
@[simp] theorem State.modDie_die (s : State) (i : Nat) (f : Die → Die) : (s.modDie i f).die i = f (s.die i) := tblGet_set_same _ _ _ _
theorem State.modDie_die_ne (s : State) {i j : Nat} (f : Die → Die) (h : i ≠ j) : (s.modDie i f).die j = s.die j := tblGet_set_ne _ _ h _
/-- Reading any die after one is changed. -/
theorem State.modDie_die_any (s : State) (i j : Nat) (f : Die → Die) : (s.modDie i f).die j = if i = j then f (s.die i) else s.die j := tblGet_set _ _ _ _ _
@[simp] theorem State.setCore_die (s : State) (i : Nat) (c : Nat) (x : Core) : (s.setCore c x).die i = s.die i := rfl
@[simp] theorem State.modCore_die (s : State) (i : Nat) (c : Nat) (f : Core → Core) : (s.modCore c f).die i = s.die i := rfl
@[simp] theorem State.setRope_die (s : State) (i : Nat) (r : Nat) (x : Rope) : (s.setRope r x).die i = s.die i := rfl
@[simp] theorem State.modRope_die (s : State) (i : Nat) (r : Nat) (f : Rope → Rope) : (s.modRope r f).die i = s.die i := rfl
@[simp] theorem State.modQueue_die (s : State) (i : Nat) (q : Nat) (f : Queue → Queue) : (s.modQueue q f).die i = s.die i := rfl
@[simp] theorem State.schedule_die (s : State) (i : Nat) (t p : Nat) (e : Instr) : (s.schedule t p e).die i = s.die i := rfl
@[simp] theorem State.fresh_die (s : State) (i : Nat) : (s.fresh.2).die i = s.die i := rfl
@[simp] theorem State.freshDelay_die (s : State) (i : Nat) (a : Nat) : ((s.freshDelay a).2).die i = s.die i := rfl
@[simp] theorem State.scheduleFree_die (s : State) (i : Nat) (p : Nat) (e : Instr) : (s.scheduleFree p e).die i = s.die i := rfl

@[simp] theorem State.modQueue_queue (s : State) (q : Nat) (f : Queue → Queue) : (s.modQueue q f).queue q = f (s.queue q) := tblGet_set_same _ _ _ _
theorem State.modQueue_queue_ne (s : State) {q j : Nat} (f : Queue → Queue) (h : q ≠ j) : (s.modQueue q f).queue j = s.queue j := tblGet_set_ne _ _ h _
@[simp] theorem State.setCore_queue (s : State) (i : Nat) (c : Nat) (x : Core) : (s.setCore c x).queue i = s.queue i := rfl
@[simp] theorem State.modCore_queue (s : State) (i : Nat) (c : Nat) (f : Core → Core) : (s.modCore c f).queue i = s.queue i := rfl
@[simp] theorem State.setRope_queue (s : State) (i : Nat) (r : Nat) (x : Rope) : (s.setRope r x).queue i = s.queue i := rfl
@[simp] theorem State.modRope_queue (s : State) (i : Nat) (r : Nat) (f : Rope → Rope) : (s.modRope r f).queue i = s.queue i := rfl
@[simp] theorem State.setDie_queue (s : State) (i : Nat) (d : Nat) (x : Die) : (s.setDie d x).queue i = s.queue i := rfl
@[simp] theorem State.modDie_queue (s : State) (i : Nat) (d : Nat) (f : Die → Die) : (s.modDie d f).queue i = s.queue i := rfl
@[simp] theorem State.schedule_queue (s : State) (i : Nat) (t p : Nat) (e : Instr) : (s.schedule t p e).queue i = s.queue i := rfl
@[simp] theorem State.fresh_queue (s : State) (i : Nat) : (s.fresh.2).queue i = s.queue i := rfl
@[simp] theorem State.freshDelay_queue (s : State) (i : Nat) (a : Nat) : ((s.freshDelay a).2).queue i = s.queue i := rfl
@[simp] theorem State.scheduleFree_queue (s : State) (i : Nat) (p : Nat) (e : Instr) : (s.scheduleFree p e).queue i = s.queue i := rfl

/-! ### Control registers -/

@[simp] theorem Core.csrSet_regs (c : Core) (n : Nat) (v : W64) : (c.csrSet n v).regs = c.regs := rfl
@[simp] theorem Core.csrSet_seq (c : Core) (n : Nat) (v : W64) : (c.csrSet n v).seq = c.seq := rfl
@[simp] theorem Core.csrSet_inflight (c : Core) (n : Nat) (v : W64) : (c.csrSet n v).inflight = c.inflight := rfl
@[simp] theorem Core.csrSet_td (c : Core) (n : Nat) (v : W64) : (c.csrSet n v).td = c.td := rfl
@[simp] theorem Core.csrSet_mx (c : Core) (n : Nat) (v : W64) : (c.csrSet n v).mx = c.mx := rfl
@[simp] theorem Core.csrSet_xt (c : Core) (n : Nat) (v : W64) : (c.csrSet n v).xt = c.xt := rfl
@[simp] theorem Core.csrSet_far (c : Core) (n : Nat) (v : W64) : (c.csrSet n v).far = c.far := rfl
@[simp] theorem Core.csrSet_belay (c : Core) (n : Nat) (v : W64) : (c.csrSet n v).belay = c.belay := rfl
@[simp] theorem Core.csrSet_latch (c : Core) (n : Nat) (v : W64) : (c.csrSet n v).latch = c.latch := rfl
@[simp] theorem Core.csrSet_code (c : Core) (n : Nat) (v : W64) : (c.csrSet n v).code = c.code := rfl
@[simp] theorem Core.csrSet_frame (c : Core) (n : Nat) (v : W64) : (c.csrSet n v).frame = c.frame := rfl
@[simp] theorem Core.csrSet_replay (c : Core) (n : Nat) (v : W64) : (c.csrSet n v).replay = c.replay := rfl
@[simp] theorem Core.csrSet_owed (c : Core) (n : Nat) (v : W64) : (c.csrSet n v).owed = c.owed := rfl
@[simp] theorem Core.csrSet_owedFpe (c : Core) (n : Nat) (v : W64) : (c.csrSet n v).owedFpe = c.owedFpe := rfl
@[simp] theorem Core.csrSet_owedAt (c : Core) (n : Nat) (v : W64) : (c.csrSet n v).owedAt = c.owedAt := rfl
@[simp] theorem Core.csrSet_save (c : Core) (n : Nat) (v : W64) : (c.csrSet n v).save = c.save := rfl
@[simp] theorem Core.csrSet_slip (c : Core) (n : Nat) (v : W64) : (c.csrSet n v).slip = c.slip := rfl
@[simp] theorem Core.csrSet_test (c : Core) (n : Nat) (v : W64) : (c.csrSet n v).test = c.test := rfl
@[simp] theorem Core.csrSet_units (c : Core) (n : Nat) (v : W64) : (c.csrSet n v).units = c.units := rfl
@[simp] theorem Core.csrSet_launch (c : Core) (n : Nat) (v : W64) : (c.csrSet n v).launch = c.launch := rfl
@[simp] theorem Core.csrSet_used (c : Core) (n : Nat) (v : W64) : (c.csrSet n v).used = c.used := rfl
@[simp] theorem Core.csrSet_dispNext (c : Core) (n : Nat) (v : W64) : (c.csrSet n v).dispNext = c.dispNext := rfl
@[simp] theorem Core.csrSet_evacuate (c : Core) (n : Nat) (v : W64) : (c.csrSet n v).evacuate = c.evacuate := rfl
@[simp] theorem Core.csrSet_heldXfers (c : Core) (n : Nat) (v : W64) : (c.csrSet n v).heldXfers = c.heldXfers := rfl
@[simp] theorem Core.csrSet_leaving (c : Core) (n : Nat) (v : W64) : (c.csrSet n v).leaving = c.leaving := rfl
@[simp] theorem Core.csrSet_fpRow (c : Core) (n : Nat) (v : W64) : (c.csrSet n v).fpRow = c.fpRow := rfl
@[simp] theorem Core.csrSet_hw (c : Core) (n : Nat) (v : W64) : (c.csrSet n v).hw = c.hw := rfl
@[simp] theorem Core.csrGet_csrSet (c : Core) (n : Nat) (v : W64) : (c.csrSet n v).csrGet n = v := tblGet_set_same _ _ _ _
theorem Core.csrGet_csrSet_ne (c : Core) {n m : Nat} (v : W64) (h : n ≠ m) : (c.csrSet n v).csrGet m = c.csrGet m := tblGet_set_ne _ _ h _
theorem Core.csrGet_csrSet_any (c : Core) (n m : Nat) (v : W64) : (c.csrSet n v).csrGet m = if n = m then v else c.csrGet m := by
  by_cases h : n = m
  · subst h; simp
  · simp [h, Core.csrGet_csrSet_ne c v h]

@[simp] theorem Core.csrSetAll_regs (c : Core) (l : List (Nat × W64)) : (c.csrSetAll l).regs = c.regs := by
  unfold Core.csrSetAll
  induction l generalizing c with
  | nil => rfl
  | cons e l ih => exact (ih _).trans (Core.csrSet_regs c e.1 e.2)
@[simp] theorem Core.csrSetAll_seq (c : Core) (l : List (Nat × W64)) : (c.csrSetAll l).seq = c.seq := by
  unfold Core.csrSetAll
  induction l generalizing c with
  | nil => rfl
  | cons e l ih => exact (ih _).trans (Core.csrSet_seq c e.1 e.2)
@[simp] theorem Core.csrSetAll_inflight (c : Core) (l : List (Nat × W64)) : (c.csrSetAll l).inflight = c.inflight := by
  unfold Core.csrSetAll
  induction l generalizing c with
  | nil => rfl
  | cons e l ih => exact (ih _).trans (Core.csrSet_inflight c e.1 e.2)
@[simp] theorem Core.csrSetAll_td (c : Core) (l : List (Nat × W64)) : (c.csrSetAll l).td = c.td := by
  unfold Core.csrSetAll
  induction l generalizing c with
  | nil => rfl
  | cons e l ih => exact (ih _).trans (Core.csrSet_td c e.1 e.2)
@[simp] theorem Core.csrSetAll_mx (c : Core) (l : List (Nat × W64)) : (c.csrSetAll l).mx = c.mx := by
  unfold Core.csrSetAll
  induction l generalizing c with
  | nil => rfl
  | cons e l ih => exact (ih _).trans (Core.csrSet_mx c e.1 e.2)
@[simp] theorem Core.csrSetAll_xt (c : Core) (l : List (Nat × W64)) : (c.csrSetAll l).xt = c.xt := by
  unfold Core.csrSetAll
  induction l generalizing c with
  | nil => rfl
  | cons e l ih => exact (ih _).trans (Core.csrSet_xt c e.1 e.2)
@[simp] theorem Core.csrSetAll_far (c : Core) (l : List (Nat × W64)) : (c.csrSetAll l).far = c.far := by
  unfold Core.csrSetAll
  induction l generalizing c with
  | nil => rfl
  | cons e l ih => exact (ih _).trans (Core.csrSet_far c e.1 e.2)
@[simp] theorem Core.csrSetAll_belay (c : Core) (l : List (Nat × W64)) : (c.csrSetAll l).belay = c.belay := by
  unfold Core.csrSetAll
  induction l generalizing c with
  | nil => rfl
  | cons e l ih => exact (ih _).trans (Core.csrSet_belay c e.1 e.2)
@[simp] theorem Core.csrSetAll_latch (c : Core) (l : List (Nat × W64)) : (c.csrSetAll l).latch = c.latch := by
  unfold Core.csrSetAll
  induction l generalizing c with
  | nil => rfl
  | cons e l ih => exact (ih _).trans (Core.csrSet_latch c e.1 e.2)
@[simp] theorem Core.csrSetAll_code (c : Core) (l : List (Nat × W64)) : (c.csrSetAll l).code = c.code := by
  unfold Core.csrSetAll
  induction l generalizing c with
  | nil => rfl
  | cons e l ih => exact (ih _).trans (Core.csrSet_code c e.1 e.2)
@[simp] theorem Core.csrSetAll_frame (c : Core) (l : List (Nat × W64)) : (c.csrSetAll l).frame = c.frame := by
  unfold Core.csrSetAll
  induction l generalizing c with
  | nil => rfl
  | cons e l ih => exact (ih _).trans (Core.csrSet_frame c e.1 e.2)
@[simp] theorem Core.csrSetAll_replay (c : Core) (l : List (Nat × W64)) : (c.csrSetAll l).replay = c.replay := by
  unfold Core.csrSetAll
  induction l generalizing c with
  | nil => rfl
  | cons e l ih => exact (ih _).trans (Core.csrSet_replay c e.1 e.2)
@[simp] theorem Core.csrSetAll_owed (c : Core) (l : List (Nat × W64)) : (c.csrSetAll l).owed = c.owed := by
  unfold Core.csrSetAll
  induction l generalizing c with
  | nil => rfl
  | cons e l ih => exact (ih _).trans (Core.csrSet_owed c e.1 e.2)
@[simp] theorem Core.csrSetAll_owedFpe (c : Core) (l : List (Nat × W64)) : (c.csrSetAll l).owedFpe = c.owedFpe := by
  unfold Core.csrSetAll
  induction l generalizing c with
  | nil => rfl
  | cons e l ih => exact (ih _).trans (Core.csrSet_owedFpe c e.1 e.2)
@[simp] theorem Core.csrSetAll_owedAt (c : Core) (l : List (Nat × W64)) : (c.csrSetAll l).owedAt = c.owedAt := by
  unfold Core.csrSetAll
  induction l generalizing c with
  | nil => rfl
  | cons e l ih => exact (ih _).trans (Core.csrSet_owedAt c e.1 e.2)
@[simp] theorem Core.csrSetAll_save (c : Core) (l : List (Nat × W64)) : (c.csrSetAll l).save = c.save := by
  unfold Core.csrSetAll
  induction l generalizing c with
  | nil => rfl
  | cons e l ih => exact (ih _).trans (Core.csrSet_save c e.1 e.2)
@[simp] theorem Core.csrSetAll_slip (c : Core) (l : List (Nat × W64)) : (c.csrSetAll l).slip = c.slip := by
  unfold Core.csrSetAll
  induction l generalizing c with
  | nil => rfl
  | cons e l ih => exact (ih _).trans (Core.csrSet_slip c e.1 e.2)
@[simp] theorem Core.csrSetAll_test (c : Core) (l : List (Nat × W64)) : (c.csrSetAll l).test = c.test := by
  unfold Core.csrSetAll
  induction l generalizing c with
  | nil => rfl
  | cons e l ih => exact (ih _).trans (Core.csrSet_test c e.1 e.2)
@[simp] theorem Core.csrSetAll_units (c : Core) (l : List (Nat × W64)) : (c.csrSetAll l).units = c.units := by
  unfold Core.csrSetAll
  induction l generalizing c with
  | nil => rfl
  | cons e l ih => exact (ih _).trans (Core.csrSet_units c e.1 e.2)
@[simp] theorem Core.csrSetAll_launch (c : Core) (l : List (Nat × W64)) : (c.csrSetAll l).launch = c.launch := by
  unfold Core.csrSetAll
  induction l generalizing c with
  | nil => rfl
  | cons e l ih => exact (ih _).trans (Core.csrSet_launch c e.1 e.2)
@[simp] theorem Core.csrSetAll_used (c : Core) (l : List (Nat × W64)) : (c.csrSetAll l).used = c.used := by
  unfold Core.csrSetAll
  induction l generalizing c with
  | nil => rfl
  | cons e l ih => exact (ih _).trans (Core.csrSet_used c e.1 e.2)
@[simp] theorem Core.csrSetAll_dispNext (c : Core) (l : List (Nat × W64)) : (c.csrSetAll l).dispNext = c.dispNext := by
  unfold Core.csrSetAll
  induction l generalizing c with
  | nil => rfl
  | cons e l ih => exact (ih _).trans (Core.csrSet_dispNext c e.1 e.2)
@[simp] theorem Core.csrSetAll_evacuate (c : Core) (l : List (Nat × W64)) : (c.csrSetAll l).evacuate = c.evacuate := by
  unfold Core.csrSetAll
  induction l generalizing c with
  | nil => rfl
  | cons e l ih => exact (ih _).trans (Core.csrSet_evacuate c e.1 e.2)
@[simp] theorem Core.csrSetAll_heldXfers (c : Core) (l : List (Nat × W64)) : (c.csrSetAll l).heldXfers = c.heldXfers := by
  unfold Core.csrSetAll
  induction l generalizing c with
  | nil => rfl
  | cons e l ih => exact (ih _).trans (Core.csrSet_heldXfers c e.1 e.2)
/-- A CSR that a list does not name keeps its value. -/
@[simp] theorem Core.csrSetAll_leaving (c : Core) (l : List (Nat × W64)) : (c.csrSetAll l).leaving = c.leaving := by
  unfold Core.csrSetAll
  induction l generalizing c with
  | nil => rfl
  | cons e l ih => exact (ih _).trans (Core.csrSet_leaving c e.1 e.2)
/-- A CSR that a list does not name keeps its value. -/
@[simp] theorem Core.csrSetAll_fpRow (c : Core) (l : List (Nat × W64)) : (c.csrSetAll l).fpRow = c.fpRow := by
  unfold Core.csrSetAll
  induction l generalizing c with
  | nil => rfl
  | cons e l ih => exact (ih _).trans (Core.csrSet_fpRow c e.1 e.2)
/-- A CSR that a list does not name keeps its value. -/
@[simp] theorem Core.csrSetAll_hw (c : Core) (l : List (Nat × W64)) : (c.csrSetAll l).hw = c.hw := by
  unfold Core.csrSetAll
  induction l generalizing c with
  | nil => rfl
  | cons e l ih => exact (ih _).trans (Core.csrSet_hw c e.1 e.2)
/-- A CSR that a list does not name keeps its value. -/
theorem Core.csrGet_csrSetAll_ne (c : Core) (l : List (Nat × W64)) (n : Nat) (h : ∀ e ∈ l, e.1 ≠ n) :
    (c.csrSetAll l).csrGet n = c.csrGet n := by
  unfold Core.csrSetAll
  induction l generalizing c with
  | nil => rfl
  | cons e l ih =>
    exact (ih _ (fun x hx => h x (by simp [hx]))).trans (Core.csrGet_csrSet_ne c e.2 (h e (by simp)))

theorem Core.csrSetAll_append (c : Core) (l m : List (Nat × W64)) : c.csrSetAll (l ++ m) = (c.csrSetAll l).csrSetAll m := by
  simp [Core.csrSetAll, List.foldl_append]

@[simp] theorem Core.csrSetAll_cons (c : Core) (e : Nat × W64) (l : List (Nat × W64)) : c.csrSetAll (e :: l) = (c.csrSet e.1 e.2).csrSetAll l := rfl
@[simp] theorem Core.csrSetAll_nil (c : Core) : c.csrSetAll [] = c := rfl

/-! ### Registers (R39) -/

/-- s0 reads zero whatever is written. -/
@[simp] theorem RegFile.sGet_zero (r : RegFile) : r.sGet 0 = 0#64 := rfl
/-- p0 reads 1. -/
@[simp] theorem RegFile.pGet_zero (r : RegFile) : r.pGet 0 = true := rfl
/-- q0 reads all ones. -/
@[simp] theorem RegFile.qGet_zero (r : RegFile) (p : Nat) : r.qGet p 0 = 0xFFFF#16 := rfl

/-- A scalar register reads as it was written. -/
theorem RegFile.sGet_write (r : RegFile) {n : Nat} (v : W64) (h : n ≠ 0) : (r.write (.s n v)).sGet n = v := by
  simp [RegFile.write, RegFile.sGet, h]

theorem RegFile.sGet_write_ne (r : RegFile) {n m : Nat} (v : W64) (h : n ≠ m) : (r.write (.s n v)).sGet m = r.sGet m := by
  unfold RegFile.write RegFile.sGet
  by_cases hn : n = 0
  · simp [hn]
  · simp [hn, tblGet_put_ne _ _ h]

/-- A vector lane reads as it was written. -/
@[simp] theorem RegFile.vGet_write (r : RegFile) (k : Nat) (w : W32) : (r.write (.v k w)).vGet k = w := by
  simp [RegFile.write, RegFile.vGet]

theorem RegFile.vGet_write_ne (r : RegFile) {k j : Nat} (w : W32) (h : k ≠ j) : (r.write (.v k w)).vGet j = r.vGet j := by
  simp [RegFile.write, RegFile.vGet, tblGet_put_ne _ _ h]

theorem setBit_getLsbD {n : Nat} (w : BitVec n) (i j : Nat) (b : Bool) (hi : i < n) :
    bitAt (setBit w i b) j = if i = j then b else bitAt w j := by
  have h2 : (BitVec.ofNat n (2 ^ i)).getLsbD j = decide (i = j) := by
    rw [BitVec.getLsbD_ofNat, Nat.testBit_two_pow]
    by_cases h : i = j
    · subst h; simp [hi]
    · simp [h]
  unfold bitAt setBit
  generalize BitVec.ofNat n (2 ^ i) = m at h2
  cases b
  · by_cases h : i = j
    · subst h; simp [h2]
    · by_cases hj : j < n
      · simp only [h, decide_false] at h2
        simp [h, hj, -BitVec.getLsbD_eq_getElem, h2]
      · simp [h2, h, BitVec.getLsbD_of_ge w j (by omega)]
  · by_cases h : i = j
    · subst h; simp [h2]
    · simp [h2, h]

/-- A predicate reads as it was written. -/
theorem RegFile.pGet_write (r : RegFile) {n : Nat} (b : Bool) (h : n ≠ 0) (hn : n < 8) : (r.write (.p n b)).pGet n = b := by
  simp [RegFile.write, RegFile.pGet, h, setBit_getLsbD _ _ _ _ hn]

theorem RegFile.pGet_write_ne (r : RegFile) {n m : Nat} (b : Bool) (hn : n < 8) (h : n ≠ m) :
    (r.write (.p n b)).pGet m = r.pGet m := by
  unfold RegFile.write RegFile.pGet
  by_cases h0 : n = 0
  · simp [h0]
  · simp [h0, setBit_getLsbD _ _ _ _ hn, h]

end Sys2Proof.Machine
end

