-- ==== Sys2Proof/Laws/Slot.lean ====
section
/-!
SUPPORT. What the shared operations of the slots can do: an operation with nothing in its way acts on the accepted state, and `land` puts one result in
flight and changes nothing else.
-/

namespace Sys2Proof.Machine

/-! ### The agenda only grows -/

theorem mem_insertDue (d x : Due) (l : List Due) : x ∈ insertDue d l ↔ x = d ∨ x ∈ l := by
  induction l with
  | nil => simp [insertDue]
  | cons y t ih =>
    unfold insertDue
    split
    · simp only [List.mem_cons, ih]; tauto
    · simp [List.mem_cons]

theorem mem_insertLanding (d x : Due) (f : Instr → Bool) (l : List Due) : x ∈ insertLanding d f l ↔ x = d ∨ x ∈ l := by
  induction l with
  | nil => simp [insertLanding]
  | cons y t ih =>
    unfold insertLanding
    split
    · simp only [List.mem_cons, ih]; tauto
    · simp [List.mem_cons]

/-! ### Fields that the shared operations leave alone -/

@[simp] theorem State.takeSq_cycle (s : State) : s.takeSq.cycle = s.cycle := by unfold State.takeSq; split <;> rfl
@[simp] theorem State.takeSq_turn (s : State) : s.takeSq.turn = s.turn := by unfold State.takeSq; split <;> rfl
@[simp] theorem State.takeSq_mem (s : State) : s.takeSq.mem = s.mem := by unfold State.takeSq; split <;> rfl
@[simp] theorem State.takeSq_ropes (s : State) : s.takeSq.ropes = s.ropes := by unfold State.takeSq; split <;> rfl
@[simp] theorem State.takeSq_dies (s : State) : s.takeSq.dies = s.dies := by unfold State.takeSq; split <;> rfl
@[simp] theorem State.takeSq_disp (s : State) : s.takeSq.disp = s.disp := by unfold State.takeSq; split <;> rfl
@[simp] theorem State.takeSq_coll (s : State) : s.takeSq.coll = s.coll := by unfold State.takeSq; split <;> rfl
@[simp] theorem State.takeSq_host (s : State) : s.takeSq.host = s.host := by unfold State.takeSq; split <;> rfl
@[simp] theorem State.takeSq_sec (s : State) : s.takeSq.sec = s.sec := by unfold State.takeSq; split <;> rfl
@[simp] theorem State.takeSq_flips (s : State) : s.takeSq.flips = s.flips := by unfold State.takeSq; split <;> rfl
@[simp] theorem State.takeSq_agenda (s : State) : s.takeSq.agenda = s.agenda := by unfold State.takeSq; split <;> rfl
@[simp] theorem State.takeSq_nextId (s : State) : s.takeSq.nextId = s.nextId := by unfold State.takeSq; split <;> rfl
@[simp] theorem State.takeSq_free (s : State) : s.takeSq.free = s.free := by unfold State.takeSq; split <;> rfl
@[simp] theorem State.takeSq_bnd_core (s : State) : s.takeSq.bnd.core = s.bnd.core := by unfold State.takeSq; split <;> rfl
@[simp] theorem State.takeSq_bnd_slot (s : State) : s.takeSq.bnd.slot = s.bnd.slot := by unfold State.takeSq; split <;> rfl
@[simp] theorem State.takeSq_bnd_word (s : State) : s.takeSq.bnd.word = s.bnd.word := by unfold State.takeSq; split <;> rfl
@[simp] theorem State.takeSq_bnd_pc (s : State) : s.takeSq.bnd.lat.pc = s.bnd.lat.pc := by unfold State.takeSq; split <;> rfl
@[simp] theorem State.takeSq_bnd_regs (s : State) : s.takeSq.bnd.lat.regs = s.bnd.lat.regs := by unfold State.takeSq; split <;> rfl
@[simp] theorem State.takeSq_bnd_handler (s : State) : s.takeSq.bnd.handler = s.bnd.handler := by unfold State.takeSq; split <;> rfl
@[simp] theorem State.takeSq_bnd_ctl (s : State) : s.takeSq.bnd.ctl = s.bnd.ctl := by unfold State.takeSq; split <;> rfl
@[simp] theorem State.takeSq_bnd_faulted (s : State) : s.takeSq.bnd.faulted = s.bnd.faulted := by unfold State.takeSq; split <;> rfl
@[simp] theorem State.takeSq_bnd_queued (s : State) : s.takeSq.bnd.queued = s.bnd.queued := by unfold State.takeSq; split <;> rfl
@[simp] theorem State.takeSq_bnd_probing (s : State) : s.takeSq.bnd.probing = s.bnd.probing := by unfold State.takeSq; split <;> rfl
@[simp] theorem State.takeSq_bnd_replaying (s : State) : s.takeSq.bnd.replaying = s.bnd.replaying := by unfold State.takeSq; split <;> rfl
@[simp] theorem State.takeSq_die (s : State) (d : Nat) : s.takeSq.die d = s.die d := by unfold State.takeSq; split <;> rfl

/-- Taking `RNDSEQ` changes one CSR of the issuing core, and its record of the cycle's hardware updates (R210, R350). -/
theorem State.takeSq_core (s : State) (j : Nat) :
    s.takeSq.core j = s.core j ∨ (j = s.bnd.core ∧ ∃ v h, s.takeSq.core j = { (s.core j).csrSet 0x004 v with hw := h }) := by
  unfold State.takeSq
  split
  · exact .inl rfl
  · have hj : (s.modCore s.bnd.core (fun x => x.count s.cycle 0x004 1)).core j = s.core j ∨
        (j = s.bnd.core ∧ ∃ v h, (s.modCore s.bnd.core (fun x => x.count s.cycle 0x004 1)).core j = { (s.core j).csrSet 0x004 v with hw := h }) := by
      by_cases h : s.bnd.core = j
      · subst h
        exact .inr ⟨rfl, _, _, State.modCore_core s s.bnd.core _⟩
      · exact .inl (State.modCore_core_ne s _ h)
    exact hj

@[simp] theorem Core.occupy_csrGet (c : Core) (n : Nat) (u : SlotUse) (k : Nat) : (c.occupy n u).csrGet k = c.csrGet k := rfl

/-- A state that follows `s` within one operation: what is in flight beside `rs`, the agenda, and every other piece of state stay. -/
structure Extends (s t : State) (rs : List (Nat × Effect × FpFlags)) : Prop where
  results : Results s t rs
  keeps : Keeps s t
  agenda : ∀ d ∈ s.agenda, d ∈ t.agenda
  ids : s.nextId ≤ t.nextId
  pc : t.bnd.lat.pc = s.bnd.lat.pc
  word : t.bnd.word = s.bnd.word
  handler : t.bnd.handler = s.bnd.handler
  ctl : t.bnd.ctl = s.bnd.ctl

theorem Extends.gives {s t : State} {rs : List (Nat × Effect × FpFlags)} (h : Extends s t rs) : Gives (.next t) s rs :=
  ⟨t, rfl, h.results, h.keeps, h.ctl⟩

/-- What two steps leave alone. -/
theorem Inside.trans' {x y z : Core} (h' : Inside y z) (h : Inside x y) : Inside x z :=
  ⟨h'.regs.trans h.regs, fun n hn => (h'.csr n hn).trans (h.csr n hn), h'.td.trans h.td, h'.mx.trans h.mx, h'.xt.trans h.xt, h'.belay.trans h.belay,
    h'.code.trans h.code, h'.frame.trans h.frame, h'.replay.trans h.replay, h'.save.trans h.save, h'.slip.trans h.slip, h'.test.trans h.test, h'.launch.trans h.launch⟩

/-- One step of an operation after another. -/
theorem Extends.trans {s t u : State} {rs rs' : List (Nat × Effect × FpFlags)} (h : Extends s t rs) (h' : Extends t u rs') :
    Extends s u (rs ++ rs') := by
  obtain ⟨ls, hin, hmap, hall⟩ := h.results
  obtain ⟨ls', hin', hmap', hall'⟩ := h'.results
  have k := h.keeps
  have k' := h'.keeps
  have hc := k.around.bndCore
  rw [hc] at hin' hall'
  refine ⟨⟨ls ++ ls', ?_, ?_, ?_⟩, ?_, fun d hd => h'.agenda d (h.agenda d hd), Nat.le_trans h.ids h'.ids, h'.pc.trans h.pc, h'.word.trans h.word,
    h'.handler.trans h.handler, h'.ctl.trans h.ctl⟩
  · rw [hin', hin, List.append_assoc]
  · rw [List.map_append, List.map_append, hmap, hmap', k.around.cycle]
  · intro l hl
    rcases List.mem_append.mp hl with hl | hl
    · obtain ⟨a, b, c, d, e, x, hx, y⟩ := hall l hl
      exact ⟨a, b, c, d, e, x, h'.agenda x hx, y⟩
    · obtain ⟨a, b, c, d, e, x, hx, y⟩ := hall' l hl
      rw [k.around.cycle, k.around.bndQueued] at a
      exact ⟨a, b.trans (congrArg SlotKind.num k.around.bndSlot), c.trans h.pc, d.trans h.word, Nat.le_trans h.ids e, x, hx, y⟩
  · have hi := k'.inside
    have a := k.around
    have a' := k'.around
    rw [hc] at hi
    refine ⟨⟨a'.cycle.trans a.cycle, a'.turn.trans a.turn, a'.mem.trans a.mem, a'.dies.trans a.dies, a'.disp.trans a.disp, a'.coll.trans a.coll,
      a'.host.trans a.host, a'.sec.trans a.sec, a'.flips.trans a.flips, fun j hj => (a'.others j (by rw [hc]; exact hj)).trans (a.others j hj),
      a'.bndCore.trans a.bndCore, a'.bndSlot.trans a.bndSlot, a'.bndRegs.trans a.bndRegs, a'.bndQueued.trans a.bndQueued, a'.noFault.trans a.noFault⟩,
      k'.ropes.trans k.ropes, hi.trans' k.inside, (hc ▸ k'.seq).trans k.seq, (hc ▸ k'.far).trans k.far, (hc ▸ k'.latch).trans k.latch⟩

/-- The issuing core after an operation is accepted. -/
theorem State.accept_core (s : State) (u : SlotUse) :
    ∃ x, (s.accept u).core s.bnd.core = x.occupy s.cycle u ∧ (x = s.core s.bnd.core ∨ ∃ v h, x = { (s.core s.bnd.core).csrSet 0x004 v with hw := h }) := by
  unfold State.accept
  by_cases hr : u.rs = true
  · simp only [hr, if_true, State.takeSq_bnd_core, State.takeSq_cycle, State.modCore_core]
    rcases s.takeSq_core s.bnd.core with h | ⟨-, v, w, h⟩
    · exact ⟨_, rfl, .inl h⟩
    · exact ⟨_, rfl, .inr ⟨v, w, h⟩⟩
  · simp only [hr]
    exact ⟨_, State.modCore_core s s.bnd.core _, .inl rfl⟩

/-- Other cores after an operation is accepted. -/
theorem State.accept_core_ne (s : State) (u : SlotUse) {j : Nat} (hj : j ≠ s.bnd.core) : (s.accept u).core j = s.core j := by
  unfold State.accept
  by_cases hr : u.rs = true
  · simp only [hr, if_true, State.takeSq_bnd_core]
    rw [State.modCore_core_ne _ _ (Ne.symm hj)]
    rcases s.takeSq_core j with h | ⟨h, -⟩
    · exact h
    · exact absurd h hj
  · simp only [hr]
    exact State.modCore_core_ne s _ (Ne.symm hj)

theorem Inside.refl (x : Core) : Inside x x := ⟨rfl, fun _ _ => rfl, rfl, rfl, rfl, rfl, rfl, rfl, rfl, rfl, rfl, rfl, rfl⟩

/-- Accepting an operation puts nothing in flight. -/
theorem Extends.accept (s : State) (u : SlotUse) : Extends s (s.accept u) [] := by
  obtain ⟨x, hx, hv⟩ := s.accept_core u
  have hi : Inside (s.core s.bnd.core) ((s.accept u).core s.bnd.core) ∧ ((s.accept u).core s.bnd.core).inflight = (s.core s.bnd.core).inflight ∧
      ((s.accept u).core s.bnd.core).seq = (s.core s.bnd.core).seq ∧ ((s.accept u).core s.bnd.core).far = (s.core s.bnd.core).far ∧
      ((s.accept u).core s.bnd.core).latch = (s.core s.bnd.core).latch := by
    rw [hx]
    rcases hv with rfl | ⟨v, w, rfl⟩
    · exact ⟨⟨rfl, fun _ _ => rfl, rfl, rfl, rfl, rfl, rfl, rfl, rfl, rfl, rfl, rfl, rfl⟩, rfl, rfl, rfl, rfl⟩
    · exact ⟨⟨rfl, fun n hn => Core.csrGet_csrSet_ne (s.core s.bnd.core) v (Ne.symm hn), rfl, rfl, rfl, rfl, rfl, rfl, rfl, rfl, rfl, rfl, rfl⟩,
        rfl, rfl, rfl, rfl⟩
  have ho : ∀ j, j ≠ s.bnd.core → (s.accept u).core j = s.core j := fun j hj => s.accept_core_ne u hj
  refine ⟨⟨[], by simp [hi.2.1], rfl, by simp⟩, ⟨⟨?_, ?_, ?_, ?_, ?_, ?_, ?_, ?_, ?_, ho, ?_, ?_, ?_, ?_, ?_⟩, ?_, hi.1, hi.2.2.1, hi.2.2.2.1, hi.2.2.2.2⟩,
    ?_, ?_, ?_, ?_, ?_, ?_⟩
  all_goals (unfold State.accept; by_cases hr : u.rs = true <;> simp [hr])

/-- Nothing is consumed of a machine with no flipped word (R41). -/
theorem State.consume_clean (s : State) (core : Nat) (hit : StorageLoc → Bool) (h : s.flips = []) : s.consume core hit = s := by
  simp [State.consume, h]

/-- An operation with nothing in its way acts on the accepted state. -/
theorem State.slotOp_clear (s : State) (u : SlotUse) (body : State → State) (h : s.Clear u) : s.slotOp u true body = body (s.accept u) := by
  obtain ⟨h1, h2, h3, h4, h5, h6⟩ := h
  have h0 : (if s.bnd.readsRegs then s.consume s.bnd.core (regHit s.bnd.core u.preds) else s) = s := by
    rw [State.consume_clean s _ _ h6, ite_self]
  unfold State.slotOp State.accept
  rw [h0]
  by_cases hr : u.rs = true
  · have hcore : (s.takeSq.core s.bnd.core).pendingKeys = (s.core s.bnd.core).pendingKeys ∧
        (s.takeSq.core s.bnd.core).units = (s.core s.bnd.core).units := by
      rcases s.takeSq_core s.bnd.core with h | ⟨-, v, w, h⟩ <;> exact h ▸ ⟨rfl, rfl⟩
    have hbm : s.takeSq.bm = s.bm := by
      have hl : (s.takeSq.core s.bnd.core).launch = (s.core s.bnd.core).launch := by
        rcases s.takeSq_core s.bnd.core with h | ⟨-, v, w, h⟩ <;> rw [h] <;> rfl
      simp only [State.bm, State.bindMap, State.takeSq_bnd_core, State.takeSq_die, State.takeSq_cycle, hl]
    have hheld : s.takeSq.unitHeld s.bm (s.takeSq.core s.bnd.core) = s.unitHeld s.bm (s.core s.bnd.core) := by
      funext key
      simp only [State.unitHeld, hcore.2, State.takeSq_cycle]
    simp only [h1, h2, hr, if_true, Bool.false_eq_true, if_false, State.takeSq_bnd_core, State.takeSq_die, State.takeSq_cycle, h3, hbm, hheld, h4,
      hcore.1, Bundle.readsRegs, State.takeSq_bnd_replaying, Bool.not_true]
    rw [Bundle.readsRegs] at h5
    simp only [h5, Bool.false_eq_true, if_false, State.consume, State.takeSq_flips, h6, List.isEmpty_nil, if_true]
    simp only [ite_self, State.takeSq_bnd_core, State.takeSq_cycle]
  · simp only [hr, h1, h2, h3, h4, Bool.false_eq_true, if_false, Bool.not_true]
    rw [h5]
    simp [State.consume, h6]

/-- A guard that reads 0 ends the operation: it occupies its units and has no other effect (R114, R119). -/
theorem State.slotOp_guarded (s : State) (u : SlotUse) (body : State → State) (h : s.bnd.probing = false)
    (ha : u.reach.any (fun k => s.mapNow.keyState k == 3) = false) (hc : s.flips = []) : s.slotOp u false body = s.modCore s.bnd.core (fun x => x.accepts s.cycle u) := by
  unfold State.slotOp
  simp [h, ha, State.consume_clean s _ _ hc]

/-- `land` puts exactly one result in flight. -/
theorem Extends.land (s : State) (d : Nat) (e : Effect) (f : BitVec 6) (cl ln bt bc : Nat) (h : s.Live) :
    Extends s (s.land d e f cl ln bt bc) [(d, e, f)] := by
  have hform : ∃ l : Landing, l.at_ = s.cycle + d ∧ l.eff = e ∧ l.flags = f ∧ l.issue = s.bnd.queued.getD s.cycle ∧ l.slot = s.bnd.slot.num ∧
      l.pc = s.bnd.lat.pc ∧ l.word = s.bnd.word ∧ l.id = s.nextId ∧
      s.land d e f cl ln bt bc = (s.fresh.2.modCore s.bnd.core (fun x => { x with inflight := x.inflight ++ [l] })).scheduleLanding s.bnd.core l := by
    refine ⟨{ id := s.nextId, at_ := s.cycle + d, issue := s.bnd.queued.getD s.cycle, slot := s.bnd.slot.num, pc := s.bnd.lat.pc, word := s.bnd.word,
              eff := e, flags := f, cluster := cl, lane := ln, handler := s.bnd.handler, busyTile := bt, busyCount := bc },
      rfl, rfl, rfl, rfl, rfl, rfl, rfl, rfl, ?_⟩
    unfold State.land
    rcases h with h | h
    · simp only [h]; rfl
    · cases hf : (s.core s.bnd.core).frame with
      | none => simp only [hf]; rfl
      | some x => simp only [hf, h, if_true]; rfl
  obtain ⟨l, h1, h2, h3, h4, h5, h6, h7, h8, hl⟩ := hform
  rw [hl]
  generalize hx : s.fresh.2.modCore s.bnd.core (fun x => { x with inflight := x.inflight ++ [l] }) = x
  have hag : ∃ ag : List Due, x.scheduleLanding s.bnd.core l = { x with agenda := ag } ∧ (∀ d ∈ x.agenda, d ∈ ag) ∧
      ({ at_ := l.at_, prio := l.prio, ev := l.event s.bnd.core } : Due) ∈ ag := by
    refine ⟨(x.scheduleLanding s.bnd.core l).agenda, ?_, ?_, ?_⟩
    · unfold State.scheduleLanding
      simp only
      split
      · split <;> rfl
      · rfl
    · intro d hd
      unfold State.scheduleLanding
      simp only [mem_insertLanding]
      right
      split
      · split
        · exact (mem_insertDue _ _ _).mpr (.inr hd)
        · exact hd
      · exact hd
    · unfold State.scheduleLanding
      exact (mem_insertLanding _ _ _ _).mpr (.inl rfl)
  obtain ⟨ag, ha, hsub, hmem⟩ := hag
  rw [ha]
  subst hx
  have hc : (({ s.fresh.2.modCore s.bnd.core (fun x => { x with inflight := x.inflight ++ [l] }) with agenda := ag } : State)).core s.bnd.core =
      { s.core s.bnd.core with inflight := (s.core s.bnd.core).inflight ++ [l] } :=
    State.modCore_core s.fresh.2 s.bnd.core (fun x => { x with inflight := x.inflight ++ [l] })
  have ho : ∀ j, j ≠ s.bnd.core →
      (({ s.fresh.2.modCore s.bnd.core (fun x => { x with inflight := x.inflight ++ [l] }) with agenda := ag } : State)).core j = s.core j :=
    fun j hj => State.modCore_core_ne s.fresh.2 (fun x => { x with inflight := x.inflight ++ [l] }) (Ne.symm hj)
  refine ⟨⟨[l], by rw [hc], by simp [h1, h2, h3], ?_⟩, ?_, hsub, Nat.le_succ _, rfl, rfl, rfl, rfl⟩
  · intro m hm
    obtain rfl := List.mem_singleton.mp hm
    exact ⟨h4, h5, h6, h7, le_of_eq h8.symm, _, hmem, rfl, rfl⟩
  · refine ⟨⟨rfl, rfl, rfl, rfl, rfl, rfl, rfl, rfl, rfl, ho, rfl, rfl, rfl, rfl, rfl⟩, rfl, ?_, by rw [hc], by rw [hc], by rw [hc]⟩
    rw [hc]
    exact ⟨rfl, fun _ _ => rfl, rfl, rfl, rfl, rfl, rfl, rfl, rfl, rfl, rfl, rfl, rfl⟩

/-- An operation that lands one result gives it. -/
theorem Gives.slotOp_land (s : State) (u : SlotUse) (h : s.Clear u) (hl : s.Live) (d : Nat) (e : State → Effect) (f : State → BitVec 6)
    (cl ln : State → Nat) (bt bc : Nat) :
    Gives (.next (s.slotOp u true (fun t => t.land d (e t) (f t) (cl t) (ln t) bt bc))) s [(d, e (s.accept u), f (s.accept u))] := by
  rw [State.slotOp_clear s u _ h]
  have h1 := Extends.accept s u
  have hl' : (s.accept u).Live := by
    unfold State.Live
    rw [h1.keeps.around.bndCore, h1.keeps.inside.frame, h1.handler]
    exact hl
  exact (h1.trans (Extends.land (s.accept u) d _ _ _ _ bt bc hl')).gives

end Sys2Proof.Machine
end

