-- ==== Sys2Proof/Tests/Slice0.lean ====
section
/-!
SUPPORT. The tests: words of every slot instruction written out from the spec's layouts, ill-formed terms that the checks refuse, one step of
instructions on small states with results worked from the spec, and for every statement the states that meet its hypotheses.
-/

namespace Sys2Proof.Tests

open Sys2Proof Sys2Proof.Machine

set_option Elab.async false

/-- R117, R126: three-operand scalar forms, FUNCT zero. -/
theorem test_decode_scalar_plain : ∀ e ∈ [
    (0b00000001_00_00001_00010_00011_0_000_000#32, Instr.add { unit := 0#2, d := 1#5, a := 2#5, b := 3#5, l := 0#1, guard := 0#3, funct := 0#3 }),
    (0b00000010_01_01000_00111_01110_1_001_000#32, Instr.sub { unit := 1#2, d := 8#5, a := 7#5, b := 14#5, l := 1#1, guard := 1#3, funct := 0#3 }),
    (0b00000011_10_01111_01100_11001_0_010_000#32, Instr.mul { unit := 2#2, d := 15#5, a := 12#5, b := 25#5, l := 0#1, guard := 2#3, funct := 0#3 }),
    (0b00000100_00_10110_10001_00100_1_011_000#32, Instr.mulh { unit := 0#2, d := 22#5, a := 17#5, b := 4#5, l := 1#1, guard := 3#3, funct := 0#3 }),
    (0b00000101_01_11101_10110_01111_0_100_000#32, Instr.mulhn { unit := 1#2, d := 29#5, a := 22#5, b := 15#5, l := 0#1, guard := 4#3, funct := 0#3 }),
    (0b00000110_10_00100_11011_11010_1_101_000#32, Instr.div { unit := 2#2, d := 4#5, a := 27#5, b := 26#5, l := 1#1, guard := 5#3, funct := 0#3 }),
    (0b00000111_00_01011_00000_00101_0_110_000#32, Instr.divn { unit := 0#2, d := 11#5, a := 0#5, b := 5#5, l := 0#1, guard := 6#3, funct := 0#3 }),
    (0b00001000_01_10010_00101_10000_1_111_000#32, Instr.rem { unit := 1#2, d := 18#5, a := 5#5, b := 16#5, l := 1#1, guard := 7#3, funct := 0#3 }),
    (0b00001001_10_11001_01010_11011_0_000_000#32, Instr.remn { unit := 2#2, d := 25#5, a := 10#5, b := 27#5, l := 0#1, guard := 0#3, funct := 0#3 }),
    (0b00001010_00_00000_01111_00110_1_001_000#32, Instr.and { unit := 0#2, d := 0#5, a := 15#5, b := 6#5, l := 1#1, guard := 1#3, funct := 0#3 }),
    (0b00001011_01_00111_10100_10001_0_010_000#32, Instr.or { unit := 1#2, d := 7#5, a := 20#5, b := 17#5, l := 0#1, guard := 2#3, funct := 0#3 }),
    (0b00001100_10_01110_11001_11100_1_011_000#32, Instr.xor { unit := 2#2, d := 14#5, a := 25#5, b := 28#5, l := 1#1, guard := 3#3, funct := 0#3 }),
    (0b00001101_00_10101_11110_00111_0_100_000#32, Instr.andn { unit := 0#2, d := 21#5, a := 30#5, b := 7#5, l := 0#1, guard := 4#3, funct := 0#3 }),
    (0b00001110_01_11100_00011_10010_1_101_000#32, Instr.shl { unit := 1#2, d := 28#5, a := 3#5, b := 18#5, l := 1#1, guard := 5#3, funct := 0#3 }),
    (0b00001111_10_00011_01000_11101_0_110_000#32, Instr.shr { unit := 2#2, d := 3#5, a := 8#5, b := 29#5, l := 0#1, guard := 6#3, funct := 0#3 }),
    (0b00010000_00_01010_01101_01000_1_111_000#32, Instr.sra { unit := 0#2, d := 10#5, a := 13#5, b := 8#5, l := 1#1, guard := 7#3, funct := 0#3 }),
    (0b00010001_01_10001_10010_10011_0_000_000#32, Instr.rot { unit := 1#2, d := 17#5, a := 18#5, b := 19#5, l := 0#1, guard := 0#3, funct := 0#3 }),
    (0b00010100_10_11000_10111_11110_1_001_000#32, Instr.min { unit := 2#2, d := 24#5, a := 23#5, b := 30#5, l := 1#1, guard := 1#3, funct := 0#3 }),
    (0b00010101_00_11111_11100_01001_0_010_000#32, Instr.max { unit := 0#2, d := 31#5, a := 28#5, b := 9#5, l := 0#1, guard := 2#3, funct := 0#3 }),
    (0b00010110_01_00110_00001_10100_1_011_000#32, Instr.minn { unit := 1#2, d := 6#5, a := 1#5, b := 20#5, l := 1#1, guard := 3#3, funct := 0#3 }),
    (0b00010111_10_01101_00110_11111_0_100_000#32, Instr.maxn { unit := 2#2, d := 13#5, a := 6#5, b := 31#5, l := 0#1, guard := 4#3, funct := 0#3 }),
    (0b00011011_00_10100_01011_01010_1_101_000#32, Instr.bfi { unit := 0#2, d := 20#5, a := 11#5, b := 10#5, l := 1#1, guard := 5#3, funct := 0#3 }),
    (0b00100101_01_11011_10000_10101_0_110_000#32, Instr.fmin { unit := 1#2, d := 27#5, a := 16#5, b := 21#5, l := 0#1, guard := 6#3, funct := 0#3 }),
    (0b00100110_10_00010_10101_00000_1_111_000#32, Instr.fmax { unit := 2#2, d := 2#5, a := 21#5, b := 0#5, l := 1#1, guard := 7#3, funct := 0#3 })], decodeSlot .sb e.1 = .ok e.2 := by decide

/-- R117–R120, R126: scalar forms with coded or zero fields; the words of `cmp.ltn.x2 p3, s4, s5` and others. -/
theorem test_decode_scalar_coded : ∀ e ∈ [
    (0b00010010_01_11111_00100_00000_0_010_000#32, Instr.clz { unit := 1#2, d := 31#5, a := 4#5, b := 0#5, l := 0#1, guard := 2#3, funct := 0#3 }),
    (0b00010011_01_00011_11111_00000_0_010_000#32, Instr.popc { unit := 1#2, d := 3#5, a := 31#5, b := 0#5, l := 0#1, guard := 2#3, funct := 0#3 }),
    (0b00011101_01_00011_00100_00000_0_111_000#32, Instr.mov { unit := 1#2, d := 3#5, a := 4#5, b := 0#5, l := 0#1, guard := 7#3, funct := 0#3 }),
    (0b00011000_01_00011_00100_00000_0_010_010#32, Instr.sext { unit := 1#2, d := 3#5, a := 4#5, b := 0#5, l := 0#1, guard := 2#3, funct := 2#3 }),
    (0b00011001_01_00011_00100_00000_0_010_001#32, Instr.zext { unit := 1#2, d := 3#5, a := 4#5, b := 0#5, l := 0#1, guard := 2#3, funct := 1#3 }),
    (0b00011010_01_00011_00100_00101_0_010_001#32, Instr.bfx { unit := 1#2, d := 3#5, a := 4#5, b := 5#5, l := 0#1, guard := 2#3, funct := 1#3 }),
    (0b00011100_01_00011_00100_00101_0_010_011#32, Instr.lea { unit := 1#2, d := 3#5, a := 4#5, b := 5#5, l := 0#1, guard := 2#3, funct := 3#3 }),
    (0b00011110_01_00011_00000_01001_1_010_000#32, Instr.movl { unit := 1#2, d := 3#5, a := 0#5, b := 9#5, l := 1#1, guard := 2#3, funct := 0#3 }),
    (0b00011110_00_00011_00000_11010_1_010_000#32, Instr.movl { unit := 0#2, d := 3#5, a := 0#5, b := 26#5, l := 1#1, guard := 2#3, funct := 0#3 }),
    (0b00011111_01_00011_00100_00101_0_010_111#32, Instr.sel { unit := 1#2, d := 3#5, a := 4#5, b := 5#5, l := 0#1, guard := 2#3, funct := 7#3 }),
    (0b00100000_10_10011_00100_00101_0_000_010#32, Instr.cmp { unit := 2#2, d := 19#5, a := 4#5, b := 5#5, l := 0#1, guard := 0#3, funct := 2#3 }),
    (0b00100001_01_00011_00100_00101_0_010_100#32, Instr.fadd { unit := 1#2, d := 3#5, a := 4#5, b := 5#5, l := 0#1, guard := 2#3, funct := 4#3 }),
    (0b00100010_01_00011_00100_00101_0_010_011#32, Instr.fsub { unit := 1#2, d := 3#5, a := 4#5, b := 5#5, l := 0#1, guard := 2#3, funct := 3#3 }),
    (0b00100011_01_00011_00100_00101_0_010_010#32, Instr.fmul { unit := 1#2, d := 3#5, a := 4#5, b := 5#5, l := 0#1, guard := 2#3, funct := 2#3 }),
    (0b00100100_01_00011_00100_00101_0_010_001#32, Instr.ffma { unit := 1#2, d := 3#5, a := 4#5, b := 5#5, l := 0#1, guard := 2#3, funct := 1#3 }),
    (0b00100111_01_00111_00100_00101_0_010_101#32, Instr.fcmp { unit := 1#2, d := 7#5, a := 4#5, b := 5#5, l := 0#1, guard := 2#3, funct := 5#3 }),
    (0b00101000_01_00011_00100_01001_0_010_100#32, Instr.fcvt { unit := 1#2, d := 3#5, a := 4#5, b := 9#5, l := 0#1, guard := 2#3, funct := 4#3 }),
    (0b00101001_01_00011_00000_00000_0_010_101#32, Instr.lix { unit := 1#2, d := 3#5, a := 0#5, b := 0#5, l := 0#1, guard := 2#3, funct := 5#3 })], decodeSlot .sa e.1 = .ok e.2 := by decide

/-- R120, R126, R199: the control forms, legal in SA. -/
theorem test_decode_control : ∀ e ∈ [
    (0b00101010_01_00000_00000_00010_1_010_000#32, Instr.br { unit := 1#2, d := 0#5, a := 0#5, b := 2#5, l := 1#1, guard := 2#3, funct := 0#3 }),
    (0b00101011_01_00001_00111_00010_1_010_101#32, Instr.bc { unit := 1#2, d := 1#5, a := 7#5, b := 2#5, l := 1#1, guard := 2#3, funct := 5#3 }),
    (0b00101100_01_00000_01001_00000_0_010_000#32, Instr.jmp { unit := 1#2, d := 0#5, a := 9#5, b := 0#5, l := 0#1, guard := 2#3, funct := 0#3 }),
    (0b00101101_01_00000_00000_01111_1_010_000#32, Instr.callRelative { unit := 1#2, d := 0#5, a := 0#5, b := 15#5, l := 1#1, guard := 2#3, funct := 0#3 }),
    (0b00101101_01_00000_01001_00000_0_010_001#32, Instr.callRegister { unit := 1#2, d := 0#5, a := 9#5, b := 0#5, l := 0#1, guard := 2#3, funct := 1#3 }),
    (0b00101110_01_00000_00000_00000_0_010_000#32, Instr.ret { unit := 1#2, d := 0#5, a := 0#5, b := 0#5, l := 0#1, guard := 2#3, funct := 0#3 }),
    (0b00101111_01_00000_10100_00000_1_010_111#32, Instr.loop { unit := 1#2, d := 0#5, a := 20#5, b := 0#5, l := 1#1, guard := 2#3, funct := 7#3 }),
    (0b00110000_01_00000_00000_00000_0_010_101#32, Instr.loopx { unit := 1#2, d := 0#5, a := 0#5, b := 0#5, l := 0#1, guard := 2#3, funct := 5#3 })], decodeSlot .sa e.1 = .ok e.2 := by decide

/-- R121, R126, R228: vector forms of operands a and b. -/
theorem test_decode_vector_plain : ∀ e ∈ [
    (0b0000001_110_000_00001_00010_00001_0_000#32, Instr.vadd { ty := 6#3, unit := 0#3, d := 1#5, a := 2#5, b := 1#5, l := 0#1, q := 0#3 }),
    (0b0000010_000_001_01000_00111_00100_1_001#32, Instr.vsub { ty := 0#3, unit := 1#3, d := 8#5, a := 7#5, b := 4#5, l := 1#1, q := 1#3 }),
    (0b0000011_001_010_01111_01100_00111_0_010#32, Instr.vmul { ty := 1#3, unit := 2#3, d := 15#5, a := 12#5, b := 7#5, l := 0#1, q := 2#3 }),
    (0b0000100_100_011_10110_10001_01010_1_011#32, Instr.vmulh { ty := 4#3, unit := 3#3, d := 22#5, a := 17#5, b := 10#5, l := 1#1, q := 3#3 }),
    (0b0000101_010_100_11101_10110_01101_0_100#32, Instr.vfma { ty := 2#3, unit := 4#3, d := 29#5, a := 22#5, b := 13#5, l := 0#1, q := 4#3 }),
    (0b0000110_001_101_00100_11011_00000_1_101#32, Instr.vfms { ty := 1#3, unit := 5#3, d := 4#5, a := 27#5, b := 0#5, l := 1#1, q := 5#3 }),
    (0b0000111_000_000_01011_00000_00011_0_110#32, Instr.vfnma { ty := 0#3, unit := 0#3, d := 11#5, a := 0#5, b := 3#5, l := 0#1, q := 6#3 }),
    (0b0001000_110_001_10010_00101_00110_1_111#32, Instr.vmin { ty := 6#3, unit := 1#3, d := 18#5, a := 5#5, b := 6#5, l := 1#1, q := 7#3 }),
    (0b0001001_101_010_11001_01010_01001_0_000#32, Instr.vmax { ty := 5#3, unit := 2#3, d := 25#5, a := 10#5, b := 9#5, l := 0#1, q := 0#3 }),
    (0b0001100_011_011_00000_01111_01100_1_001#32, Instr.vclamp { ty := 3#3, unit := 3#3, d := 0#5, a := 15#5, b := 12#5, l := 1#1, q := 1#3 }),
    (0b0010001_111_100_00111_10100_01111_0_010#32, Instr.vsel { ty := 7#3, unit := 4#3, d := 7#5, a := 20#5, b := 15#5, l := 0#1, q := 2#3 }),
    (0b0010010_111_101_01110_11001_00010_1_011#32, Instr.vand { ty := 7#3, unit := 5#3, d := 14#5, a := 25#5, b := 2#5, l := 1#1, q := 3#3 }),
    (0b0010011_111_000_10101_11110_00101_0_100#32, Instr.vor { ty := 7#3, unit := 0#3, d := 21#5, a := 30#5, b := 5#5, l := 0#1, q := 4#3 }),
    (0b0010100_100_001_11100_00011_01000_1_101#32, Instr.vxor { ty := 4#3, unit := 1#3, d := 28#5, a := 3#5, b := 8#5, l := 1#1, q := 5#3 }),
    (0b0010110_011_010_00011_01000_01011_0_110#32, Instr.vshl { ty := 3#3, unit := 2#3, d := 3#5, a := 8#5, b := 11#5, l := 0#1, q := 6#3 }),
    (0b0011100_111_011_01010_01101_01110_1_111#32, Instr.vperm { ty := 7#3, unit := 3#3, d := 10#5, a := 13#5, b := 14#5, l := 1#1, q := 7#3 }),
    (0b0011101_111_100_10001_10010_00001_0_000#32, Instr.vrot { ty := 7#3, unit := 4#3, d := 17#5, a := 18#5, b := 1#5, l := 0#1, q := 0#3 }),
    (0b0011110_001_101_11000_10111_00100_1_001#32, Instr.vdot { ty := 1#3, unit := 5#3, d := 24#5, a := 23#5, b := 4#5, l := 1#1, q := 1#3 }),
    (0b0010111_111_101_10001_10010_10011_0_001#32, Instr.vshr { ty := 7#3, unit := 5#3, d := 17#5, a := 18#5, b := 19#5, l := 0#1, q := 1#3 }),
    (0b0011000_101_101_10001_10010_11111_0_001#32, Instr.vsra { ty := 5#3, unit := 5#3, d := 17#5, a := 18#5, b := 31#5, l := 0#1, q := 1#3 })], decodeSlot .va e.1 = .ok e.2 := by decide

/-- R121, R126, R228–R241: vector forms with coded or zero fields. -/
theorem test_decode_vector_coded : ∀ e ∈ [
    (0b0001010_011_101_10001_10010_00000_0_001#32, Instr.vabs { ty := 3#3, unit := 5#3, d := 17#5, a := 18#5, b := 0#5, l := 0#1, q := 1#3 }),
    (0b0001011_110_101_10001_10010_00000_0_001#32, Instr.vneg { ty := 6#3, unit := 5#3, d := 17#5, a := 18#5, b := 0#5, l := 0#1, q := 1#3 }),
    (0b0001101_111_101_00111_10010_10011_0_001#32, Instr.vceq { ty := 7#3, unit := 5#3, d := 7#5, a := 18#5, b := 19#5, l := 0#1, q := 1#3 }),
    (0b0001110_000_101_00001_10010_10011_0_001#32, Instr.vcne { ty := 0#3, unit := 5#3, d := 1#5, a := 18#5, b := 19#5, l := 0#1, q := 1#3 }),
    (0b0001111_110_101_00010_10010_10011_0_001#32, Instr.vclt { ty := 6#3, unit := 5#3, d := 2#5, a := 18#5, b := 19#5, l := 0#1, q := 1#3 }),
    (0b0010000_001_101_00011_10010_10011_0_001#32, Instr.vcle { ty := 1#3, unit := 5#3, d := 3#5, a := 18#5, b := 19#5, l := 0#1, q := 1#3 }),
    (0b0010101_111_101_10001_10010_00000_0_001#32, Instr.vnot { ty := 7#3, unit := 5#3, d := 17#5, a := 18#5, b := 0#5, l := 0#1, q := 1#3 }),
    (0b0011001_100_101_10001_10010_00111_0_001#32, Instr.vcvt { ty := 4#3, unit := 5#3, d := 17#5, a := 18#5, b := 7#5, l := 0#1, q := 1#3 }),
    (0b0011001_000_101_10001_10010_10010_0_001#32, Instr.vcvt { ty := 0#3, unit := 5#3, d := 17#5, a := 18#5, b := 18#5, l := 0#1, q := 1#3 }),
    (0b0011010_011_101_10001_10010_00000_0_001#32, Instr.vmov { ty := 3#3, unit := 5#3, d := 17#5, a := 18#5, b := 0#5, l := 0#1, q := 1#3 }),
    (0b0011011_111_101_10001_00000_10011_0_001#32, Instr.vsplat { ty := 7#3, unit := 5#3, d := 17#5, a := 0#5, b := 19#5, l := 0#1, q := 1#3 }),
    (0b0011111_100_101_10001_10010_00010_0_001#32, Instr.vred { ty := 4#3, unit := 5#3, d := 17#5, a := 18#5, b := 2#5, l := 0#1, q := 1#3 }),
    (0b0100000_000_101_10001_10010_00001_0_001#32, Instr.vscan { ty := 0#3, unit := 5#3, d := 17#5, a := 18#5, b := 1#5, l := 0#1, q := 1#3 }),
    (0b0100001_010_101_10001_10010_10011_0_001#32, Instr.vdraw { ty := 2#3, unit := 5#3, d := 17#5, a := 18#5, b := 19#5, l := 0#1, q := 1#3 }),
    (0b0100010_001_101_10001_10010_00010_0_001#32, Instr.vquant { ty := 1#3, unit := 5#3, d := 17#5, a := 18#5, b := 2#5, l := 0#1, q := 1#3 }),
    (0b0100011_000_101_10001_10010_00000_0_001#32, Instr.vdeq { ty := 0#3, unit := 5#3, d := 17#5, a := 18#5, b := 0#5, l := 0#1, q := 1#3 })], decodeSlot .vc e.1 = .ok e.2 := by decide

/-- R122, R126, R243: XF forms. -/
theorem test_decode_xf : ∀ e ∈ [
    (0b000001_00_00001_11110_00000_000_000_000#32, Instr.xexp2 { ty := 0#2, d := 1#5, a := 30#5, b := 0#5, c1 := 0#3, c2 := 0#3, q := 0#3 }),
    (0b000010_01_01010_11110_00000_000_000_001#32, Instr.xlog2 { ty := 1#2, d := 10#5, a := 30#5, b := 0#5, c1 := 0#3, c2 := 0#3, q := 1#3 }),
    (0b000011_10_10011_11110_00000_000_000_010#32, Instr.xrcp { ty := 2#2, d := 19#5, a := 30#5, b := 0#5, c1 := 0#3, c2 := 0#3, q := 2#3 }),
    (0b000100_00_11100_11110_00000_000_000_011#32, Instr.xrsq { ty := 0#2, d := 28#5, a := 30#5, b := 0#5, c1 := 0#3, c2 := 0#3, q := 3#3 }),
    (0b000101_01_00101_11110_00000_000_000_100#32, Instr.xsqrt { ty := 1#2, d := 5#5, a := 30#5, b := 0#5, c1 := 0#3, c2 := 0#3, q := 4#3 }),
    (0b000110_10_01110_11110_00000_000_000_101#32, Instr.xtanh { ty := 2#2, d := 14#5, a := 30#5, b := 0#5, c1 := 0#3, c2 := 0#3, q := 5#3 }),
    (0b000111_00_10111_11110_00000_000_000_110#32, Instr.xsig { ty := 0#2, d := 23#5, a := 30#5, b := 0#5, c1 := 0#3, c2 := 0#3, q := 6#3 }),
    (0b001000_01_00000_11110_00000_000_000_111#32, Instr.xsin { ty := 1#2, d := 0#5, a := 30#5, b := 0#5, c1 := 0#3, c2 := 0#3, q := 7#3 }),
    (0b001001_10_01001_11110_00000_000_000_000#32, Instr.xcos { ty := 2#2, d := 9#5, a := 30#5, b := 0#5, c1 := 0#3, c2 := 0#3, q := 0#3 }),
    (0b001010_11_10001_11110_00000_111_000_101#32, Instr.xfer { ty := 3#2, d := 17#5, a := 30#5, b := 0#5, c1 := 7#3, c2 := 0#3, q := 5#3 }),
    (0b001011_10_10001_11110_00000_110_000_101#32, Instr.xbcast { ty := 2#2, d := 17#5, a := 30#5, b := 0#5, c1 := 6#3, c2 := 0#3, q := 5#3 }),
    (0b001100_00_10001_11110_00010_000_000_101#32, Instr.xred { ty := 0#2, d := 17#5, a := 30#5, b := 2#5, c1 := 0#3, c2 := 0#3, q := 5#3 }),
    (0b001101_00_10001_11110_10101_011_000_101#32, Instr.xdraw { ty := 0#2, d := 17#5, a := 30#5, b := 21#5, c1 := 3#3, c2 := 0#3, q := 5#3 })], decodeSlot .xf e.1 = .ok e.2 := by decide

/-- R123, R126: XT forms. -/
theorem test_decode_xt : ∀ e ∈ [
    (0b0001_11101_10101_10_0000000000000000#32, Instr.trow { v := 29#5, idx := 21#5, esize := 2#2 }),
    (0b0010_11101_10101_01_0000000000000000#32, Instr.tcol { v := 29#5, idx := 21#5, esize := 1#2 }),
    (0b0011_00000_00000_00_0000000000000000#32, Instr.tclr { v := 0#5, idx := 0#5, esize := 0#2 }),
    (0b0100_00000_00000_10_0000000000000000#32, Instr.tmode { v := 0#5, idx := 0#5, esize := 2#2 })], decodeSlot .xt e.1 = .ok e.2 := by decide

/-- R124, R126, R265: MX forms. -/
theorem test_decode_mx : ∀ e ∈ [
    (0b000001_0000100_0_01000_000_0000000000#32, Instr.mpush { row := 4#7, a := 8#5, c := 0#3 }),
    (0b000001_1111111_1_1001_0_110_0000000000#32, Instr.mpushT { row := 127#7, col := 9#4, c := 6#3 }),
    (0b000010_00001100_0000001_0_000010_0111#32, Instr.mmac { tile := 12#8, mm1 := 1#7, fmt := 2#6, cs := 7#4 }),
    (0b000010_10111111_1111111_1_000000_1111#32, Instr.mmacF { tile := 191#8, mm1 := 127#7, fmt := 0#6, cs := 15#4 }),
    (0b000011_1_0000000000000000000000000#32, Instr.mprom 1#1),
    (0b000100_10111010_101_000000000000000#32, Instr.mclr { tile := 186#8, nm1 := 5#3 }),
    (0b000101_01010_00001101_0000000_000_0_00#32, Instr.mrd { v := 10#5, tile := 13#8, row := 0#7, c := 0#3, i := 0#1 }),
    (0b000110_11110_10111110_1100101_101_1_00#32, Instr.mwr { v := 30#5, tile := 190#8, row := 101#7, c := 5#3, i := 1#1 }),
    (0b000111_000010_01001_000000000000000#32, Instr.mfmt 2#6 9#5),
    (0b001000_101_101100_00000000000000000#32, Instr.mfsel 5#3 44#6),
    (0b001001_100001_00000000000000000000#32, Instr.mscq 33#6)], decodeSlot .mx e.1 = .ok e.2 := by decide

/-- R126, R138: LD forms, and the words of spec/05 and spec/19. -/
theorem test_decode_ld : ∀ e ∈ [
    (0b000001_01001_10001_0101_001100_10_1_0_0_0#32, Instr.ld { d := 9#5, a := 17#5, lane := 5#4, tap := 12#6, size := 2#2, sx := 1#1, il := 0#1 }),
    (0b000001_01001_10001_0101_000000_11_0_1_0_0#32, Instr.ld { d := 9#5, a := 17#5, lane := 5#4, tap := 0#6, size := 3#2, sx := 0#1, il := 1#1 }),
    (0b000010_11110_00011_0000_000000_01_1_000#32, Instr.ldg { d := 30#5, a := 3#5, size := 1#2, sx := 1#1 }),
    (0b000011_00100_00010_1001_001100_001_0_1_0#32, Instr.vld { d := 4#5, a := 2#5, lane := 9#4, tap := 12#6, c := 1#3, il := 0#1, h := 1#1 }),
    (0b000100_11111_00110_1111_111111_101_110#32, Instr.vlds { v := 31#5, a := 6#5, lane := 15#4, tap := 63#6, c := 5#3, q := 6#3 }),
    (0b000101_10100_01010_0001_100001_111_000#32, Instr.vgat { v := 20#5, a := 10#5, lane := 1#4, tap := 33#6, c := 7#3 }),
    (0b000110_00000_01011_1110_101001_000000#32, Instr.ldsc { a := 11#5, lane := 14#4, tap := 41#6 }),
    (0x0C82930A#32, Instr.vld { d := 4#5, a := 2#5, lane := 9#4, tap := 12#6, c := 1#3, il := 0#1, h := 1#1 }),
    (0x0C828100#32, Instr.vld { d := 4#5, a := 2#5, lane := 8#4, tap := 4#6, c := 0#3, il := 0#1, h := 0#1 })], decodeSlot .ld e.1 = .ok e.2 := by decide

/-- R126, R139–R141: ST forms, and the words of spec/05 and spec/19. -/
theorem test_decode_st : ∀ e ∈ [
    (0b000001_01001_10001_0101_001100_10_1_0_00#32, Instr.st { s := 9#5, a := 17#5, lane := 5#4, tap := 12#6, size := 2#2, g := 1#1, il := 0#1 }),
    (0b000001_01001_10001_0101_000000_00_0_1_00#32, Instr.st { s := 9#5, a := 17#5, lane := 5#4, tap := 0#6, size := 0#2, g := 0#1, il := 1#1 }),
    (0b000010_11110_00011_0000000000_11_1_000#32, Instr.stg { s := 30#5, a := 3#5, size := 3#2, g := 1#1 }),
    (0b000011_01001_00100_1010_000101_110_0_1_0#32, Instr.vst { s := 9#5, a := 4#5, lane := 10#4, tap := 5#6, c := 6#3, il := 0#1, g := 1#1 }),
    (0b000100_11111_00110_1111_111111_101_110#32, Instr.vsts { v := 31#5, a := 6#5, lane := 15#4, tap := 63#6, c := 5#3, q := 6#3 }),
    (0b000101_10100_01010_0001_100001_111_000#32, Instr.vsct { v := 20#5, a := 10#5, lane := 1#4, tap := 33#6, c := 7#3 }),
    (0b000110_00101_01000_0010_000110_00110_0#32, Instr.aadd { d := 5#5, a := 8#5, lane := 2#4, tap := 6#6, s := 6#5, n := 0#1 }),
    (0b000111_00110_01001_0011_000111_01001_1#32, Instr.amin { d := 6#5, a := 9#5, lane := 3#4, tap := 7#6, s := 9#5, n := 1#1 }),
    (0b001000_00111_01010_0100_001000_01100_1#32, Instr.amax { d := 7#5, a := 10#5, lane := 4#4, tap := 8#6, s := 12#5, n := 1#1 }),
    (0b001001_01000_01011_0101_001001_01111_0#32, Instr.axchg { d := 8#5, a := 11#5, lane := 5#4, tap := 9#6, s := 15#5, n := 0#1 }),
    (0b001010_01001_01100_0110_001010_10010_0#32, Instr.acas { d := 9#5, a := 12#5, lane := 6#4, tap := 10#6, s := 18#5, n := 0#1 }),
    (0b001011_01010_01101_0111_001011_10101_0#32, Instr.aand { d := 10#5, a := 13#5, lane := 7#4, tap := 11#6, s := 21#5, n := 0#1 }),
    (0b001100_01011_01110_1000_001100_11000_0#32, Instr.aor { d := 11#5, a := 14#5, lane := 8#4, tap := 12#6, s := 24#5, n := 0#1 }),
    (0b001101_01100_01111_1001_001101_11011_0#32, Instr.axor { d := 12#5, a := 15#5, lane := 9#4, tap := 13#6, s := 27#5, n := 0#1 }),
    (0x28A8218C#32, Instr.acas { d := 5#5, a := 8#5, lane := 2#4, tap := 6#6, s := 6#5, n := 0#1 }),
    (0b001110_100_00000000000000000000000#32, Instr.fence 4#3),
    (0x39000000#32, Instr.fence 2#3),
    (0x0D24A140#32, Instr.vst { s := 9#5, a := 4#5, lane := 10#4, tap := 5#6, c := 0#3, il := 0#1, g := 0#1 })], decodeSlot .st e.1 = .ok e.2 := by decide

/-- R126, R288: CE forms, and the words of spec/13. -/
theorem test_decode_ce : ∀ e ∈ [
    (0b000001_0_00100_1_001101_0000000000000#32, Instr.cpy { e := 0#1, x := 4#5, h := 1#1, handle := 13#6 }),
    (0b000010_1_01000_1_001110_0000000000000#32, Instr.cpyb { e := 1#1, x := 8#5, h := 1#1, handle := 14#6 }),
    (0b000011_0_01100_1_001111_0000000000000#32, Instr.bxfer { e := 0#1, x := 12#5, h := 1#1, handle := 15#6 }),
    (0b000100_1_10000_1_010000_0000000000000#32, Instr.bxfer2 { e := 1#1, x := 16#5, h := 1#1, handle := 16#6 }),
    (0x0C88A000#32, Instr.bxfer { e := 0#1, x := 8#5, h := 1#1, handle := 5#6 }),
    (0x14552C00#32, Instr.hset { handle := 5#6, a := 10#5, b := 11#5, wb := 0#1, c := 0#5 }),
    (0b000101_111111_00001_00010_1_11101_0000#32, Instr.hset { handle := 63#6, a := 1#5, b := 2#5, wb := 1#1, c := 29#5 }),
    (0x18500000#32, Instr.hwait 5#6),
    (0b000111_101001_00000000000000000000#32, Instr.hrel 41#6),
    (0x20560000#32, Instr.hprobe { handle := 5#6, p := 3#3, cond := 0#3 }),
    (0b001000_000101_110_101_00000000000000#32, Instr.hprobe { handle := 5#6, p := 6#3, cond := 5#3 }),
    (0x252A5800#32, Instr.ccall { d := 9#5, a := 10#5, b := 11#5 }),
    (0b001010_00001_00010_00011_00000000000#32, Instr.ctrig { d := 1#5, a := 2#5, b := 3#5 }),
    (0b001011_11111_11110_11101_00000000000#32, Instr.ckpt { d := 31#5, a := 30#5, b := 29#5 })], decodeSlot .ce e.1 = .ok e.2 := by decide

/-- R126, R303: SY forms of spec/14. -/
theorem test_decode_sy_sync : ∀ e ∈ [
    (0x04000000#32, Instr.anchor),
    (0b000010_00000000000000000000000000#32, Instr.endOp),
    (0b000011_01001_01010_0101_000111_000000#32, Instr.barInit { a := 9#5, b := 10#5, lane := 5#4, tap := 7#6, nw := 0#1 }),
    (0x112051C0#32, Instr.barArrive { a := 9#5, b := 0#5, lane := 5#4, tap := 7#6, nw := 0#1 }),
    (0b000100_01001_00000_0101_000111_1_00000#32, Instr.barArrive { a := 9#5, b := 0#5, lane := 5#4, tap := 7#6, nw := 1#1 }),
    (0b000101_10101_000000000000000000000#32, Instr.barWait 21#5),
    (0b000110_01001_00000_1111_111111_000000#32, Instr.barFini { a := 9#5, b := 0#5, lane := 15#4, tap := 63#6, nw := 0#1 }),
    (0x1C600000#32, Instr.clk 3#5),
    (0x20E80000#32, Instr.waitc 7#5 2#3),
    (0b001001_00000000000000000000000000#32, Instr.wfar),
    (0b001010_00000000000000000000000000#32, Instr.belayBegin),
    (0x2A106000#32, Instr.belayBeginPitch 2#6 3#6),
    (0b001011_00_1011_00000000000000000000#32, Instr.belayKeepS 11#4),
    (0b001011_01_1110_00000000000000000000#32, Instr.belayKeepV 14#4),
    (0x2E0C3000#32, Instr.belayKeepA { tile := 12#8, nm1 := 3#4 }),
    (0b001100_00000000000000000000000000#32, Instr.belayEnd),
    (0x34428000#32, Instr.cmpt { v := 0#1, a := 4#5, b := 5#5 }),
    (0b001101_1_11110_11111_000000000000000#32, Instr.cmpt { v := 1#1, a := 30#5, b := 31#5 })], decodeSlot .sy e.1 = .ok e.2 := by decide

/-- R126, R348: SY forms of spec/17. -/
theorem test_decode_sy_system : ∀ e ∈ [
    (0x39090000#32, Instr.ilock 8#5 9#5),
    (0b001111_01000_01001_0000000000000000#32, Instr.iunlock 8#5 9#5),
    (0b010000_11111_00001_0000000000000000#32, Instr.ipref 31#5 1#5),
    (0b010001_0000000000_1011111011101111#32, Instr.trap 0xBEEF#16),
    (0x48000007#32, Instr.sys 7#16),
    (0b010011_00000000000000000000000000#32, Instr.eret),
    (0x52000400#32, Instr.csrr { d := 16#5, a := 0#5, num := 0x040#12 }),
    (0b010101_10001_10010_000100000011_0000#32, Instr.csrw { d := 17#5, a := 18#5, num := 0x103#12 }),
    (0b010110_00001_00010_001110000001_0000#32, Instr.csrs { d := 1#5, a := 2#5, num := 0x381#12 }),
    (0x5C040010#32, Instr.csrc { d := 0#5, a := 4#5, num := 0x001#12 }),
    (0b011000_00000000000000000000000000#32, Instr.yield),
    (0b011001_00000000000000000000000000#32, Instr.wfi),
    (0x68C00000#32, Instr.bist 6#5)], decodeSlot .sy e.1 = .ok e.2 := by decide
/-- UNIT 3, and FUNCT not zero (R117, R191). -/
theorem test_wf_refuses_scalar_plain : ∀ i ∈ [
    Instr.add { unit := 1#2, d := 3#5, a := 4#5, b := 5#5, l := 0#1, guard := 2#3, funct := 1#3 },
    Instr.sub { unit := 3#2, d := 3#5, a := 4#5, b := 5#5, l := 0#1, guard := 2#3, funct := 0#3 },
    Instr.mul { unit := 1#2, d := 3#5, a := 4#5, b := 5#5, l := 0#1, guard := 2#3, funct := 1#3 },
    Instr.mulh { unit := 3#2, d := 3#5, a := 4#5, b := 5#5, l := 0#1, guard := 2#3, funct := 0#3 },
    Instr.mulhn { unit := 1#2, d := 3#5, a := 4#5, b := 5#5, l := 0#1, guard := 2#3, funct := 1#3 },
    Instr.div { unit := 3#2, d := 3#5, a := 4#5, b := 5#5, l := 0#1, guard := 2#3, funct := 0#3 },
    Instr.divn { unit := 1#2, d := 3#5, a := 4#5, b := 5#5, l := 0#1, guard := 2#3, funct := 1#3 },
    Instr.rem { unit := 3#2, d := 3#5, a := 4#5, b := 5#5, l := 0#1, guard := 2#3, funct := 0#3 },
    Instr.remn { unit := 1#2, d := 3#5, a := 4#5, b := 5#5, l := 0#1, guard := 2#3, funct := 1#3 },
    Instr.and { unit := 3#2, d := 3#5, a := 4#5, b := 5#5, l := 0#1, guard := 2#3, funct := 0#3 },
    Instr.or { unit := 1#2, d := 3#5, a := 4#5, b := 5#5, l := 0#1, guard := 2#3, funct := 1#3 },
    Instr.xor { unit := 3#2, d := 3#5, a := 4#5, b := 5#5, l := 0#1, guard := 2#3, funct := 0#3 },
    Instr.andn { unit := 1#2, d := 3#5, a := 4#5, b := 5#5, l := 0#1, guard := 2#3, funct := 1#3 },
    Instr.shl { unit := 3#2, d := 3#5, a := 4#5, b := 5#5, l := 0#1, guard := 2#3, funct := 0#3 },
    Instr.shr { unit := 1#2, d := 3#5, a := 4#5, b := 5#5, l := 0#1, guard := 2#3, funct := 1#3 },
    Instr.sra { unit := 3#2, d := 3#5, a := 4#5, b := 5#5, l := 0#1, guard := 2#3, funct := 0#3 },
    Instr.rot { unit := 1#2, d := 3#5, a := 4#5, b := 5#5, l := 0#1, guard := 2#3, funct := 1#3 },
    Instr.min { unit := 3#2, d := 3#5, a := 4#5, b := 5#5, l := 0#1, guard := 2#3, funct := 0#3 },
    Instr.max { unit := 1#2, d := 3#5, a := 4#5, b := 5#5, l := 0#1, guard := 2#3, funct := 1#3 },
    Instr.minn { unit := 3#2, d := 3#5, a := 4#5, b := 5#5, l := 0#1, guard := 2#3, funct := 0#3 },
    Instr.maxn { unit := 1#2, d := 3#5, a := 4#5, b := 5#5, l := 0#1, guard := 2#3, funct := 1#3 },
    Instr.bfi { unit := 3#2, d := 3#5, a := 4#5, b := 5#5, l := 0#1, guard := 2#3, funct := 0#3 },
    Instr.fmin { unit := 1#2, d := 3#5, a := 4#5, b := 5#5, l := 0#1, guard := 2#3, funct := 1#3 },
    Instr.fmax { unit := 3#2, d := 3#5, a := 4#5, b := 5#5, l := 0#1, guard := 2#3, funct := 0#3 },
    Instr.add { unit := 3#2, d := 3#5, a := 4#5, b := 5#5, l := 0#1, guard := 2#3, funct := 0#3 },
    Instr.sub { unit := 1#2, d := 3#5, a := 4#5, b := 5#5, l := 0#1, guard := 2#3, funct := 7#3 }], Instr.wf i = false := by decide

/-- Fields a scalar form does not use, and codes outside its list (R117–R120, R191–R198). -/
theorem test_wf_refuses_scalar_coded : ∀ i ∈ [
    Instr.clz { unit := 1#2, d := 3#5, a := 4#5, b := 1#5, l := 0#1, guard := 2#3, funct := 0#3 },
    Instr.clz { unit := 1#2, d := 3#5, a := 4#5, b := 0#5, l := 1#1, guard := 2#3, funct := 0#3 },
    Instr.clz { unit := 1#2, d := 3#5, a := 4#5, b := 0#5, l := 0#1, guard := 2#3, funct := 1#3 },
    Instr.popc { unit := 1#2, d := 3#5, a := 4#5, b := 1#5, l := 0#1, guard := 2#3, funct := 0#3 },
    Instr.popc { unit := 1#2, d := 3#5, a := 4#5, b := 0#5, l := 1#1, guard := 2#3, funct := 0#3 },
    Instr.popc { unit := 1#2, d := 3#5, a := 4#5, b := 0#5, l := 0#1, guard := 2#3, funct := 1#3 },
    Instr.mov { unit := 1#2, d := 3#5, a := 4#5, b := 1#5, l := 0#1, guard := 2#3, funct := 0#3 },
    Instr.mov { unit := 1#2, d := 3#5, a := 4#5, b := 0#5, l := 1#1, guard := 2#3, funct := 0#3 },
    Instr.mov { unit := 1#2, d := 3#5, a := 4#5, b := 0#5, l := 0#1, guard := 2#3, funct := 1#3 },
    Instr.sext { unit := 1#2, d := 3#5, a := 4#5, b := 0#5, l := 0#1, guard := 2#3, funct := 3#3 },
    Instr.sext { unit := 1#2, d := 3#5, a := 4#5, b := 1#5, l := 0#1, guard := 2#3, funct := 0#3 },
    Instr.sext { unit := 1#2, d := 3#5, a := 4#5, b := 0#5, l := 1#1, guard := 2#3, funct := 0#3 },
    Instr.zext { unit := 1#2, d := 3#5, a := 4#5, b := 0#5, l := 0#1, guard := 2#3, funct := 3#3 },
    Instr.zext { unit := 1#2, d := 3#5, a := 4#5, b := 1#5, l := 0#1, guard := 2#3, funct := 0#3 },
    Instr.zext { unit := 1#2, d := 3#5, a := 4#5, b := 0#5, l := 1#1, guard := 2#3, funct := 0#3 },
    Instr.bfx { unit := 1#2, d := 3#5, a := 4#5, b := 5#5, l := 0#1, guard := 2#3, funct := 2#3 },
    Instr.lea { unit := 1#2, d := 3#5, a := 4#5, b := 5#5, l := 0#1, guard := 2#3, funct := 4#3 },
    Instr.movl { unit := 1#2, d := 3#5, a := 1#5, b := 5#5, l := 1#1, guard := 2#3, funct := 0#3 },
    Instr.movl { unit := 1#2, d := 3#5, a := 0#5, b := 5#5, l := 0#1, guard := 2#3, funct := 0#3 },
    Instr.sel { unit := 3#2, d := 3#5, a := 4#5, b := 5#5, l := 0#1, guard := 2#3, funct := 0#3 },
    Instr.cmp { unit := 1#2, d := 3#5, a := 4#5, b := 5#5, l := 0#1, guard := 2#3, funct := 6#3 },
    Instr.cmp { unit := 1#2, d := 8#5, a := 4#5, b := 5#5, l := 0#1, guard := 2#3, funct := 0#3 },
    Instr.cmp { unit := 1#2, d := 16#5, a := 4#5, b := 5#5, l := 0#1, guard := 2#3, funct := 1#3 },
    Instr.fadd { unit := 1#2, d := 3#5, a := 4#5, b := 5#5, l := 0#1, guard := 2#3, funct := 5#3 },
    Instr.fsub { unit := 1#2, d := 3#5, a := 4#5, b := 5#5, l := 0#1, guard := 2#3, funct := 5#3 },
    Instr.fmul { unit := 1#2, d := 3#5, a := 4#5, b := 5#5, l := 0#1, guard := 2#3, funct := 5#3 },
    Instr.ffma { unit := 1#2, d := 3#5, a := 4#5, b := 5#5, l := 0#1, guard := 2#3, funct := 5#3 },
    Instr.fcmp { unit := 1#2, d := 3#5, a := 4#5, b := 5#5, l := 0#1, guard := 2#3, funct := 6#3 },
    Instr.fcmp { unit := 1#2, d := 8#5, a := 4#5, b := 5#5, l := 0#1, guard := 2#3, funct := 0#3 },
    Instr.fcmp { unit := 1#2, d := 16#5, a := 4#5, b := 5#5, l := 0#1, guard := 2#3, funct := 0#3 },
    Instr.fcvt { unit := 1#2, d := 3#5, a := 4#5, b := 5#5, l := 0#1, guard := 2#3, funct := 5#3 },
    Instr.fcvt { unit := 1#2, d := 3#5, a := 4#5, b := 1#5, l := 1#1, guard := 2#3, funct := 0#3 },
    Instr.fcvt { unit := 1#2, d := 3#5, a := 4#5, b := 10#5, l := 0#1, guard := 2#3, funct := 0#3 },
    Instr.lix { unit := 1#2, d := 3#5, a := 0#5, b := 0#5, l := 0#1, guard := 2#3, funct := 6#3 },
    Instr.lix { unit := 1#2, d := 3#5, a := 1#5, b := 0#5, l := 0#1, guard := 2#3, funct := 0#3 },
    Instr.lix { unit := 1#2, d := 3#5, a := 0#5, b := 1#5, l := 0#1, guard := 2#3, funct := 0#3 },
    Instr.lix { unit := 1#2, d := 3#5, a := 0#5, b := 0#5, l := 1#1, guard := 2#3, funct := 0#3 }], Instr.wf i = false := by decide

/-- Control forms whose offset is no literal, or with a field they do not use (R120, R199). -/
theorem test_wf_refuses_control : ∀ i ∈ [
    Instr.br { unit := 1#2, d := 1#5, a := 0#5, b := 2#5, l := 1#1, guard := 2#3, funct := 0#3 },
    Instr.br { unit := 1#2, d := 0#5, a := 1#5, b := 2#5, l := 1#1, guard := 2#3, funct := 0#3 },
    Instr.br { unit := 1#2, d := 0#5, a := 0#5, b := 2#5, l := 0#1, guard := 2#3, funct := 0#3 },
    Instr.br { unit := 1#2, d := 0#5, a := 0#5, b := 18#5, l := 1#1, guard := 2#3, funct := 0#3 },
    Instr.bc { unit := 1#2, d := 2#5, a := 7#5, b := 2#5, l := 1#1, guard := 2#3, funct := 0#3 },
    Instr.bc { unit := 1#2, d := 0#5, a := 4#5, b := 2#5, l := 1#1, guard := 2#3, funct := 6#3 },
    Instr.bc { unit := 1#2, d := 0#5, a := 4#5, b := 2#5, l := 0#1, guard := 2#3, funct := 0#3 },
    Instr.jmp { unit := 1#2, d := 1#5, a := 4#5, b := 0#5, l := 0#1, guard := 2#3, funct := 0#3 },
    Instr.jmp { unit := 1#2, d := 0#5, a := 4#5, b := 1#5, l := 0#1, guard := 2#3, funct := 0#3 },
    Instr.callRelative { unit := 1#2, d := 0#5, a := 0#5, b := 2#5, l := 0#1, guard := 2#3, funct := 0#3 },
    Instr.callRelative { unit := 1#2, d := 0#5, a := 1#5, b := 2#5, l := 1#1, guard := 2#3, funct := 0#3 },
    Instr.callRegister { unit := 1#2, d := 0#5, a := 4#5, b := 0#5, l := 0#1, guard := 2#3, funct := 2#3 },
    Instr.callRegister { unit := 1#2, d := 0#5, a := 4#5, b := 1#5, l := 0#1, guard := 2#3, funct := 1#3 },
    Instr.callRegister { unit := 1#2, d := 1#5, a := 4#5, b := 0#5, l := 0#1, guard := 2#3, funct := 1#3 },
    Instr.ret { unit := 1#2, d := 0#5, a := 1#5, b := 0#5, l := 0#1, guard := 2#3, funct := 0#3 },
    Instr.ret { unit := 1#2, d := 0#5, a := 0#5, b := 0#5, l := 0#1, guard := 2#3, funct := 1#3 },
    Instr.loop { unit := 1#2, d := 1#5, a := 4#5, b := 0#5, l := 1#1, guard := 2#3, funct := 0#3 },
    Instr.loop { unit := 1#2, d := 0#5, a := 4#5, b := 0#5, l := 0#1, guard := 2#3, funct := 0#3 },
    Instr.loopx { unit := 1#2, d := 0#5, a := 0#5, b := 0#5, l := 0#1, guard := 2#3, funct := 6#3 },
    Instr.loopx { unit := 1#2, d := 0#5, a := 1#5, b := 0#5, l := 0#1, guard := 2#3, funct := 0#3 }], Instr.wf i = false := by decide

/-- UNIT above 5, a TYPE or code outside the form's list, fields a vector form does not use (R121, R228–R241). -/
theorem test_wf_refuses_vector : ∀ i ∈ [
    Instr.vadd { ty := 7#3, unit := 5#3, d := 17#5, a := 18#5, b := 19#5, l := 0#1, q := 1#3 },
    Instr.vsub { ty := 7#3, unit := 5#3, d := 17#5, a := 18#5, b := 19#5, l := 0#1, q := 1#3 },
    Instr.vmul { ty := 7#3, unit := 5#3, d := 17#5, a := 18#5, b := 19#5, l := 0#1, q := 1#3 },
    Instr.vmin { ty := 7#3, unit := 5#3, d := 17#5, a := 18#5, b := 19#5, l := 0#1, q := 1#3 },
    Instr.vmax { ty := 7#3, unit := 5#3, d := 17#5, a := 18#5, b := 19#5, l := 0#1, q := 1#3 },
    Instr.vclamp { ty := 7#3, unit := 5#3, d := 17#5, a := 18#5, b := 19#5, l := 0#1, q := 1#3 },
    Instr.vmulh { ty := 2#3, unit := 5#3, d := 17#5, a := 18#5, b := 19#5, l := 0#1, q := 1#3 },
    Instr.vfma { ty := 3#3, unit := 5#3, d := 17#5, a := 18#5, b := 19#5, l := 0#1, q := 1#3 },
    Instr.vfms { ty := 3#3, unit := 5#3, d := 17#5, a := 18#5, b := 19#5, l := 0#1, q := 1#3 },
    Instr.vfnma { ty := 4#3, unit := 5#3, d := 17#5, a := 18#5, b := 19#5, l := 0#1, q := 1#3 },
    Instr.vshl { ty := 2#3, unit := 5#3, d := 17#5, a := 18#5, b := 19#5, l := 0#1, q := 1#3 },
    Instr.vshr { ty := 1#3, unit := 5#3, d := 17#5, a := 18#5, b := 19#5, l := 0#1, q := 1#3 },
    Instr.vsra { ty := 6#3, unit := 5#3, d := 17#5, a := 18#5, b := 19#5, l := 0#1, q := 1#3 },
    Instr.vsel { ty := 3#3, unit := 6#3, d := 17#5, a := 18#5, b := 19#5, l := 0#1, q := 1#3 },
    Instr.vand { ty := 3#3, unit := 7#3, d := 17#5, a := 18#5, b := 19#5, l := 0#1, q := 1#3 },
    Instr.vor { ty := 3#3, unit := 5#3, d := 17#5, a := 18#5, b := 16#5, l := 1#1, q := 1#3 },
    Instr.vxor { ty := 3#3, unit := 5#3, d := 17#5, a := 18#5, b := 31#5, l := 1#1, q := 1#3 },
    Instr.vperm { ty := 3#3, unit := 6#3, d := 17#5, a := 18#5, b := 19#5, l := 0#1, q := 1#3 },
    Instr.vrot { ty := 3#3, unit := 7#3, d := 17#5, a := 18#5, b := 19#5, l := 0#1, q := 1#3 },
    Instr.vdot { ty := 3#3, unit := 5#3, d := 17#5, a := 18#5, b := 16#5, l := 1#1, q := 1#3 },
    Instr.vceq { ty := 3#3, unit := 5#3, d := 8#5, a := 18#5, b := 19#5, l := 0#1, q := 1#3 },
    Instr.vcne { ty := 3#3, unit := 5#3, d := 16#5, a := 18#5, b := 19#5, l := 0#1, q := 1#3 },
    Instr.vclt { ty := 7#3, unit := 5#3, d := 1#5, a := 18#5, b := 19#5, l := 0#1, q := 1#3 },
    Instr.vcle { ty := 7#3, unit := 5#3, d := 1#5, a := 18#5, b := 19#5, l := 0#1, q := 1#3 },
    Instr.vabs { ty := 7#3, unit := 5#3, d := 17#5, a := 18#5, b := 0#5, l := 0#1, q := 1#3 },
    Instr.vabs { ty := 3#3, unit := 5#3, d := 17#5, a := 18#5, b := 1#5, l := 0#1, q := 1#3 },
    Instr.vabs { ty := 3#3, unit := 5#3, d := 17#5, a := 18#5, b := 0#5, l := 1#1, q := 1#3 },
    Instr.vneg { ty := 7#3, unit := 5#3, d := 17#5, a := 18#5, b := 0#5, l := 0#1, q := 1#3 },
    Instr.vneg { ty := 3#3, unit := 5#3, d := 17#5, a := 18#5, b := 1#5, l := 0#1, q := 1#3 },
    Instr.vneg { ty := 3#3, unit := 5#3, d := 17#5, a := 18#5, b := 0#5, l := 1#1, q := 1#3 },
    Instr.vnot { ty := 3#3, unit := 5#3, d := 17#5, a := 18#5, b := 1#5, l := 0#1, q := 1#3 },
    Instr.vnot { ty := 3#3, unit := 5#3, d := 17#5, a := 18#5, b := 0#5, l := 1#1, q := 1#3 },
    Instr.vmov { ty := 3#3, unit := 5#3, d := 17#5, a := 18#5, b := 1#5, l := 0#1, q := 1#3 },
    Instr.vmov { ty := 3#3, unit := 5#3, d := 17#5, a := 18#5, b := 0#5, l := 1#1, q := 1#3 },
    Instr.vcvt { ty := 0#3, unit := 5#3, d := 17#5, a := 18#5, b := 19#5, l := 0#1, q := 1#3 },
    Instr.vcvt { ty := 5#3, unit := 5#3, d := 17#5, a := 18#5, b := 0#5, l := 0#1, q := 1#3 },
    Instr.vcvt { ty := 1#3, unit := 5#3, d := 17#5, a := 18#5, b := 18#5, l := 0#1, q := 1#3 },
    Instr.vcvt { ty := 0#3, unit := 5#3, d := 17#5, a := 18#5, b := 1#5, l := 1#1, q := 1#3 },
    Instr.vsplat { ty := 3#3, unit := 5#3, d := 17#5, a := 1#5, b := 19#5, l := 0#1, q := 1#3 },
    Instr.vred { ty := 3#3, unit := 5#3, d := 17#5, a := 18#5, b := 3#5, l := 0#1, q := 1#3 },
    Instr.vred { ty := 5#3, unit := 5#3, d := 17#5, a := 18#5, b := 0#5, l := 0#1, q := 1#3 },
    Instr.vscan { ty := 1#3, unit := 5#3, d := 17#5, a := 18#5, b := 0#5, l := 0#1, q := 1#3 },
    Instr.vscan { ty := 0#3, unit := 5#3, d := 17#5, a := 18#5, b := 3#5, l := 0#1, q := 1#3 },
    Instr.vdraw { ty := 3#3, unit := 5#3, d := 17#5, a := 18#5, b := 19#5, l := 0#1, q := 1#3 },
    Instr.vdraw { ty := 0#3, unit := 5#3, d := 17#5, a := 18#5, b := 19#5, l := 1#1, q := 1#3 },
    Instr.vquant { ty := 3#3, unit := 5#3, d := 17#5, a := 18#5, b := 0#5, l := 0#1, q := 1#3 },
    Instr.vquant { ty := 0#3, unit := 5#3, d := 17#5, a := 18#5, b := 3#5, l := 0#1, q := 1#3 },
    Instr.vdeq { ty := 0#3, unit := 5#3, d := 17#5, a := 18#5, b := 3#5, l := 0#1, q := 1#3 },
    Instr.vdeq { ty := 0#3, unit := 5#3, d := 17#5, a := 18#5, b := 0#5, l := 1#1, q := 1#3 }], Instr.wf i = false := by decide

/-- XF, XT and MX fields (R122, R123, R243, R265, R271). -/
theorem test_wf_refuses_cluster_and_matrix : ∀ i ∈ [
    Instr.xexp2 { ty := 3#2, d := 17#5, a := 30#5, b := 0#5, c1 := 0#3, c2 := 0#3, q := 5#3 },
    Instr.xlog2 { ty := 3#2, d := 17#5, a := 30#5, b := 0#5, c1 := 0#3, c2 := 0#3, q := 5#3 },
    Instr.xrcp { ty := 3#2, d := 17#5, a := 30#5, b := 0#5, c1 := 0#3, c2 := 0#3, q := 5#3 },
    Instr.xrsq { ty := 3#2, d := 17#5, a := 30#5, b := 0#5, c1 := 0#3, c2 := 0#3, q := 5#3 },
    Instr.xsqrt { ty := 3#2, d := 17#5, a := 30#5, b := 0#5, c1 := 0#3, c2 := 0#3, q := 5#3 },
    Instr.xtanh { ty := 3#2, d := 17#5, a := 30#5, b := 0#5, c1 := 0#3, c2 := 0#3, q := 5#3 },
    Instr.xsig { ty := 3#2, d := 17#5, a := 30#5, b := 0#5, c1 := 0#3, c2 := 0#3, q := 5#3 },
    Instr.xsin { ty := 3#2, d := 17#5, a := 30#5, b := 0#5, c1 := 0#3, c2 := 0#3, q := 5#3 },
    Instr.xcos { ty := 3#2, d := 17#5, a := 30#5, b := 0#5, c1 := 0#3, c2 := 0#3, q := 5#3 },
    Instr.xexp2 { ty := 0#2, d := 17#5, a := 30#5, b := 1#5, c1 := 0#3, c2 := 0#3, q := 5#3 },
    Instr.xlog2 { ty := 0#2, d := 17#5, a := 30#5, b := 0#5, c1 := 1#3, c2 := 0#3, q := 5#3 },
    Instr.xrcp { ty := 0#2, d := 17#5, a := 30#5, b := 0#5, c1 := 0#3, c2 := 1#3, q := 5#3 },
    Instr.xfer { ty := 0#2, d := 17#5, a := 30#5, b := 1#5, c1 := 0#3, c2 := 0#3, q := 5#3 },
    Instr.xfer { ty := 0#2, d := 17#5, a := 30#5, b := 0#5, c1 := 0#3, c2 := 1#3, q := 5#3 },
    Instr.xbcast { ty := 0#2, d := 17#5, a := 30#5, b := 1#5, c1 := 0#3, c2 := 0#3, q := 5#3 },
    Instr.xbcast { ty := 0#2, d := 17#5, a := 30#5, b := 0#5, c1 := 0#3, c2 := 7#3, q := 5#3 },
    Instr.xred { ty := 1#2, d := 17#5, a := 30#5, b := 0#5, c1 := 0#3, c2 := 0#3, q := 5#3 },
    Instr.xred { ty := 0#2, d := 17#5, a := 30#5, b := 3#5, c1 := 0#3, c2 := 0#3, q := 5#3 },
    Instr.xred { ty := 0#2, d := 17#5, a := 30#5, b := 0#5, c1 := 1#3, c2 := 0#3, q := 5#3 },
    Instr.xred { ty := 0#2, d := 17#5, a := 30#5, b := 0#5, c1 := 0#3, c2 := 1#3, q := 5#3 },
    Instr.xdraw { ty := 1#2, d := 17#5, a := 30#5, b := 0#5, c1 := 0#3, c2 := 0#3, q := 5#3 },
    Instr.xdraw { ty := 0#2, d := 17#5, a := 30#5, b := 0#5, c1 := 0#3, c2 := 1#3, q := 5#3 },
    Instr.trow { v := 0#5, idx := 0#5, esize := 3#2 },
    Instr.tcol { v := 0#5, idx := 0#5, esize := 3#2 },
    Instr.tclr { v := 1#5, idx := 0#5, esize := 0#2 },
    Instr.tclr { v := 0#5, idx := 1#5, esize := 0#2 },
    Instr.tclr { v := 0#5, idx := 0#5, esize := 1#2 },
    Instr.tmode { v := 1#5, idx := 0#5, esize := 0#2 },
    Instr.tmode { v := 0#5, idx := 1#5, esize := 0#2 },
    Instr.tmode { v := 0#5, idx := 0#5, esize := 3#2 },
    Instr.mmacF { tile := 0#8, mm1 := 0#7, fmt := 1#6, cs := 0#4 },
    Instr.mfsel 6#3 0#6], Instr.wf i = false := by decide

/-- SX with SIZE 3, a tap in an `.il` form, N outside amin and amax, fence scopes 5 to 7 (R138–R142). -/
theorem test_wf_refuses_memory : ∀ i ∈ [
    Instr.ld { d := 1#5, a := 2#5, lane := 0#4, tap := 4#6, size := 3#2, sx := 1#1, il := 0#1 },
    Instr.ld { d := 1#5, a := 2#5, lane := 0#4, tap := 4#6, size := 2#2, sx := 0#1, il := 1#1 },
    Instr.ldg { d := 1#5, a := 2#5, size := 3#2, sx := 1#1 },
    Instr.vld { d := 1#5, a := 2#5, lane := 0#4, tap := 4#6, c := 0#3, il := 1#1, h := 0#1 },
    Instr.st { s := 1#5, a := 2#5, lane := 0#4, tap := 4#6, size := 2#2, g := 0#1, il := 1#1 },
    Instr.vst { s := 1#5, a := 2#5, lane := 0#4, tap := 4#6, c := 0#3, il := 1#1, g := 0#1 },
    Instr.aadd { d := 1#5, a := 2#5, lane := 0#4, tap := 0#6, s := 3#5, n := 1#1 },
    Instr.axchg { d := 1#5, a := 2#5, lane := 0#4, tap := 0#6, s := 3#5, n := 1#1 },
    Instr.acas { d := 1#5, a := 2#5, lane := 0#4, tap := 0#6, s := 3#5, n := 1#1 },
    Instr.aand { d := 1#5, a := 2#5, lane := 0#4, tap := 0#6, s := 3#5, n := 1#1 },
    Instr.aor { d := 1#5, a := 2#5, lane := 0#4, tap := 0#6, s := 3#5, n := 1#1 },
    Instr.axor { d := 1#5, a := 2#5, lane := 0#4, tap := 0#6, s := 3#5, n := 1#1 },
    Instr.fence 5#3,
    Instr.fence 7#3], Instr.wf i = false := by decide

/-- A handle without H, C without WB, COND above 5, unused fields of the barrier forms and of `csrr` (R288, R303, R348). -/
theorem test_wf_refuses_engine_and_system : ∀ i ∈ [
    Instr.cpy { e := 0#1, x := 4#5, h := 0#1, handle := 1#6 },
    Instr.cpyb { e := 0#1, x := 4#5, h := 0#1, handle := 1#6 },
    Instr.bxfer { e := 0#1, x := 4#5, h := 0#1, handle := 1#6 },
    Instr.bxfer2 { e := 0#1, x := 4#5, h := 0#1, handle := 1#6 },
    Instr.hset { handle := 1#6, a := 2#5, b := 3#5, wb := 0#1, c := 4#5 },
    Instr.hprobe { handle := 1#6, p := 2#3, cond := 6#3 },
    Instr.barInit { a := 9#5, b := 0#5, lane := 0#4, tap := 3#6, nw := 1#1 },
    Instr.barArrive { a := 9#5, b := 1#5, lane := 0#4, tap := 3#6, nw := 0#1 },
    Instr.barFini { a := 9#5, b := 1#5, lane := 0#4, tap := 3#6, nw := 0#1 },
    Instr.barFini { a := 9#5, b := 0#5, lane := 0#4, tap := 3#6, nw := 1#1 },
    Instr.csrr { d := 1#5, a := 1#5, num := 0x001#12 }], Instr.wf i = false := by decide

/-- Words with an unassigned bit set, an opcode past the end of a column, and a control form in SB are refused by name (R125–R127). -/
theorem test_decode_refuses :
    decodeSlot .sy 0x04000001#32 = .error .reservedBits ∧ decodeSlot .xt 0x30000001#32 = .error .reservedBits ∧
    decodeSlot .mx 0x24000001#32 = .error .reservedBits ∧ decodeSlot .ce 0x18500001#32 = .error .reservedBits ∧
    decodeSlot .sa 0x31000000#32 = .error .opcode ∧ decodeSlot .va 0x48000000#32 = .error .opcode ∧ decodeSlot .xf 0x38000000#32 = .error .opcode ∧
    decodeSlot .xt 0x50000000#32 = .error .opcode ∧ decodeSlot .mx 0x28000000#32 = .error .opcode ∧ decodeSlot .ld 0x1C000000#32 = .error .opcode ∧
    decodeSlot .st 0x3C000000#32 = .error .opcode ∧ decodeSlot .ce 0x30000000#32 = .error .opcode ∧ decodeSlot .sy 0x6C000000#32 = .error .opcode ∧
    decodeSlot .sb 0x2E000000#32 = .error .controlOutsideSa ∧ decodeSlot .st 0x3A800000#32 = .error .reservedField := by decide
/-! ### Small states -/

/-- `State.Clear` as a computation. -/
def clearB (s : State) (u : SlotUse) : Bool :=
  !s.bnd.probing && !(u.reach.any (fun k => s.mapNow.keyState k == 3)) &&
    !(u.units.any (fun k => (s.die (dieOf s.bnd.core)).failed.any (fun e => e.1 == unitRefOf s.bnd.core k && decide (e.2 < s.cycle)))) &&
    !(u.units.any (s.unitHeld s.bm (s.core s.bnd.core))) &&
    !((s.core s.bnd.core).pendingKeys.any (fun k => (s.bnd.readsRegs && u.reads.contains k) || u.writes.contains k)) && s.flips.isEmpty

theorem clear_iff (s : State) (u : SlotUse) : s.Clear u ↔ clearB s u = true := by
  constructor
  · rintro ⟨h1, h2, h3, h4, h5, h6⟩
    simp only [clearB, h1, h2, h3, h4, h5, h6]
    rfl
  · intro h
    simp only [clearB, Bool.and_eq_true, Bool.not_eq_true', List.isEmpty_iff] at h
    obtain ⟨⟨⟨⟨⟨h1, h2⟩, h3⟩, h4⟩, h5⟩, h6⟩ := h
    exact ⟨h1, h2, h3, h4, h5, h6⟩

/-- Core 0 issues a bundle at address 0x1000 in cycle 100; the bundle's literals and its core are given. -/
def issuing (c : Core) (k : SlotKind) (cmask : BitVec 8) : State :=
  { State.reset with
    cycle := 100, turn := 1, cores := [(0, c)],
    bnd := { Bundle.reset with
      active := true, slot := k, word := 0x1234#32,
      lat := { Latched.reset with
        cmask := cmask, pc := 0x1000#48, pool := [5#32, 2#32, 0xFFFFFFFE#32, 0xFFFF#32], regs := c.regs, loops := c.seq.loops, rrb := c.seq.rrb,
        clk := 100 } } }

/-- The results of an operation of core 0 that was not stopped: cycles from issue, effect and flags. -/
def results (s : State) (i : Instr) : List (Nat × Effect × FpFlags) :=
  match exec i s with
  | .next t => (t.core 0).inflight.map (fun l => (l.at_ - s.cycle, l.eff, l.flags))
  | _ => []

/-- The state after an instruction, or the state before it where there is none. -/
def after (s : State) (i : Instr) : State :=
  match exec i s with
  | .next t => t
  | _ => s

/-- The cause a trap of core 0 gives, 0 where it is not in trap mode. -/
def cause (s : State) : Nat := if (s.core 0).frame.isSome then ((s.core 0).csrGet 0x040).toNat % 256 else 0

/-- A core with the scalar registers given. -/
def withS (xs : Tbl W64) : Core := { Core.reset with regs := { RegFile.reset with s := xs } }

/-! ### Scalar results (R190–R198), worked by hand -/

/-- s4 = 17, s5 = −5, s6 = 1.5, s7 = 5.0 (FP32), s8 the least integer, s9 = −1, s10 a quiet NaN's operand, s12 = 3. -/
def sScalar : State :=
  issuing (withS [(4, 17#64), (5, 0xFFFFFFFFFFFFFFFB#64), (6, 0x3FC00000#64), (7, 0x40A00000#64), (8, 0x8000000000000000#64),
    (9, 0xFFFFFFFFFFFFFFFF#64), (12, 3#64), (13, 0x1FE0#64), (14, 0x1C5#64)]) .sa 0#8

/-- An operation on unit x0 with guard p0 and operand b in a register. -/
def rop (d a b : BitVec 5) (funct : BitVec 3) : ScalarOp := { unit := 0#2, d := d, a := a, b := b, l := 0#1, guard := 0#3, funct := funct }

/-- The one result of an operation that writes s3 with no flag, at the cycle given. -/
def one (at_ : Nat) (v : W64) : List (Nat × Effect × FpFlags) := [(at_, .regs [.s 3 v], 0#6)]

/-- R191: sums and products modulo 2^64; the high halves signed and natural: (−5) × 17 = −85. -/
theorem test_scalar_sums :
    results sScalar (.add (rop 3 4 9 0)) = one 1 16#64 ∧ results sScalar (.sub (rop 3 4 5 0)) = one 1 22#64 ∧
    results sScalar (.mul (rop 3 5 4 0)) = one 3 0xFFFFFFFFFFFFFFAB#64 ∧ results sScalar (.mulh (rop 3 5 4 0)) = one 3 0xFFFFFFFFFFFFFFFF#64 ∧
    results sScalar (.mulhn (rop 3 5 4 0)) = one 3 16#64 ∧ results sScalar (.lea (rop 3 4 12 3)) = one 1 41#64 := by decide

/-- R192: 17 / −5 truncates toward zero, the remainder has the sign of a; the two corners do not trap. -/
theorem test_scalar_division :
    results sScalar (.div (rop 3 4 5 0)) = one 20 0xFFFFFFFFFFFFFFFD#64 ∧ results sScalar (.rem (rop 3 4 5 0)) = one 20 2#64 ∧
    results sScalar (.divn (rop 3 4 5 0)) = one 20 0#64 ∧ results sScalar (.remn (rop 3 4 5 0)) = one 20 17#64 ∧
    results sScalar (.div (rop 3 8 9 0)) = one 20 0x8000000000000000#64 ∧ results sScalar (.rem (rop 3 8 9 0)) = one 20 0#64 ∧
    results sScalar (.div (rop 3 4 0 0)) = one 20 0xFFFFFFFFFFFFFFFF#64 ∧ results sScalar (.remn (rop 3 4 0 0)) = one 20 17#64 := by decide

/-- R191: logic, shifts by the low six bits, counts and the ends of the number range. -/
theorem test_scalar_logic :
    results sScalar (.and (rop 3 4 12 0)) = one 1 1#64 ∧ results sScalar (.or (rop 3 4 12 0)) = one 1 19#64 ∧
    results sScalar (.xor (rop 3 4 12 0)) = one 1 18#64 ∧ results sScalar (.andn (rop 3 4 12 0)) = one 1 16#64 ∧
    results sScalar (.shl (rop 3 4 9 0)) = one 1 0x8000000000000000#64 ∧ results sScalar (.shr (rop 3 5 9 0)) = one 1 1#64 ∧
    results sScalar (.sra (rop 3 5 9 0)) = one 1 0xFFFFFFFFFFFFFFFF#64 ∧ results sScalar (.rot (rop 3 4 12 0)) = one 1 0x2000000000000002#64 := by decide

theorem test_scalar_counts :
    results sScalar (.clz (rop 3 4 0 0)) = one 1 59#64 ∧ results sScalar (.clz (rop 3 0 0 0)) = one 1 64#64 ∧
    results sScalar (.popc (rop 3 5 0 0)) = one 1 63#64 := by decide

theorem test_scalar_order :
    results sScalar (.min (rop 3 4 5 0)) = one 1 0xFFFFFFFFFFFFFFFB#64 ∧ results sScalar (.max (rop 3 4 5 0)) = one 1 17#64 ∧
    results sScalar (.minn (rop 3 4 5 0)) = one 1 17#64 ∧ results sScalar (.maxn (rop 3 4 5 0)) = one 1 0xFFFFFFFFFFFFFFFB#64 ∧
    results sScalar (.cmp (rop 3 4 5 2)) = [(1, .regs [.p 3 false], 0#6)] ∧ results sScalar (.cmp (rop 19 4 5 2)) = [(1, .regs [.p 3 true], 0#6)] ∧
    results sScalar (.sel (rop 3 4 5 1)) = one 1 0xFFFFFFFFFFFFFFFB#64 ∧ results sScalar (.sel (rop 3 4 5 0)) = one 1 17#64 := by decide

/-- R191, R193: extensions; the field of b's position 5 and length 8 of 0x1FE0, natural and signed; an insertion at that place. -/
theorem test_scalar_fields :
    results sScalar (.sext (rop 3 13 0 0)) = one 1 0xFFFFFFFFFFFFFFE0#64 ∧ results sScalar (.zext (rop 3 13 0 0)) = one 1 0xE0#64 ∧
    results sScalar (.bfx (rop 3 13 14 0)) = one 1 0xFF#64 ∧ results sScalar (.bfx (rop 3 13 14 1)) = one 1 0xFFFFFFFFFFFFFFFF#64 ∧
    results sScalar (.bfi (rop 3 4 14 0)) = one 1 0x220#64 ∧ results sScalar (.mov (rop 3 13 0 0)) = one 1 0x1FE0#64 ∧
    results sScalar (.movl { rop 3 0 2 0 with l := 1#1 }) = one 1 0xFFFFFFFFFFFFFFFE#64 := by decide

/-- R195–R197: 1.5 + 5 = 6.5, 1.5 − 5 = −3.5, 1.5 × 5 = 7.5, the fused form adds sD, and 1.5 converts to 2 with the inexact flag. -/
theorem test_scalar_float :
    results sScalar (.fadd (rop 3 6 7 0)) = one 4 0x40D00000#64 ∧ results sScalar (.fsub (rop 3 6 7 0)) = one 4 0xC0600000#64 ∧
    results sScalar (.fmul (rop 3 6 7 0)) = one 4 0x40F00000#64 ∧ results sScalar (.ffma (rop 6 6 7 0)) = [(4, .regs [.s 6 0x41100000#64], 0#6)] ∧
    results sScalar (.fmin (rop 3 6 7 0)) = one 4 0x3FC00000#64 ∧ results sScalar (.fmax (rop 3 6 7 0)) = one 4 0x40A00000#64 ∧
    results sScalar (.fcmp (rop 3 6 7 2)) = [(4, .regs [.p 3 true], 0#6)] := by decide

/-- R119: a guard that reads 0 performs nothing. -/
theorem test_scalar_guard_off : results sScalar (.add { rop 3 4 5 0 with guard := 1#3 }) = [] := by decide

/-- A loop of four iterations whose last bundle is at 0x1800, in its third; its RRB is 3. -/
def level : LoopLevel := { start := 0x50, stop := 0x60, count := 4, index := 2, rot := true, pre := false, il := false }

def sLoops : State :=
  issuing { sScalar.core 0 with seq := { Sequencer.reset with loops := [level], rets := [0x7000#48], rrb := 3#4 } } .sa 0#8

/-- Eight return addresses, six loop levels and a failed compare of the bundle. -/
def sFull : State :=
  let s := issuing { sScalar.core 0 with
    seq := { Sequencer.reset with rets := List.replicate 8 0x7000#48, loops := List.replicate 6 { level with stop := 0x100 } } } .sa 0#8
  { s with bnd := { s.bnd with lat := { s.bnd.lat with cmptFail := true } } }

/-- The bundle that issues is the second delay bundle of a transfer, or two bundles before the end of its loop. -/
def sDelay : State := issuing { withS [] with seq := { Sequencer.reset with transfer := some { target := 0x3000#48, left := 1 } } } .sa 0#8
def sBoundary : State := issuing { withS [] with seq := { Sequencer.reset with loops := [{ level with stop := 0x42 }] } } .sa 0#8

/-- R198, R200: `lix` reads the index; a transfer takes its target, a call pushes pc + 192, a return pops. -/
theorem test_control :
    results sLoops (.lix (rop 3 0 0 0)) = one 1 2#64 ∧
    (after sLoops (.br { rop 0 0 0 0 with l := 1#1 })).bnd.ctl.taken = some 0x1140#48 ∧
    (after sLoops (.bc { rop 0 4 2 5 with l := 1#1 })).bnd.ctl.taken = some 0xF80#48 ∧
    ((after sLoops (.callRelative { rop 0 0 0 0 with l := 1#1 })).core 0).seq.rets = [0x10C0#48, 0x7000#48] ∧
    (after sLoops (.ret (rop 0 0 0 0))).bnd.ctl.taken = some 0x7000#48 ∧ ((after sLoops (.ret (rop 0 0 0 0))).core 0).seq.rets = [] ∧
    cause (after sFull (.callRelative { rop 0 0 0 0 with l := 1#1 })) = 22 ∧ cause (after sScalar (.ret (rop 0 0 0 0))) = 22 ∧
    cause (after sDelay (.br { rop 0 0 0 0 with l := 1#1 })) = 2 ∧ cause (after sBoundary (.jmp (rop 0 4 0 0))) = 2 := by decide

/-- R203: a loop pushes its level; a count of 0 skips it; a full stack traps. -/
theorem test_loop :
    ((after sScalar (.loop { rop 0 12 0 2 with l := 1#1 })).core 0).seq.loops =
      [{ start := 0x41, stop := 0x45, count := 3, index := 0, rot := false, pre := true, il := false }] ∧
    (after sScalar (.loop { rop 0 0 0 0 with l := 1#1 })).bnd.ctl.jump = some 0x1180#48 ∧
    cause (after sFull (.loop { rop 0 12 0 0 with l := 1#1 })) = 22 ∧
    ((after sLoops (.loopx (rop 0 0 0 0))).core 0).seq.loops = [] := by decide

/-! ### Witnesses: the hypotheses of the scalar and control statements -/

theorem test_witness_ScalarIntegerResults :
    let s := sScalar
    let o := rop 3 4 5 1
    s.Live ∧ s.bnd.lat.regs.pGet o.guard.toNat = true ∧ s.Clear (s.scalarUse o true true false true false [s.sIdx o.d]) := by
  simp only [State.Live, clear_iff]; decide

theorem test_witness_ScalarOtherResults :
    let s := sScalar
    s.Live ∧ ∀ f ∈ [0#3, 1#3, 2#3], let o := rop 3 13 14 f
      s.bnd.lat.regs.pGet o.guard.toNat = true ∧ s.Clear (s.scalarUse o true false false true false [s.sIdx o.d]) ∧
      s.Clear (s.scalarUse o false true false true false [s.sIdx o.d]) ∧ s.Clear (s.scalarUse o true true true true false [s.sIdx o.d]) := by
  simp only [State.Live, clear_iff]; decide

/-- Division by zero, the quotient that does not fit, and any other. -/
theorem test_witness_ScalarDivisionResults :
    let s := sScalar
    s.Live ∧ s.opB (rop 3 4 0 0) = 0#64 ∧ (s.rdS (rop 3 8 9 0).a = BitVec.intMin 64 ∧ s.opB (rop 3 8 9 0) = BitVec.allOnes 64) ∧ s.opB (rop 3 4 5 0) ≠ 0#64 ∧
    ∀ o ∈ [rop 3 4 0 0, rop 3 8 9 0, rop 3 4 5 0], s.bnd.lat.regs.pGet o.guard.toNat = true ∧
      s.Clear (s.scalarUse o true true false false false [s.sIdx o.d]) := by
  simp only [State.Live, clear_iff]; decide

/-- Each comparison, signed and natural; a level that is held, and the first that is not. -/
theorem test_witness_CompareAndLoopIndex :
    let s := sLoops
    s.Live ∧ (∀ f ∈ [0#3, 1#3, 2#3, 3#3, 4#3, 5#3], ∀ d ∈ [3#5, 19#5], let o := rop d 4 5 f
      s.bnd.lat.regs.pGet o.guard.toNat = true ∧ s.Clear (s.scalarUse o true true false true false [])) ∧
    (rop 3 4 5 2).d.getLsbD 4 = false ∧ (rop 19 4 5 2).d.getLsbD 4 = true ∧ s.bnd.lat.loops[(rop 3 0 0 0).funct.toNat]? = some level ∧
    s.bnd.lat.loops.length ≤ (rop 3 0 0 1).funct.toNat ∧
    ∀ f ∈ [0#3, 1#3], s.Clear (s.scalarUse (rop 3 0 0 f) false false false true false [s.sIdx (rop 3 0 0 f).d]) := by
  simp only [State.Live, clear_iff]; decide

theorem test_witness_ScalarFloatResults :
    let s := sScalar
    s.Live ∧ ∀ f ∈ [0#3, 4#3], let o := rop 3 6 7 f
      let rs := o.funct == 4#3
      s.bnd.lat.regs.pGet o.guard.toNat = true ∧ s.Clear (s.scalarUse o true true false true rs [s.sIdx o.d]) ∧
      s.Clear (s.scalarUse o true true true true rs [s.sIdx o.d]) ∧ s.Clear (s.scalarUse o true false false true rs [s.sIdx o.d]) := by
  simp only [State.Live, clear_iff]; decide

theorem test_witness_GuardOff :
    let s := sScalar
    let o := { rop 3 4 5 0 with guard := 1#3 }
    s.bnd.probing = false ∧ s.bnd.lat.regs.pGet o.guard.toNat = false ∧ s.mapNow.keyState o.unit.toNat ≠ 3 ∧ (s.core s.bnd.core).seq.transfer = none ∧
    crossesBoundary (s.core s.bnd.core).seq.loops s.bnd.lat.pc = false := by decide

/-- Every clause of `Transfers`: a return stack empty, with room and full; a condition that holds, one that does not, and one suppressed by a failed
compare; a register target that is an address and one that is none. -/
theorem test_witness_Transfers :
    (∀ s ∈ [sScalar, sLoops, sFull], ∀ o ∈ [rop 0 4 2 5, rop 1 4 2 5, rop 0 4 2 2, rop 0 12 0 0, rop 0 0 0 0],
      s.bnd.lat.regs.pGet o.guard.toNat = true ∧ (s.core s.bnd.core).seq.transfer = none ∧
      crossesBoundary (s.core s.bnd.core).seq.loops s.bnd.lat.pc = false ∧ s.Clear (s.scalarUse o false false false true false []) ∧
      s.Clear (s.scalarUse o true false false true false [])) ∧
    (sScalar.core 0).seq.rets = [] ∧ (sLoops.core 0).seq.rets = [0x7000#48] ∧ 8 ≤ (sFull.core 0).seq.rets.length ∧
    (condInt (rop 0 4 2 5).funct.toNat (sScalar.rdS 4).toInt 0 = true ∧ ((rop 0 4 2 5).d.getLsbD 0 && sScalar.bnd.lat.cmptFail) = false) ∧
    condInt (rop 0 4 2 2).funct.toNat (sScalar.rdS 4).toInt 0 = false ∧ ((rop 1 4 2 5).d.getLsbD 0 && sFull.bnd.lat.cmptFail) = true ∧
    ((sScalar.rdS 0).toNat < 2 ^ 48 ∧ (sScalar.rdS 0).toNat % 64 = 0) ∧ ¬ ((sScalar.rdS 12).toNat < 2 ^ 48 ∧ (sScalar.rdS 12).toNat % 64 = 0) := by
  simp only [clear_iff]; decide

/-- An offset below 1 (literal 2 is −2), one past the enclosing level's last bundle (literal 3), a count of 0, six levels held, and a loop that is pushed; and
`loopx` of one level too many and of those held. -/
theorem test_witness_LoopForms :
    (∀ s ∈ [sScalar, sLoops, sFull], ∀ o ∈ [rop 0 12 0 0, rop 0 0 0 0, rop 0 12 2 0, rop 0 12 3 1, rop 0 0 0 5],
      s.bnd.lat.regs.pGet o.guard.toNat = true ∧ (s.core s.bnd.core).seq.transfer = none ∧ s.Clear (s.scalarUse o true false false true false []) ∧
      s.Clear (s.scalarUse o false false false true false [])) ∧
    (sScalar.lit 2).toInt < 1 ∧ ((level.stop ++ 0#6 : BitVec 48).toNat ≤ (sLoops.bnd.lat.pc + ((sLoops.lit 3).signExtend 48) * 64#48).toNat) ∧
    1 ≤ (sScalar.lit 0).toInt ∧ (sScalar.rdS 0).setWidth 32 = 0#32 ∧ (sScalar.rdS 12).setWidth 32 ≠ 0#32 ∧ (sScalar.core 0).seq.loops.length < 6 ∧
    6 ≤ (sFull.core 0).seq.loops.length ∧ (sLoops.core 0).seq.loops.length < (rop 0 12 3 1).funct.toNat + 1 ∧
    (rop 0 0 0 5).funct.toNat + 1 ≤ (sFull.core 0).seq.loops.length := by
  simp only [clear_iff]; decide

theorem test_witness_ControlInDelayBundle :
    (sDelay.core sDelay.bnd.core).seq.transfer.isSome = true ∧
    (sBoundary.core sBoundary.bnd.core).seq.loops = [{ level with stop := 0x42 }] ∧ (0x42#42 ++ 0#6 : BitVec 48) = sBoundary.bnd.lat.pc + 128#48 ∧
    (0x41#42 ++ 0#6 : BitVec 48) = sBoundary.bnd.lat.pc + 64#48 := by decide

/-! ### Vector and special-function results (R228–R245), worked by hand -/

/-- Logical cluster 0 enabled; q1 selects lane 0. Lane 0 of v1 to v8: 1.5, 5.0, 1.0, 17, −5, bytes 80 7F 01 FF, bytes FF 01 FF 01, and 16. -/
def vRegs : RegFile :=
  { RegFile.reset with
    s := [(4, 17#64)],
    v := [(vKey 0 1 0, 0x3FC00000#32), (vKey 0 1 1, 0x40000000#32), (vKey 0 2 0, 0x40A00000#32), (vKey 0 3 0, 0x3F800000#32), (vKey 0 4 0, 17#32),
      (vKey 0 5 0, 0xFFFFFFFB#32), (vKey 0 6 0, 0x807F01FF#32), (vKey 0 7 0, 0xFF01FF01#32), (vKey 0 8 0, 16#32), (vKey 1 1 0, 0x40400000#32)],
    q := [(1, 1#16), (9, 1#16)] }

def sVec : State := issuing { Core.reset with regs := vRegs } .va 1#8

/-- On column e0, lanes by q1. -/
def vop (ty : BitVec 3) (d a b : BitVec 5) : VecOp := { ty := ty, unit := 0#3, d := d, a := a, b := b, l := 0#1, q := 1#3 }

/-- One write, of lane 0 of v3 in physical cluster 0. -/
def lane0 (at_ : Nat) (w : W32) : List (Nat × Effect × FpFlags) := [(at_, .regs [.v (vKey 0 3 0) w], 0#6)]

theorem test_vector_float : ∀ e ∈ [
    (Instr.vadd (vop 0 3 1 2), 2, 0x40D00000#32), (Instr.vsub (vop 0 3 1 2), 2, 0xC0600000#32), (Instr.vmul (vop 0 3 1 2), 4, 0x40F00000#32),
    (Instr.vfma (vop 0 3 1 2), 4, 0x41080000#32), (Instr.vfms (vop 0 3 1 2), 4, 0x40D00000#32),
    (Instr.vfnma (vop 0 3 1 2), 4, 0xC0D00000#32), (Instr.vmin (vop 0 3 1 2), 2, 0x3FC00000#32),
    (Instr.vmax (vop 0 3 1 2), 2, 0x40A00000#32), (Instr.vneg (vop 0 3 1 0), 2, 0xBFC00000#32),
    (Instr.vclamp (vop 0 3 1 2), 2, 0x3F800000#32)],
    results sVec e.1 = lane0 e.2.1 e.2.2 := by decide

theorem test_vector_integer : ∀ e ∈ [
    (Instr.vadd (vop 3 3 4 5), 2, 12#32), (Instr.vmulh (vop 3 3 4 5), 4, 0xFFFFFFFF#32), (Instr.vadd (vop 5 3 6 7), 2, 0x7F800000#32),
    (Instr.vmin (vop 5 3 6 7), 2, 0x8001FFFF#32), (Instr.vmin (vop 6 3 6 7), 2, 0x80010101#32), (Instr.vabs (vop 3 3 5 0), 2, 5#32),
    (Instr.vdot (vop 4 3 4 5), 3, 0x3F7FFFAB#32)],
    results sVec e.1 = lane0 e.2.1 e.2.2 := by decide

theorem test_vector_logic : ∀ e ∈ [
    (Instr.vand (vop 7 3 6 7), 2, 0x80010101#32), (Instr.vor (vop 7 3 6 7), 2, 0xFF7FFFFF#32), (Instr.vxor (vop 7 3 6 7), 2, 0x7F7EFEFE#32),
    (Instr.vnot (vop 7 3 6 0), 2, 0x7F80FE00#32), (Instr.vshl (vop 3 3 4 5), 2, 0x88000000#32), (Instr.vshr (vop 3 3 5 4), 2, 0x7FFF#32),
    (Instr.vsra (vop 3 3 5 4), 2, 0xFFFFFFFF#32), (Instr.vmov (vop 7 3 6 0), 2, 0x807F01FF#32),
    (Instr.vperm (vop 7 3 1 4), 2, 0x40000000#32), (Instr.vrot (vop 7 3 1 4), 2, 0x40000000#32),
    (Instr.vsplat (vop 6 3 0 4), 1, 0x11111111#32)],
    results sVec e.1 = lane0 e.2.1 e.2.2 := by decide

/-- R233: a compare writes the bits of the enabled lanes alone; R236: 1.5 to an integer rounds to 2 and is inexact (flag X), the narrowing clamps; R239: of
the sum only lane 0 is an input. -/
theorem test_vector_coded :
    results sVec (.vclt (vop 3 2 5 4)) = [(2, .regs [.q 2 1#16 1#16], 0#6)] ∧ results sVec (.vceq (vop 3 2 5 4)) = [(2, .regs [.q 2 1#16 0#16], 0#6)] ∧
    (results sVec (.vcvt (vop 0 3 1 1))).map (fun r => (r.1, r.2.1)) = [(3, .regs [.v (vKey 0 3 0) 2#32])] ∧
    results sVec (.vcvt (vop 0 3 4 11)) = lane0 3 0x8080FB11#32 ∧ results sVec (.vred (vop 0 3 1 0)) = lane0 6 0x3FC00000#32 := by decide

/-- R214: 2^0 = 1 and √16 = 4, 1/5 to the nearest; R244: cluster 1 to cluster 0, and the sum over the enabled clusters. -/
def xop (d a b : BitVec 5) (c1 : BitVec 3) : XfOp := { ty := 0#2, d := d, a := a, b := b, c1 := c1, c2 := 0#3, q := 1#3 }

theorem test_special_exact :
    results sVec (.xexp2 (xop 3 9 0 0)) = lane0 8 0x3F800000#32 ∧ results sVec (.xsqrt (xop 3 3 0 0)) = lane0 8 0x3F800000#32 := by decide +kernel

theorem test_special_rounded :
    (results sVec (.xrcp (xop 3 2 0 0))).map (fun r => r.2.1) = [.regs [.v (vKey 0 3 0) 0x3E4CCCCD#32]] := by decide +kernel

theorem test_cross_cluster :
    results sVec (.xfer (xop 3 1 0 1)) = lane0 4 0x40400000#32 ∧ results sVec (.xbcast (xop 3 1 0 1)) = lane0 5 0x40400000#32 := by decide

theorem test_reduction_over_clusters :
    results { sVec with bnd := { sVec.bnd with lat := { sVec.bnd.lat with cmask := 3#8 } } } (.xred (xop 3 1 0 0)) =
      [(10, .regs [.v (vKey 0 3 0) 0x40900000#32], 0#6), (10, .regs [.v (vKey 1 3 0) 0x40900000#32], 0#6)] := by decide

/-! ### Witnesses: the hypotheses of the vector, cross-cluster, transposing and matrix statements -/

theorem test_witness_VectorArithmetic :
    let s := sVec
    s.Live ∧ ∀ o ∈ [vop 0 3 1 2, vop 3 3 4 5], s.Clear (s.vecUse o (srcAB o) [o.d.toNat] [] [] false) ∧
      s.Clear (s.vecUse o [o.a.toNat] [o.d.toNat] [] [] false) ∧ s.Clear (s.vecUse o (srcAB o ++ [o.d.toNat]) [o.d.toNat] [] [] false) := by
  simp only [State.Live, clear_iff]; decide

theorem test_witness_VectorLogicAndMoves :
    let s := sVec
    s.Live ∧ ∀ o ∈ [vop 7 3 6 7, { vop 3 3 4 1 with l := 1#1 }], s.Clear (s.vecUse o (srcAB o) [o.d.toNat] [] [] false) ∧
      s.Clear (s.vecUse o [o.a.toNat] [o.d.toNat] [] [] false) ∧
      s.Clear (s.vecUse o [] [o.d.toNat] [] (if o.l = 0#1 then [o.b.toNat] else []) false) := by
  simp only [State.Live, clear_iff]; decide

theorem test_witness_VectorCompare :
    let s := sVec
    let o := vop 3 2 5 4
    s.Live ∧ s.Clear (s.vecUse o (srcAB o) [] [o.d.toNat % 8] [] false) := by
  simp only [State.Live, clear_iff]; decide

/-- An aligned conversion and one that is not; a scaled format of a single register, and of a pair that is even or odd. -/
theorem test_witness_VectorGroupForms :
    let s := sVec
    let o := vop 0 4 8 15
    let narrow := vop 1 3 1 0
    let ns := cvtSrcs o.b.toNat
    let nd := cvtDsts o.b.toNat
    s.Live ∧ (o.a.toNat % ns = 0 ∧ o.d.toNat % nd = 0) ∧ (vop 0 3 8 15).d.toNat % nd ≠ 0 ∧
    s.Clear (s.vecUse o ((List.range ns).map (fun j => o.a.toNat + j)) ((List.range nd).map (fun j => o.d.toNat + j)) [] [] (o.ty == 4#3)) ∧
    narrow.ty ≠ 0#3 ∧ s.Clear (s.vecUse narrow [narrow.a.toNat] [narrow.d.toNat] [] [] false) ∧
    o.ty = 0#3 ∧ o.a.toNat % 2 = 0 ∧ o.d.toNat % 2 = 0 ∧ s.Clear (s.vecUse o [o.a.toNat, o.a.toNat + 1] [o.d.toNat] [] [] false) ∧
    s.Clear (s.vecUse o [o.a.toNat] [o.d.toNat, o.d.toNat + 1] [] [] false) ∧ (vop 0 3 1 0).a.toNat % 2 ≠ 0 ∧ (vop 0 3 1 0).d.toNat % 2 ≠ 0 := by
  simp only [State.Live, clear_iff]; decide

/-- Draws: a base that is a multiple of 32 (v1), one that is none (v6, whose lane 1 is 8); records of one cluster, which merge, and none. -/
def sDraw : State :=
  issuing { Core.reset with regs := { vRegs with v := (vKey 0 6 1, 8#32) :: [(vKey 0 9 1, 0xFFFFFF00#32)] } } .va 1#8

theorem test_witness_Draws :
    let s := sDraw
    let good := vop 1 4 2 1
    let bad := vop 1 4 2 6
    let use (o : VecOp) : SlotUse := s.vecUse o [o.a.toNat, o.b.toNat] [o.d.toNat, o.d.toNat + 1] [] [] false
    let o := xop 4 2 8 0
    let ps := s.clusters.map s.bm.phys
    s.Live ∧ good.d.toNat % 2 = 0 ∧ s.Clear (use good) ∧ s.Clear (use bad) ∧
    (∀ c, c < 8 → s.bnd.lat.cmask.getLsbD c = true → (s.vAt (s.bm.phys c) (s.vreg good.b.toNat) 1).toNat % 32 = 0 ∧
      (s.vAt (s.bm.phys c) (s.vreg good.b.toNat) 1).toNat + 32 ≤ 0xFFFFFF00) ∧
    (0 < 8 ∧ s.bnd.lat.cmask.getLsbD 0 = true ∧ (s.vAt (s.bm.phys 0) (s.vreg bad.b.toNat) 1).toNat % 32 ≠ 0) ∧
    0xFFFFFF00 < (s.vAt (s.bm.phys 0) (s.vreg 9) 1).toNat + 32 ∧ o.d.toNat % 2 = 0 ∧ o.a.toNat % 2 = 0 ∧
    s.Clear { reach := ps.map xfKey, units := ps.map xfKey,
              reads := s.vecKeys ps [o.a.toNat, o.a.toNat + 1] [o.q.toNat] ++ s.vecKeys [s.bm.phys o.c1.toNat] [o.b.toNat] [],
              writes := s.vecKeys ps [o.d.toNat, o.d.toNat + 1] [], holds := true, rs := false } := by
  simp only [State.Live, clear_iff]; decide

/-- The inputs of that merge, and of one whose records lie in no enabled cluster. -/
theorem test_witness_Draws_merge :
    let s := sDraw
    let o := xop 4 2 8 0
    let desc := s.drawDesc (s.bm.phys o.c1.toNat) (s.vreg o.b.toNat)
    let r := drawOf (s.vAt 0 (s.vreg 2) 0) (s.vAt 0 (s.vreg 3) 0) (s.vAt 0 (s.vreg 2) 1) (s.vAt 0 (s.vreg 3) 1)
    drawRounds desc.seed desc.drawid 3 (some r :: List.replicate 7 none) = some [some r] ∧
    drawRounds desc.seed desc.drawid 3 (List.replicate 8 none) = some [none] := by decide +kernel

theorem test_witness_SpecialFunctions :
    let s := sVec
    let o := xop 3 1 0 0
    s.Live ∧ s.Clear (s.xfUse o [o.a.toNat] s.clusters [o.d.toNat]) := by
  simp only [State.Live, clear_iff]; decide

theorem test_witness_CrossCluster :
    let s := sVec
    let o := xop 3 1 0 7
    s.Live ∧ s.Clear (s.xfUse o [o.a.toNat] (s.clusters.map (fun c => (c + o.c1.toNat) % 8)) [o.d.toNat]) ∧
    s.Clear (s.xfUse o [o.a.toNat] (s.clusters.map (fun _ => o.c1.toNat)) [o.d.toNat]) ∧ s.Clear (s.xfUse o [o.a.toNat] s.clusters [o.d.toNat]) := by
  simp only [State.Live, clear_iff]; decide

/-- A transposing unit of 16-bit elements with the rows and the capture given. -/
def unitOf (mask : BitVec 16) (capV : Bool) (capCycle : Nat) : Machine.Transposer :=
  { Machine.Transposer.reset with esize := 1#2, mask := mask, capV := capV, capCycle := capCycle, block := [(0, 0x0002_0001#512)], capture := [(0, 0x0006_0005#512)] }

def sXt (u : Machine.Transposer) : State := issuing { Core.reset with regs := vRegs, xt := [(0, u)] } .xt 1#8

def xtop (idx : BitVec 5) (esize : BitVec 2) : XtOp := { v := 3#5, idx := idx, esize := esize }

/-- R271: `tcol` lands a column, 16 cycles from a block it captures and 2 from a capture it reads. -/
theorem test_transposer :
    (results (sXt (unitOf 0xFFFF#16 false 0)) (.tcol (xtop 0 1))).map (fun r => r.1) = [16] ∧
    (results (sXt (unitOf 0#16 true 85)) (.tcol (xtop 0 1))).map (fun r => r.1) = [2] ∧
    results (sXt (unitOf 0#16 true 86)) (.tcol (xtop 0 1)) = [] ∧ cause (after (sXt (unitOf 0#16 true 86)) (.tcol (xtop 0 1))) = 5 ∧
    results (sXt (unitOf 0#16 true 86)) (.tmode (xtop 0 2)) = [(1, .xtClear [0] (some 2#2), 0#6)] := by decide

/-- A row above 15, another element size; a full block; a capture 15 cycles old and one that is not yet. -/
theorem test_witness_Transposer :
    (let s := sXt (unitOf 0xFFFF#16 false 0)
     s.Live ∧ (xtop 16 1).idx.getLsbD 4 = true ∧ (0 ∈ s.clusters ∧ ((s.core 0).xtUnit (s.bm.phys 0)).esize ≠ (xtop 0 2).esize) ∧
     ((xtop 15 1).idx.getLsbD 4 = false ∧ ∀ k ∈ s.clusters, ((s.core 0).xtUnit (s.bm.phys k)).esize = (xtop 15 1).esize) ∧
     (∀ k ∈ s.clusters, ((s.core 0).xtUnit (s.bm.phys k)).mask = 0xFFFF#16) ∧ s.clusters.Nodup ∧ (s.clusters.map s.bm.phys).Nodup ∧
     s.Clear (s.xtUse [3] []) ∧ s.Clear (s.xtUse [] []) ∧ s.Clear (s.xtUse [] [3])) ∧
    (let s := sXt (unitOf 0xFFFE#16 true 85)
     s.Clear (s.xtUse [] [3]) ∧ ∀ k ∈ s.clusters, ((s.core 0).xtUnit (s.bm.phys k)).mask ≠ 0xFFFF#16 ∧
       (((s.core 0).xtUnit (s.bm.phys k)).capV = true ∧ ((s.core 0).xtUnit (s.bm.phys k)).capCycle + 15 ≤ s.cycle)) ∧
    (let s := sXt (unitOf 0xFFFE#16 true 86)
     s.Clear (s.xtUse [] [3]) ∧ 0 ∈ s.clusters ∧ ((s.core 0).xtUnit (s.bm.phys 0)).mask ≠ 0xFFFF#16 ∧
       ¬ (((s.core 0).xtUnit (s.bm.phys 0)).capV = true ∧ ((s.core 0).xtUnit (s.bm.phys 0)).capCycle + 15 ≤ s.cycle)) := by
  simp only [State.Live, clear_iff]; decide

/-! ### The matrix array (R249–R269) -/

/-- s13 and s14 name rows and chunks, s15 has a reserved bit set; entry 1 runs with P = 15, entry 2 does not run, entry 3 names no A format; level 0 is bound to
entry 1; four scale entries are queued. -/
def mRegs : RegFile :=
  { vRegs with s := [(4, 17#64), (13, 0x20003#64), (14, 0x7F03FF#64), (15, 0x10001000000000#64)] }

def entryRun : W64 := BitVec.ofNat 64 (32 + 14 * 64)

def scaleEntry : List Byte := List.replicate 64 127#8

def mxCore (mx : Matrix) (inflight : List Landing) : Core :=
  { Core.reset with regs := mRegs, mx := mx, inflight := inflight, seq := { Sequencer.reset with loops := [{ level with index := 0 }] } }

def mx0 : Matrix :=
  { Matrix.reset with fmt := [(1, entryRun), (2, 9#64), (3, 3#64)], scaleQ := List.replicate 4 scaleEntry, scaleIssue := List.replicate 4 0, bind := some (0, 1) }

def sMx (mx : Matrix) (inflight : List Landing) : State := issuing (mxCore mx inflight) .mx 0#8

/-- A run of tile 5 and three rows under entry 1 that has counted as given. -/
def runOf (count : Nat) (ovf : Bool) : MatrixRun :=
  { isOpen := true, rt := 5, rm := 3, re := 1, entry := entryRun, count := count, ovf := ovf, rsa := List.replicate 3 127#8, rsb := List.replicate 32 127#8,
    inner := [(0, 4096)] }

/-- A result of slot MX due at cycle 120. -/
def mxPending (eff : Effect) (tile count : Nat) : Landing :=
  { id := 900, at_ := 120, issue := 90, slot := 7, pc := 0#48, word := 0#32, eff := eff, flags := 0#6, cluster := 0, lane := 0, handler := false,
    busyTile := tile, busyCount := count }

def mm (tile : BitVec 8) (rows : BitVec 7) (fmt : BitVec 6) (cs : BitVec 4) : MmacOp := { tile := tile, mm1 := rows, fmt := fmt, cs := cs }

/-- R256, R267: rows of an `mmac` land from +13 on, one a cycle; the scale entries are taken; R258: a run is promoted at +8; R268: `mclr` at +2. -/
theorem test_matrix :
    (results (sMx mx0 []) (.mmac (mm 5 2 1 13))).map (fun r => r.1) = [13, 14, 15] ∧
    ((after (sMx mx0 []) (.mmac (mm 5 2 1 13))).core 0).mx.scaleQ.length = 3 ∧
    cause (after (sMx { mx0 with arrayFree := 101 } []) (.mmac (mm 5 2 1 13))) = 5 ∧
    cause (after (sMx { mx0 with run := runOf 13 false } []) (.mmac (mm 5 2 1 13))) = 16 ∧
    cause (after (sMx { mx0 with scaleQ := [] } []) (.mmac (mm 5 2 1 13))) = 8 ∧
    results (sMx mx0 []) (.mclr { tile := 186#8, nm1 := 5#3 }) = [(2, .clearTiles 186 6, 0#6)] ∧
    results (sMx mx0 []) (.mfmt 2#6 4#5) = [] ∧ results (sMx mx0 []) (.mfsel 5#3 44#6) = [(1, .binding 5 44, 0#6)] ∧
    results (sMx mx0 []) (.mscq 0#6) = [(1, .discardScales 4, 0#6)] := by decide

theorem test_promotion :
    (results (sMx { mx0 with run := runOf 3 false } []) (.mprom 0#1)).map (fun r => r.1) = [8] ∧
    cause (after (sMx { mx0 with run := runOf 3 true } []) (.mprom 1#1)) = 15 ∧ results (sMx mx0 []) (.mprom 1#1) = [] := by decide +kernel

/-- Every form with good operands, with those it does not allow, busy tiles and a queue that is too short. -/
theorem test_witness_MatrixMoves :
    (let s := sMx mx0 []
     s.Live ∧ s.MxDirect ∧ (3#5).toNat % 2 = 1 ∧ (2#5).toNat % 2 = 0 ∧ s.Clear (mxUse (s.clusterKeys 0 [2, 3]) []) ∧
     ((0#3).toNat % 2 = 0 ∧ (1#3).toNat % 2 = 1) ∧ s.Clear (mxUse [] []) ∧
     (((s.core 0).xtUnit (s.bm.phys 0)).readable s.cycle = false) ∧
     (191 < (192#8).toNat ∧ (191#8).toNat ≤ 191) ∧ s.bnd.lat.loops ≠ [] ∧ sVec.bnd.lat.loops = [] ∧ (s.core 0).tilesBusy 191 1 = false ∧
     192 < 191 + (1#3).toNat + 1 ∧ 191 + (0#3).toNat + 1 ≤ 192 ∧ s.Clear (mxUse [14] []) ∧ s.Clear (mxUse [13] []) ∧
     (32 < (33#6).toNat ∧ (32#6).toNat ≤ 32) ∧ (4#6).toNat ≤ (s.core 0).mx.scaleQ.length + (s.scalesInFlight 0).length ∧
     (s.core 0).mx.scaleQ.length + (s.scalesInFlight 0).length < (5#6).toNat) ∧
    (let s := sMx mx0 [mxPending (.clearTiles 5 2) 5 2]
     s.Live ∧ s.MxDirect ∧ s.Clear (mxUse (s.clusterKeys 0 [2, 3]) []) ∧ s.Clear (mxUse [] []) ∧ (s.core 0).tilesBusy 6 1 = true ∧ (s.core 0).timed = false) ∧
    (let s := issuing { Core.reset with regs := vRegs, xt := [(0, unitOf 0#16 true 85), (1, unitOf 0#16 true 85)] } .mx 0#8
     s.Live ∧ s.MxDirect ∧ s.Clear (mxUse [] []) ∧ ((s.core 0).xtUnit (s.bm.phys 0)).readable s.cycle = true ∧
       ((s.core 0).xtUnit (s.bm.phys 1)).readable s.cycle = true) := by
  simp only [State.Live, State.MxDirect, clear_iff]; decide

/-- A format entry that is legal (the word 0 and a run), and one with a bit above its fields or with no A format. -/
theorem test_witness_MatrixMoves_format :
    (let v := entryRun
     v.toNat < 2 ^ 21 ∧ v.getLsbD 4 = false ∧ fmtA v ≠ 3 ∧ fmtB v ≠ 3 ∧
       (v.getLsbD 5 = true → fmtBlocks v ≤ fmtP v ∧ (v.getLsbD 12 = true ∨ fmtP v ≤ safeRun (fmtA v) (fmtB v)))) ∧
    ¬ (0x200000#64).toNat < 2 ^ 21 ∧ fmtA 3#64 = 3 := by decide

theorem test_witness_MatrixRead :
    (let s := sMx mx0 []
     s.Live ∧ s.MxDirect ∧ (3#5).toNat % 2 = 1 ∧ 191 < (192#8).toNat ∧ (2#5).toNat % 2 = 0 ∧ (191#8).toNat ≤ 191 ∧ s.bnd.lat.loops ≠ [] ∧
     sVec.bnd.lat.loops = [] ∧ s.Clear (mxUse [] (s.clusterKeys 0 [2, 3])) ∧ (s.core 0).tilesBusy 5 1 = false) ∧
    (let s := sMx mx0 [mxPending (.clearTiles 5 2) 5 2]
     s.Live ∧ s.MxDirect ∧ s.Clear (mxUse [] (s.clusterKeys 0 [2, 3])) ∧ (s.core 0).tilesBusy 5 1 = true ∧ (s.core 0).timed = false) := by
  simp only [State.Live, State.MxDirect, clear_iff]; decide

/-- The hypotheses of `MatrixMultiply` about the operands, in the statement's words. -/
abbrev mmacLegal (s : State) (o : MmacOp) (i : Nat) : Prop :=
  let c := s.core s.bnd.core
  let v := s.bnd.lat.regs.sGet o.cs.toNat
  let run := c.mx.run
  let cont := fmtRun (c.mx.entry i) && run.isOpen
  let e := if cont then run.entry else c.mx.entry i
  v &&& ~~~0x7F03FF#64 = 0#64 ∧ (cont = true → run.rt = o.tile.toNat ∧ run.rm = o.mm1.toNat + 1 ∧ run.re = i) ∧ fmtA e ≠ 3 ∧ fmtB e ≠ 3 ∧
    o.tile.toNat + fmtTiles e ≤ 192

abbrev mmacInRun (s : State) (i : Nat) : Prop :=
  let c := s.core s.bnd.core
  let run := c.mx.run
  let cont := fmtRun (c.mx.entry i) && run.isOpen
  let e := if cont then run.entry else c.mx.entry i
  fmtRun e = true → (if cont then run.count else 0) + fmtBlocks e ≤ fmtP e

/-- Operands that are not legal; the array busy; the group busy; a run that is full; scales that are short, or on their way; and a product that starts a run,
one that continues it to its last block, and one that does not run. -/
theorem test_witness_MatrixMultiply :
    (∀ s ∈ [sMx mx0 [], sMx { mx0 with bind := none } [], sMx { mx0 with arrayFree := 101 } [], sMx { mx0 with run := runOf 12 false } []], s.Live ∧ s.MxDirect ∧
      s.Clear (mxUse [(13#4).toNat] []) ∧ s.Clear (mxUse [(15#4).toNat] [])) ∧
    (sMx { mx0 with bind := none } []).boundEntry = none ∧ (sMx mx0 []).boundEntry = some 1 ∧
    ¬ mmacLegal (sMx mx0 []) (mm 5 2 1 15) 1 ∧ ¬ mmacLegal (sMx mx0 []) (mm 192 0 0 13) 0 ∧ mmacLegal (sMx mx0 []) (mm 5 2 1 13) 1 ∧
    mmacLegal (sMx mx0 []) (mm 5 127 2 14) 2 ∧
    (mmacLegal (sMx { mx0 with arrayFree := 101 } []) (mm 5 2 1 13) 1 ∧ (sMx { mx0 with arrayFree := 101 } []).cycle < ((sMx { mx0 with arrayFree := 101 } []).core 0).mx.arrayFree ∧
      ((sMx { mx0 with arrayFree := 101 } []).core 0).timed = false) ∧
    (let s := sMx mx0 [mxPending (.clearTiles 5 1) 5 1]
     s.Live ∧ s.MxDirect ∧ s.Clear (mxUse [13] []) ∧ mmacLegal s (mm 5 2 1 13) 1 ∧ (s.core 0).mx.arrayFree ≤ s.cycle ∧
     (s.core 0).groupBusy 5 (fmtTiles ((s.core 0).mx.entry 1)) = true) ∧
    (let s := sMx mx0 []
     (s.core 0).mx.arrayFree ≤ s.cycle ∧ (s.core 0).groupBusy 5 (fmtTiles ((s.core 0).mx.entry 1)) = false ∧ mmacInRun s 1 ∧ mmacInRun s 2) ∧
    mmacInRun (sMx { mx0 with run := runOf 12 false } []) 1 ∧ mmacLegal (sMx { mx0 with run := runOf 12 false } []) (mm 5 2 1 13) 1 ∧
    ¬ mmacInRun (sMx { mx0 with run := runOf 13 false } []) 1 ∧ (mx0.scaleQ.length = 4 ∧ (2 + 1 + 63) / 64 ≤ mx0.scaleQ.length) ∧
    ((sMx { mx0 with scaleQ := [] } []).scalesInFlight 0).length = 0 ∧
    ((sMx { mx0 with scaleQ := [] } [mxPending (.scale scaleEntry) 0 0]).scalesInFlight 0).length = 1 := by
  simp only [State.Live, State.MxDirect, clear_iff, mmacLegal, mmacInRun]
  repeat' apply And.intro
  all_goals decide

/-- No run; a run with the array busy, with its tiles busy, with OVF set, and ready. -/
theorem test_witness_Promotion :
    (∀ s ∈ [sMx mx0 [], sMx { mx0 with run := runOf 3 false } [], sMx { mx0 with run := runOf 3 true } [], sMx { mx0 with run := runOf 3 false, arrayFree := 101 } [],
        sMx { mx0 with run := runOf 3 false } [mxPending (.clearTiles 5 1) 5 1]], s.Live ∧ s.MxDirect ∧ s.Clear (mxUse [] []) ∧ (s.core 0).timed = false) ∧
    ((sMx mx0 []).core 0).mx.run.isOpen = false ∧ (runOf 3 false).isOpen = true ∧ 100 < ((sMx { mx0 with arrayFree := 101 } []).core 0).mx.arrayFree ∧
    ((sMx { mx0 with run := runOf 3 false } [mxPending (.clearTiles 5 1) 5 1]).core 0).tilesBusy 5 (fmtTiles entryRun) = true ∧
    ((sMx { mx0 with run := runOf 3 false } []).core 0).tilesBusy 5 (fmtTiles entryRun) = false ∧ (runOf 3 true).ovf = true ∧ (runOf 3 false).ovf = false := by
  simp only [State.Live, State.MxDirect, clear_iff]; decide

/-! ### Loads, stores, far operations and barriers -/

/-- Scratchpad addresses (space 1), HBM addresses (space 0), other spaces, and operands. -/
def aRegs : RegFile :=
  { vRegs with
    s := [(4, 17#64), (5, 3#64), (6, 0x10000#64), (12, 5#64), (13, 0#64), (14, 0x1000000000001040#64), (16, 0x1000000000002000#64),
      (17, 0x1000000000001043#64), (18, 0x7000000000001000#64), (19, 0x5000#64), (21, 0x5003#64), (22, 0x1000000000001080#64), (23, 0x30077#64),
      (24, 0x5000000000000040#64), (26, 0x1000000000001080#64), (27, 0x400077#64), (28, 0x1000000000001080#64), (29, 0x30078#64)] }

/-- The station given holds every bank cycle. -/
def grantsTo (st : Nat) : Tbl Nat := (List.range 1024).map (fun k => (k, st))

def ropeOfStation (st : Nat) : Rope := { Rope.reset with grants := grantsTo st }

def sMem (k : SlotKind) (st : Nat) : State := { issuing { Core.reset with regs := aRegs } k 0#8 with ropes := [(0, ropeOfStation st)] }

def sLd : State := sMem .ld 0
def sSt : State := sMem .st 4

/-- The same bundle in an interlocked loop. -/
def inIl (s : State) : State := { s with bnd := { s.bnd with lat := { s.bnd.lat with il := true } } }

/-- The same bundle after a failed compare. -/
def afterMiss (s : State) : State := { s with bnd := { s.bnd with lat := { s.bnd.lat with cmptFail := true } } }

/-- The segment time of a load's path from the line at the address, and of a store's path to it, on lane 0. -/
def loadSegs (s : State) (a : W64) : List Nat := pathSegs 0 (2 * (a.toNat / 64 % 16)) (2 * loadStation s.bnd.core + 1)
def storeSegs (s : State) (a : W64) : List Nat := pathSegs 0 (2 * storeStation s.bnd.core + 1) (2 * (a.toNat / 64 % 16))

/-- R51, R143: an access in flight and its events, or the fault of the first check that fails. -/
theorem test_load_checks :
    let o : LdOp := { d := 3#5, a := 14#5, lane := 0#4, tap := 9#6, size := 3#2, sx := 0#1, il := 0#1 }
    (((after sLd (.ld o)).rope 0).accs.map (fun x => (x.off, x.banks)) = [(0x1040, [(1, 102)])]) ∧
    (after sLd (.ld o)).agenda.map (fun d => d.at_) = [102, 109] ∧
    cause (after sLd (.ld { o with a := 17#5 })) = 12 ∧ cause (after sLd (.ld { o with a := 18#5, size := 0#2 })) = 10 ∧
    cause (after sSt (.ld o)) = 7 ∧ cause (after sLd (.ld { o with il := 1#1 })) = 2 := by decide +kernel

/-- R144, R156: a far operation only joins the core's queue at issue. -/
theorem test_far_issue :
    let o : LdgOp := { d := 3#5, a := 19#5, size := 3#2, sx := 0#1 }
    ((after sLd (.ldg o)).core 0).far.ops.map (fun f => (f.addr, f.dest)) = [(0x5000#64, 3)] ∧ cause (after sLd (.ldg { o with a := 21#5 })) = 12 ∧
    ((after sLd (.fence 0#3)).core 0).far.fences = [(0, 100)] ∧ cause (after sLd (.fence 5#3)) = 2 := by decide

/-- The clauses of an access to the scratchpad: an address that is not aligned, one that is none of space 1, a lane or tap that is refused, no bank cycle, and
none of these. -/
theorem test_witness_StaticLoads :
    (let s := sLd
     let segs := loadSegs s 0x1000000000001040#64
     s.Clear (portUse [14] [3]) ∧ s.Clear (portUse [17] [3]) ∧ s.Clear (portUse [18] [3]) ∧ (0x1000000000001043#64).toNat % 8 ≠ 0 ∧
     (0x1000000000001040#64).toNat % 64 = 0 ∧ addrCode s.sec.members [1] 0x7000000000001000#64 ≠ 0 ∧ addrCode s.sec.members [1] 0x1000000000001040#64 = 0 ∧
     s.laneFault 0 0 (s.pathOf 0 0 segs) none 9 = none ∧ (s.rope 0).bankFault 0 [(1, 102)] = none ∧
     (sSt.rope 0).bankFault 0 [(1, 102)] ≠ none ∧ (s.core 0).mx.scaleQ.length + (s.scalesInFlight 0).length < 32 ∧
     s.Clear (portUse [14] [vRegKey 0 3]) ∧ s.Clear (portUse [14, 10000 + qKey 0 1] [vRegKey 0 3]) ∧ s.Clear (portUse [14, vRegKey 0 3] [vRegKey 0 3]) ∧
     s.Clear (portUse [14] []) ∧ (0x1000000000002000#64).toNat % 1024 = 0 ∧ (s.rope 0).bankFault 0 ((List.range 16).map (fun b => (b, 102))) = none) ∧
    (let s := { sLd with dies := [(0, { Die.reset with maps := [{ DieMap.reset with version := 2, ropes := [(0, { RopeMap.reset with deadln := 1#16 })] }] })] }
     s.Clear (portUse [14] [3]) ∧ (s.laneFault 0 0 (s.pathOf 0 0 (loadSegs s 0x1000000000001040#64)) none 9).isSome = true) := by
  simp only [clear_iff]
  repeat' apply And.intro
  all_goals decide +kernel

/-- The launch of tenant 3 that core 0 holds. -/
def launch9 : CoreLaunch :=
  { launch := 9, lcore := 0, ncore := 1, tenant := 3, objHash := [], kernel := 0, section_ := 0, ib := 0#48, mapVersion := 1, imageMode := 0#1,
    checkDue := false, firmwareTrap := false, trans := none }

/-- Tenant 3 owns core 0 and handles 0 to 10 of rope 0. -/
def tenant3 : Security := { Security.reset with partitions := [(3, { Partition.reset with cores := [0], handles := [(0, 0, 10)] })] }

/-- A full handle 3 of tag 0x77 that covers line 0x42, a filling one and a faulted one. -/
def tagHandles : Tbl Handle :=
  [(3, { Handle.reset with st := .full, tag := 0x77#16, base := 0x41, len := 3 }), (4, { Handle.reset with st := .filling, base := 0x41, len := 3 }),
    (5, { Handle.reset with st := .faulted })]

def sTag : State :=
  { sLd with
    ropes := [(0, { ropeOfStation 0 with handles := tagHandles })],
    cores := [(0, { Core.reset with regs := aRegs, launch := some launch9 })],
    sec := tenant3 }

/-- An odd base register; a check register with bit 22 set (s27); a faulted or foreign handle, a line outside; a handle still filling; another tag at the
first check (s29); and the tag that is expected (s23). -/
theorem test_witness_TaggedLoads :
    let s := sTag
    let x := (s.rope 0).handle 3
    (13#5).toNat % 2 = 1 ∧ (22#5).toNat % 2 = 0 ∧ (26#5).toNat % 2 = 0 ∧ s.Clear (portUse [22, 23] [vRegKey 0 17]) ∧ s.Clear (portUse [26, 27] [vRegKey 0 17]) ∧
    2 ^ 22 ≤ (s.rdPlain (26#5 + 1#5)).toNat ∧ (s.rdPlain (22#5 + 1#5)).toNat < 2 ^ 22 ∧ (s.rdPlain 22#5).toNat % 64 = 0 ∧
    addrCode s.sec.members [1] (s.rdPlain 22#5) = 0 ∧ s.handleOwned 0 3 = true ∧ s.handleOwned 0 20 = false ∧ ((s.rope 0).handle 5).st = .faulted ∧
    ((s.rope 0).handle 4).st ≠ .full ∧ ((s.rope 0).handle 4).st ≠ .faulted ∧ x.st = .full ∧
    ¬ ((s.rdPlain 22#5).toNat % 2 ^ 23 / 64 < x.base ∨ x.base + x.len < (s.rdPlain 22#5).toNat % 2 ^ 23 / 64) ∧ 0x45 > x.base + x.len ∧
    (x.chk.getLsbD 0 = false ∧ x.tag ≠ (s.rdPlain (28#5 + 1#5)).setWidth 16) ∧ x.tag = (s.rdPlain (22#5 + 1#5)).setWidth 16 ∧
    s.laneFault 0 0 (s.pathOf 0 0 (loadSegs s (s.rdPlain 22#5))) none 9 = none ∧ (s.rope 0).bankFault 0 [(2, 102)] = none := by
  simp only [clear_iff]
  repeat' apply And.intro
  all_goals decide +kernel

theorem test_witness_StaticStores :
    let s := sSt
    let a := 0x1000000000001040#64
    let segs := storeSegs s a
    let w := segsTime (s.ropeMap 0) segs
    s.Clear (portUse [5, 14] []) ∧ s.Clear (portUse [14, vRegKey 0 3] []) ∧ s.Clear (portUse [14, vRegKey 0 3, 10000 + qKey 0 1] []) ∧
    s.Clear (portUse [16, vRegKey 0 2, vRegKey 0 3] []) ∧ (3#5).toNat % 2 = 1 ∧ (2#5).toNat % 2 = 0 ∧ s.bnd.lat.cmptFail = false ∧
    (afterMiss s).bnd.lat.cmptFail = true ∧ (s.rdPlain 17#5).toNat % 8 ≠ 0 ∧ a.toNat % 64 = 0 ∧ addrCode s.sec.members [1] (s.rdPlain 18#5) ≠ 0 ∧
    addrCode s.sec.members [1] a = 0 ∧ s.laneFault 0 0 (s.pathOf 0 4 segs) (some (2 + w)) (2 + w) = none ∧
    (s.laneFault 0 0 (s.pathOf 0 4 segs) (some (2 + w)) (3 + w)).isSome = true ∧ (s.rope 0).bankFault 4 [(1, 102 + w)] = none ∧
    (sLd.rope 0).bankFault 4 [(1, 102 + w)] ≠ none := by
  simp only [clear_iff]
  repeat' apply And.intro
  all_goals decide +kernel

theorem test_witness_InterlockedAccesses :
    sLd.bnd.lat.il = false ∧ (inIl sLd).bnd.lat.il = true ∧ (inIl sLd).Clear (portUse [14] [3]) ∧ (inIl sLd).Clear (portUse [14] [vRegKey 0 3]) ∧
    (inIl sSt).Clear (portUse [5, 14] []) ∧ (inIl sSt).Clear (portUse [14, vRegKey 0 3] []) ∧ (inIl sSt).suppressed 0#1 = false := by
  simp only [clear_iff]; decide

theorem test_witness_ScratchpadAtomics :
    let s := sSt
    let a := s.rdPlain 14#5
    let segs := storeSegs s a
    let w := segsTime (s.ropeMap 0) segs
    a.toNat / 2 ^ 60 ≠ 0 ∧ a.toNat / 2 ^ 60 ≠ 5 ∧ s.Clear (portUse [5, 14] [3]) ∧ s.Clear (portUse [5, 14, 3] [3]) ∧ a.toNat % 8 = 0 ∧
    (s.rdPlain 17#5).toNat % 8 ≠ 0 ∧ addrCode s.sec.members [0, 1, 5] a = 0 ∧ addrCode s.sec.members [0, 1, 5] (s.rdPlain 18#5) ≠ 0 ∧
    s.laneFault 0 0 (s.pathOf 0 4 segs) (some (2 + w)) (2 + w) = none ∧ (s.laneFault 0 0 (s.pathOf 0 4 segs) (some (2 + w)) (3 + w)).isSome = true ∧
    (s.rope 0).bankFault 4 [(1, 102 + w), (1, 104 + 2 * w)] = none ∧ (sLd.rope 0).bankFault 4 [(1, 102 + w), (1, 104 + 2 * w)] ≠ none := by
  simp only [clear_iff]
  repeat' apply And.intro
  all_goals decide +kernel

/-- Thirty-two outstanding far operations. -/
def sBusyFar : State :=
  let f : FarOp := { id := 900, seq := 0, kind := .load 3 false, addr := 0x5000#64, phys := 0, data := 0#64, cmp := 0#64, dest := 9, pc := 0#48, root := 0#64,
                     phase := .queued, value := 0#64, fault := 0, heldBack := false, issued := 90, handler := false, desc := [], slot := 9, word := 0#32 }
  { sLd with cores := [(0, { Core.reset with regs := aRegs, far := { FarQueue.reset with ops := (List.range 32).map (fun k => { f with id := 900 + k }) } })] }

theorem test_witness_FarOperations :
    (∀ s ∈ [sLd, sBusyFar], s.Clear (portUse [19] [3]) ∧ s.Clear (portUse [21] [3]) ∧ s.Clear (portUse [5, 19] []) ∧ s.Clear (portUse [5, 19] [3]) ∧
      s.Clear (portUse [5, 24, 3] [3])) ∧
    (sLd.rdPlain 21#5).toNat % 4 ≠ 0 ∧ (sLd.rdPlain 19#5).toNat % 8 = 0 ∧ 32 ≤ (sBusyFar.core 0).outstanding ∧ (sLd.core 0).outstanding < 32 ∧
    (sLd.rdPlain 19#5).toNat / 2 ^ 60 = 0 ∧ (sLd.rdPlain 24#5).toNat / 2 ^ 60 = 5 ∧ (afterMiss sLd).bnd.lat.cmptFail = true ∧ sLd.bnd.lat.cmptFail = false ∧
    (5 ≤ (5#3).toNat ∧ (4#3).toNat < 5) := by
  simp only [clear_iff]
  repeat' apply And.intro
  all_goals decide +kernel

/-- An open region, with what its begin recorded. -/
def region0 : Region :=
  { pitch := false, hIn := 0, hOut := 0, h := 50, first := 0, restart := 0x800#48, time := 1, rets := [], loops := [], rrb := 0#4, p := 0#8, rndseq := 0#64, fpflags := 0#64,
    fpfirst := 0#64, retry := 0, unprotected := false, keptS := [], keptV := [], keptQ := [], keptVregs := [], keptPreds := false, beside := .reset, shadow := [], movedLines := 0 }

def withCore (s : State) (f : Core → Core) : State := { s with cores := [(0, f (s.core 0))] }

def sRegion : State := withCore sSt (fun c => { c with belay := { Belay.reset with regions := [region0] } })
def sLatch : State := withCore sSt (fun c => { c with latch := { valid := true, addr := 0x1000000000001040#64, released := false, cycle := 0 } })

/-- A store of the core that has not found its bank cycle. -/
def sStoring : State :=
  { sSt with ropes := [(0, { ropeOfStation 4 with accs := [{ sSt.newAccess .st 0x40 9 0 4 with interlocked := true }] })] }

/-- No region: an expected count of 0, of 2^16 and good; the latch free, held for another address, and held for this one; with a region open every form is
illegal; and a write cycle that an earlier access of the core takes. -/
theorem test_witness_BarrierForms :
    (let s := sSt
     let a := s.rdPlain 14#5
     let segs := storeSegs s a
     let w := segsTime (s.ropeMap 0) segs
     s.Clear (portUse [14, 5] []) ∧ s.Clear (portUse [14, 13] []) ∧ s.Clear (portUse [14, 6] []) ∧ s.Clear (portUse [14] []) ∧ (s.core 0).belay.regions = [] ∧
     s.rdPlain 13#5 = 0#64 ∧ 2 ^ 16 ≤ (s.rdPlain 6#5).toNat ∧ (s.rdPlain 5#5 ≠ 0#64 ∧ (s.rdPlain 5#5).toNat < 2 ^ 16) ∧ (s.core 0).latch.valid = false ∧
     a.toNat % 8 = 0 ∧ addrCode s.sec.members [1] a = 0 ∧ s.laneFault 0 0 (s.pathOf 0 4 segs) (some (2 + w)) (2 + w) = none ∧
     (s.rope 0).bankFault 4 [(1, 102 + w), (1, 104 + 2 * w)] = none ∧ s.writesAt 0 (104 + 2 * w) = false ∧
     s.rdPlain 14#5 = 0x1000000000001040#64) ∧
    (let s := sStoring
     let segs := storeSegs s (s.rdPlain 14#5)
     let w := segsTime (s.ropeMap 0) segs
     s.Clear (portUse [14] []) ∧ (s.core 0).belay.regions = [] ∧ (s.core 0).latch.valid = false ∧
     s.laneFault 0 0 (s.pathOf 0 4 segs) (some (2 + w)) (2 + w) = none ∧ (s.rope 0).bankFault 4 [(1, 102 + w), (1, 104 + 2 * w)] = none ∧
     s.writesAt 0 (104 + 2 * w) = true) ∧
    (let s := sRegion
     s.Clear (portUse [14, 5] []) ∧ s.Clear (portUse [14] []) ∧ (s.core 0).belay.regions ≠ []) ∧
    (let s := sLatch
     s.Clear (portUse [14] []) ∧ (s.core 0).belay.regions = [] ∧ (s.core 0).latch.valid = true ∧ (s.core 0).latch.addr = s.rdPlain 14#5 ∧
     (s.core 0).latch.addr ≠ s.rdPlain 16#5) := by
  simp only [clear_iff]
  repeat' apply And.intro
  all_goals decide +kernel

/-! ### Copy engines, handles and collective commands -/

/-- Descriptors at s4 (scratchpad to HBM, 128 bytes, start 104), s8 (scratchpad to scratchpad line 0x41, start 90), s12 (not aligned), s16 (scratchpad to the
B store, one row), s24 (a source in space 7) and s28 (LEN 0). -/
def dRegs : RegFile :=
  { RegFile.reset with
    s := [(4, 0x1000000000004000#64), (5, 0x8000#64), (6, 0x0055000000000080#64), (7, 104#64), (8, 0x1000000000004000#64), (9, 0x1000000000001040#64),
      (10, 0x80#64), (11, 90#64), (12, 2#64), (13, 64#64), (14, 128#64), (15, 200#64), (16, 0x1000000000004000#64), (17, 0x2000000000001000#64),
      (18, 0x40#64), (19, 200#64), (20, 1#64), (21, 64#64), (22, 64#64), (24, 0x7000000000005000#64), (25, 0x1000000000001040#64), (26, 0x40#64),
      (27, 200#64), (28, 3#64)] }

/-- Free handles 0, 1 and 7, of which 7 is bound to lines 0x41 to 0x16D; 3 full, 5 faulted, 6 full with a write-back. -/
def engineHandles : Tbl Handle :=
  [(3, { Handle.reset with st := .full, base := 0x41, len := 3 }), (5, { Handle.reset with st := .faulted, fcode := 3 }),
    (6, { Handle.reset with st := .full, base := 0x41, len := 1, wb := true, wbAddr := 0x9000#64 }), (7, { Handle.reset with base := 0x41, len := 300 })]

def sCe : State :=
  { issuing { Core.reset with regs := dRegs, launch := some launch9 } .ce 0#8 with ropes := [(0, { Rope.reset with handles := engineHandles })], sec := tenant3 }

/-- Thirty-two transfers wait at engine 0. -/
def sCeFull : State :=
  let x : Xfer :=
    { id := 900, desc := { op := 1, src := 0#64, dst := 0#64, tag := 0#16, len := 64, rows := 1, sstr := 0, dstr := 0, eng := 0, root := 0#64 }, s0 := 300,
      handle := none, core := 0, rank := 2, order := 0, farSeq := 0, issued := 90, began := false, nextLine := 0, written := 0, pending := [],
      cancelled := false, walking := [], bad := [], limit := none, fault := none, late := false }
  { sCe with ropes := [(0, { Rope.reset with handles := engineHandles, engines := [(0, { Engine.reset with tsb := List.replicate 32 x })] })] }

/-- The descriptor that a transfer reads at register x. -/
def descOf (s : State) (x op eng : Nat) : XferDesc :=
  let reg (i : Nat) : W64 := s.bnd.lat.regs.sGet (x + i)
  { op := op, src := reg 0, dst := reg 1, tag := (reg 2 >>> 48).setWidth 16, len := (reg 2).toNat % 2 ^ 32, rows := if op = 4 then (reg 4).toNat else 1,
    sstr := if op = 4 then (reg 5).toInt else 0, dstr := if op = 4 then (reg 6).toInt else 0, eng := eng, root := (s.core s.bnd.core).csrGet 0x100 }

abbrev xferLegal (s : State) (x op : Nat) : Prop :=
  let reg (i : Nat) : W64 := s.bnd.lat.regs.sGet (x + i)
  x ≠ 0 ∧ x % (if op = 4 then 8 else 4) = 0 ∧ (reg 2).toNat / 2 ^ 32 % 2 ^ 16 = 0 ∧ (reg 2).toNat % 2 ^ 32 ≠ 0 ∧ (reg 2).toNat % 2 ^ 32 % 64 = 0 ∧
    (op = 4 → (reg 4).toNat < 2 ^ 16 ∧ (reg 4).toNat ≠ 0)

abbrev xferWhole (d : XferDesc) : Prop := d.src.toNat % 64 = 0 ∧ d.dst.toNat % 64 = 0 ∧ d.sstr % 64 = 0 ∧ d.dstr % 64 = 0

abbrev xferSides (s : State) (d : XferDesc) : Nat × Nat :=
  (sideCode s.sec.members (if d.op = 2 then [1] else [0, 1, 3, 4, 5]) d.src d.sstr d,
    sideCode s.sec.members (if d.op = 2 then [2] else [0, 1, 2, 3, 4, 5]) d.dst d.dstr d)

/-- R289, R290: a transfer waits in its engine's buffer with its handle filling, or the first check that fails is its fault. -/
theorem test_transfer :
    ((after sCe (.bxfer { e := 0#1, x := 4#5, h := 1#1, handle := 0#6 })).rope 0).engines.map (fun e => e.2.tsb.map (fun x => (x.s0, x.desc.len))) =
      [[(104, 128)]] ∧
    (((after sCe (.bxfer { e := 0#1, x := 4#5, h := 1#1, handle := 0#6 })).rope 0).handle 0).st = .filling ∧
    cause (after sCe (.cpy { e := 0#1, x := 0#5, h := 0#1, handle := 0#6 })) = 3 ∧
    cause (after sCe (.cpy { e := 0#1, x := 12#5, h := 0#1, handle := 0#6 })) = 12 ∧
    cause (after sCe (.cpy { e := 0#1, x := 24#5, h := 0#1, handle := 0#6 })) = 10 ∧
    cause (after sCe (.cpy { e := 0#1, x := 4#5, h := 1#1, handle := 5#6 })) = 9 ∧
    cause (after sCe (.bxfer { e := 0#1, x := 8#5, h := 0#1, handle := 0#6 })) = 5 := by decide +kernel

/-- R295, R296: a range is bound, a full handle is freed, a probe lands in its predicate. -/
theorem test_handles :
    (let x := ((after sCe (.hset { handle := 1#6, a := 4#5, b := 10#5, wb := 0#1, c := 0#5 })).rope 0).handle 1
     (x.base, x.len) = (0x100, 1)) ∧
    (((after sCe (.hrel 3#6)).rope 0).handle 3).st = .free ∧ (((after sCe (.hrel 6#6)).rope 0).handle 6).st = .draining ∧
    cause (after sCe (.hrel 0#6)) = 9 ∧ cause (after sCe (.hwait 20#6)) = 9 ∧
    results sCe (.hprobe { handle := 5#6, p := 3#3, cond := 5#3 }) = [(1, .regs [.p 3 true], 0#6)] ∧
    results sCe (.hprobe { handle := 5#6, p := 3#3, cond := 0#3 }) = [(1, .regs [.p 3 false], 0#6)] := by decide +kernel

theorem test_witness_EngineTransfers :
    (∀ x ∈ [4, 8, 12, 16, 24], ∀ n ∈ [3, 4, 7], sCe.Clear (portUse ((List.range n).map (fun i => x + i)) [])) ∧
    (xferLegal sCe 4 1 ∧ xferLegal sCe 8 3 ∧ xferLegal sCe 12 1 ∧ xferLegal sCe 16 2 ∧ xferLegal sCe 16 4 ∧ xferLegal sCe 24 1) ∧
    (¬ xferLegal sCe 0 1 ∧ ¬ xferLegal sCe 2 1 ∧ ¬ xferLegal sCe 28 1 ∧ ¬ xferLegal sCe 4 4) ∧
    (¬ xferWhole (descOf sCe 12 1 0) ∧ xferWhole (descOf sCe 4 1 0) ∧ xferWhole (descOf sCe 16 4 0) ∧ xferWhole (descOf sCe 24 1 0) ∧
      xferWhole (descOf sCe 8 3 0) ∧ xferWhole (descOf sCe 16 2 0)) ∧
    ((xferSides sCe (descOf sCe 24 1 0)).1 ≠ 0 ∧ (xferSides sCe (descOf sCe 4 2 0)).1 = 0 ∧ (xferSides sCe (descOf sCe 4 2 0)).2 ≠ 0 ∧
      xferSides sCe (descOf sCe 4 1 0) = (0, 0) ∧ xferSides sCe (descOf sCe 8 3 0) = (0, 0) ∧ xferSides sCe (descOf sCe 16 2 0) = (0, 0) ∧
      xferSides sCe (descOf sCe 16 4 0) = (0, 0)) ∧
    (sCe.handleOwned 0 20 = false ∧ sCe.handleOwned 0 7 = true ∧ ((sCe.rope 0).handle 5).st ≠ .free ∧ ((sCe.rope 0).handle 0).st = .free ∧
      addrSpace (descOf sCe 8 3 0).dst = 1 ∧ ((sCe.rope 0).handle 0).covers (descOf sCe 8 3 0) = false ∧
      ((sCe.rope 0).handle 7).covers (descOf sCe 8 1 0) = true) ∧
    ((sCe.bnd.lat.regs.sGet 11).toNat < sCe.cycle + 4 ∧ sCe.cycle + 4 ≤ (sCe.bnd.lat.regs.sGet 7).toNat ∧
      (((sCe.rope 0).engine 0).tsb.filter (fun x => x.rank == 2)).length < 32 ∧
      32 ≤ (((sCeFull.rope 0).engine 0).tsb.filter (fun x => x.rank == 2)).length ∧ sCeFull.Clear (portUse [4, 5, 6] [])) := by
  simp only [clear_iff, xferLegal, xferWhole, xferSides]
  repeat' apply And.intro
  all_goals decide +kernel

theorem test_witness_HandleForms :
    let s := sCe
    let r := s.rope 0
    s.Clear (portUse [] []) ∧ s.Clear (portUse [4, 10] []) ∧ s.Clear (portUse [4, 10, 5] []) ∧ s.Clear (portUse [12, 14] []) ∧ s.Live ∧
    s.handleOwned 0 20 = false ∧ (∀ h ∈ [0, 1, 3, 5, 6], s.handleOwned 0 h = true) ∧ (r.handle 3).st ≠ .free ∧ (r.handle 1).st = .free ∧
    (addrCode s.sec.members [1] (s.rdPlain 4#5) = 0 ∧ (s.rdPlain 4#5).toNat % 64 = 0 ∧ (s.rdPlain 10#5).toNat ≠ 0 ∧ (s.rdPlain 10#5).toNat % 64 = 0 ∧
      (s.rdPlain 4#5).toNat % 2 ^ 23 / 64 + (s.rdPlain 10#5).toNat / 64 - 1 ≤ 131071 ∧
      (addrSpace (s.rdPlain 5#5) = 0 ∨ addrSpace (s.rdPlain 5#5) = 4 ∨ addrSpace (s.rdPlain 5#5) = 5) ∧ (s.rdPlain 5#5).toNat % 64 = 0) ∧
    addrCode s.sec.members [1] (s.rdPlain 12#5) ≠ 0 ∧ ((r.handle 3).st = .full ∧ (r.handle 3).wb = false) ∧ (r.handle 5).st = .faulted ∧
    ((r.handle 6).st = .full ∧ (r.handle 6).wb = true) ∧ ((r.handle 0).st ≠ .full ∧ (r.handle 0).st ≠ .faulted) := by
  simp only [State.Live, clear_iff]
  repeat' apply And.intro
  all_goals decide +kernel

theorem test_witness_CollectiveCommands :
    let s := sCe
    (∀ t ∈ [s, { s with cores := [(0, { s.core 0 with far := (sBusyFar.core 0).far })] }], ∀ a ∈ [4, 12, 28], ∀ b ∈ [4, 13, 28],
      t.Clear (portUse [a, b] [1])) ∧
    2 ^ 16 ≤ (s.rdPlain 4#5).toNat ∧ (s.rdPlain 28#5).toNat < 2 ^ 16 ∧ (s.rdPlain 28#5).toNat % 64 ≠ 0 ∧ (s.rdPlain 13#5).toNat % 64 = 0 ∧
    (s.rdPlain 4#5).toNat % 64 = 0 ∧ (s.core 0).outstanding < 32 ∧
    32 ≤ (({ s with cores := [(0, { s.core 0 with far := (sBusyFar.core 0).far })] } : State).core 0).outstanding := by
  simp only [clear_iff]
  repeat' apply And.intro
  all_goals decide +kernel

/-! ### The SY slot -/

/-- A result of slot VA due at the cycle given. -/
def pendingAt (id at_ : Nat) (handler : Bool) : Landing :=
  { id := id, at_ := at_, issue := 90, slot := 2, pc := 0#48, word := 0#32, eff := .regs [.s 3 7#64], flags := 0#6, cluster := 0, lane := 0, handler := handler,
    busyTile := 0, busyCount := 0 }

def yRegs : RegFile :=
  { RegFile.reset with s := [(4, 0x1000#64), (5, 3#64), (6, 0x1020#64), (7, 5000#64), (8, 129#64), (9, 0xFF#64), (10, 0x200#64), (11, 99#64), (12, 101#64)] }

/-- Core 0 runs at address 0x1000 in lockstep; SY is the only slot; some results are in flight; two blocks are resident. -/
def yCore : Core :=
  { Core.reset with
    regs := yRegs,
    seq := { Sequencer.reset with run := .running },
    code := { CodeStore.reset with blocks :=
      [{ addr := 0x1000#48, asid := 0, objHash := [], section_ := 0, bytes := [], locked := false, lastIssue := 0 },
        { addr := 0x1400#48, asid := 0, objHash := [], section_ := 0, bytes := [], locked := true, lastIssue := 0 }] } }

def sySlot (s : State) : State := { s with bnd := { s.bnd with present := 0x800#12 } }

def sSy : State := sySlot (issuing yCore .sy 0#8)

def sYWith (f : Core → Core) : State := sySlot (issuing (f yCore) .sy 0#8)

/-- The bundle is a trap handler's. -/
def inHandler (s : State) : State := { s with bnd := { s.bnd with handler := true } }

/-- A frame frozen in cycle 77 with one result and the slots 0, 2 and 11 of its bundle. -/
def frame77 : TrapFrame :=
  { c := 77, landings := [pendingAt 901 80 false], td := .reset, transfer := some { target := 0x3000#48, left := 1 },
    latched := { Latched.reset with pc := 0x1000#48, words := [(0, 5#32), (2, 6#32), (11, 7#32)], regs := yRegs }, ctl := .reset, whole := false, waits := false,
    reported := none, goOn := false, retiring := false, refetch := false, loopDepth := 0, undo := [], held := [], fpe := false, pc := 0x1000#48,
    nextIssue := 80, preBoundary := false, ilDrain := false, ilLeave := false, delay := 0, keepWindow := false, mxHead := false }

/-- The handler of that frame, with RPL naming slots 0, 2 and 11. -/
def sHandler : State := inHandler (sYWith (fun c => { c with frame := some frame77, csr := [(0x041, 0x805#64), (0x103, 3#64)] }))

/-- R305, R306: the issue cycle, and whether the target was missed. -/
theorem test_time :
    results sSy (.clk 3#5) = [(1, .regs [.s 3 100#64], 0#6)] ∧ results sSy (.waitc 11#5 2#3) = [(1, .regs [.p 2 true], 0#6)] ∧
    results sSy (.waitc 12#5 2#3) = [(1, .regs [.p 2 false], 0#6)] ∧ (after sSy .endOp).bnd.ctl.ended = true := by decide

/-- R338, R339, R345: a system call freezes its core; the cause, the slot and its word are in the trap registers; E is congruent with c modulo 64. -/
theorem test_traps :
    cause (after sSy (.sys 7#16)) = 24 ∧ ((after sSy (.trap 7#16)).core 0).csrGet 0x040 = 0x0B800017#64 ∧
    ((after sSy (.sys 7#16)).core 0).csrGet 0x042 = 0x1000#64 ∧ ((after sSy (.sys 7#16)).core 0).csrGet 0x043 = 0x1234#64 ∧
    (after sSy (.sys 7#16)).agenda.map (fun d => (d.at_, d.ev)) = [(108, .trapHandlerEntry 0)] ∧ cause (after sSy .eret) = 4 ∧
    ((after sHandler .eret).core 0).frame = none ∧ ((after sHandler .eret).core 0).replay.map (fun r => r.at_) = some 141 ∧
    ((after sHandler .eret).core 0).inflight.map (fun l => l.at_) = [144] ∧ ((after sHandler (.sys 7#16)).core 0).seq.run = .halted := by decide +kernel

/-- R350: the old value lands with the new one; a privileged register outside trap mode, an unknown number and a read-only register are refused. -/
theorem test_csr :
    results (inHandler (sYWith (fun c => { c with csr := [(0x045, 5#64)] }))) (.csrs { d := 3#5, a := 5#5, num := 0x045#12 }) =
      [(1, .regs [.s 3 5#64], 0#6), (1, .csr 0x045 7#64, 0#6)] ∧
    cause (after sSy (.csrr { d := 3#5, a := 0#5, num := 0x040#12 })) = 4 ∧ cause (after sSy (.csrr { d := 3#5, a := 0#5, num := 0x7FF#12 })) = 2 ∧
    cause (after sSy (.csrw { d := 3#5, a := 5#5, num := 0x010#12 })) = 2 := by decide +kernel

/-- R312, R316: a region is pushed and popped; a fifth is a call-depth trap. -/
theorem test_regions :
    ((after sSy .belayBegin).core 0).belay.regions.map (fun g => (g.h, g.restart)) = [(100, 0x1000#48)] ∧
    ((after (sYWith (fun c => { c with belay := { Belay.reset with regions := [region0] } })) .belayEnd).core 0).belay.regions = [] ∧
    cause (after (sYWith (fun c => { c with belay := { Belay.reset with regions := List.replicate 4 region0 } })) .belayBegin) = 22 ∧
    cause (after sSy .belayEnd) = 3 ∧ cause (after sSy (.belayKeepS 0#4)) = 3 := by decide +kernel

def farFault3 : FarFault := { code := 3, addr := 0x1234#64, pc := 0x2000#48, more := true }

/-- The clauses: a region open or none; a fault recorded or none; values that agree and differ; a bundle that ends in sequence, in a delay bundle before the last
and in the last. -/
theorem test_witness_AnchorsAndTime :
    (let s := sSy
     (s.core 0).belay.regions = [] ∧ s.Live ∧ s.Clear (portUse [] [3]) ∧ s.Clear (portUse [11] []) ∧ (s.core 0).far.fault = none ∧
     s.Clear (portUse (s.cmptReads { v := 0#1, a := 4#5, b := 4#5 }) []) ∧ s.Clear (portUse (s.cmptReads { v := 0#1, a := 4#5, b := 5#5 }) []) ∧
     s.Clear (portUse (s.cmptReads { v := 1#1, a := 0#5, b := 1#5 }) []) ∧ s.rdPlain 4#5 = s.rdPlain 4#5 ∧ s.rdPlain 4#5 ≠ s.rdPlain 5#5 ∧
     (∀ k, k < 8 → ∀ i, i < 16 → s.vAt (s.bm.phys k) (s.vreg 0) i = s.vAt (s.bm.phys k) (s.vreg 1) i) ∧
     s.bnd.active = true ∧ s.bnd.handler = false ∧ (s.core 0).frame = none ∧ (s.core 0).seq.run = .running ∧ (s.core 0).timed = false ∧ s.bnd.ctl = .reset ∧
     (s.core 0).seq.loops.length = s.bnd.lat.loops.length ∧ (s.core 0).seq.loops = [] ∧ (s.core 0).seq.transfer = none) ∧
    ((sYWith (fun c => { c with belay := { Belay.reset with regions := [region0] } })).core 0).belay.regions ≠ [] ∧
    ((sYWith (fun c => { c with far := { FarQueue.reset with fault := some farFault3 } })).core 0).far.fault = some farFault3 ∧
    ((sYWith (fun c => { c with seq := { c.seq with transfer := some { target := 0x3000#48, left := 2 } } })).core 0).seq.transfer =
      some { target := 0x3000#48, left := 2 } := by
  simp only [State.Live, clear_iff]
  repeat' apply And.intro
  all_goals decide +kernel

def refill1 : XferDesc := { op := 1, src := 0#64, dst := 0#64, tag := 0#16, len := 64, rows := 1, sstr := 0, dstr := 0, eng := 0, root := 0#64 }

/-- Handle 3 full with a refill record, handle 4 free, handle 5 faulted, handle 6 filling. -/
def sPitch (rs : List Region) : State :=
  { sYWith (fun c => { c with launch := some launch9, belay := { Belay.reset with regions := rs } }) with
    ropes := [(0, { Rope.reset with handles := [(3, { Handle.reset with st := .full, refill := some refill1 }), (5, { Handle.reset with st := .faulted }),
      (6, { Handle.reset with st := .filling }), (7, { Handle.reset with st := .full, wb := true, refill := some refill1 })] })],
    sec := tenant3 }

theorem test_witness_BelayRegions :
    ((sYWith (fun c => { c with seq := { c.seq with transfer := some { target := 0x3000#48, left := 2 } } })).core 0).seq.inDelay = true ∧
    ((sYWith (fun c => { c with seq := { c.seq with delay := 1 } })).core 0).seq.inDelay = true ∧
    (let s := sPitch []
     let r := s.rope 0
     (s.core 0).seq.inDelay = false ∧ (s.core 0).belay.regions.length < 4 ∧ s.handleOwned 0 3 = true ∧ s.handleOwned 0 4 = true ∧
     s.handleOwned 0 20 = false ∧ ((r.handle 3).st ≠ .faulted ∧ (r.handle 3).refill ≠ none ∧ (r.handle 4).st = .free) ∧ (r.handle 5).st = .faulted ∧
     (r.handle 4).refill = none ∧ (r.handle 3).st ≠ .free ∧ (s.core 0).belay.regions = []) ∧
    4 ≤ ((sPitch (List.replicate 4 region0)).core 0).belay.regions.length ∧ ((sPitch [region0]).core 0).belay.regions = region0 :: [] ∧
    region0.pitch = false ∧
    (let g := { region0 with pitch := true, hIn := 3, hOut := 6 }
     let s := sPitch [g]
     (s.core 0).belay.regions = g :: [] ∧ g.pitch = true ∧ ((s.rope 0).handle g.hIn).st = .full ∧ ((s.rope 0).handle g.hOut).st = .filling ∧
     ((s.rope 0).handle g.hIn).wb = false ∧ ((s.rope 0).handle 4).st ≠ .full ∧ ((s.rope 0).handle 7).st = .full ∧ ((s.rope 0).handle 7).wb = true) := by
  repeat' apply And.intro
  all_goals decide +kernel

/-- In the keep window with one region or two, the pool's words naming s4, v5 and v16; journal and shadow pool with room and without. -/
def sKeep (g : Region) (rest : List Region) (lines : Nat) (inflight : List Landing) : State :=
  let s := sYWith (fun c => { c with
    inflight := inflight,
    belay := { Belay.reset with regions := g :: rest, journal := List.replicate lines { depth := 1, line := 0, bytes := [], live := [] } },
    seq := { c.seq with keepWindow := true } })
  { s with bnd := { s.bnd with lat := { s.bnd.lat with pool := [0x10#32, 0x10020#32] } } }

theorem test_witness_BelayKeeps :
    (let s := sKeep region0 [] 0 []
     (s.core 0).belay.regions = region0 :: [] ∧ ((s.core 0).seq.keepWindow = true ∧ s.bnd.present = 0x800#12 ∧ s.bnd.handler = false) ∧
     (sSy.core 0).seq.keepWindow = false ∧ s.Clear (portUse ((List.range 32).filter (fun j => decide (1 ≤ j) && (s.lit 0).getLsbD j)) []) ∧
     (let regs := ((List.range 32).filter (fun j => (s.lit 1).getLsbD j)).map s.vreg
      s.Clear (portUse (((List.range 8).map s.bm.phys).flatMap
        (fun p => regs.map (vRegKey p) ++ (List.range 7).map (fun q => 10000 + qKey p (q + 1)))) [])) ∧
     (s.core 0).belay.used ≤ 1024 ∧ 192 < 191 + (1#4).toNat + 1 ∧ 191 + (0#4).toNat + 1 ≤ 192 ∧ (s.core 0).tilesBusy 5 1 = false ∧ s.flips = []) ∧
    (let s := sKeep region0 [{ region0 with keptS := [(4, 1#64)], keptVregs := [5] }] 1024 []
     1024 < (s.core 0).belay.used + 1 ∧ s.Clear (portUse [4] [])) ∧
    ((sKeep region0 [] 0 [mxPending (.clearTiles 5 2) 5 2]).core 0).tilesBusy 5 1 = true ∧
    (let g := { region0 with shadow := (List.range 16).map (fun i => (50 + i, [], false)) }
     ((sKeep g [] 0 []).core 0).belay.regions = g :: [] ∧ 16 < g.shadow.length + 1 ∧ g.shadow.length ≤ 16) := by
  simp only [clear_iff]
  repeat' apply And.intro
  all_goals decide +kernel

/-- A user register and a privileged one, in trap mode and outside; an unknown number; a write of a register with no writable field. -/
theorem test_witness_ControlRegisterForms :
    (∀ s ∈ [sSy, inHandler sSy], s.Live ∧ ∀ a ∈ [0#5, 5#5], s.Clear (portUse [s.sIdx a] [s.sIdx 3#5]) ∧ s.Clear (portUse [] [s.sIdx 3#5])) ∧
    sSy.bnd.handler = false ∧ (inHandler sSy).bnd.handler = true ∧ (0x003 : Nat) ∈ [0x001, 0x002, 0x003] ∧ (0x381 : Nat) ∈ [0x380, 0x381] ∧
    ((0x7FF#12).toNat ∉ [0x001, 0x002, 0x003, 0x040, 0x381]) ∧ (0x010#12).toNat ∈ [0x00B, 0x010] ∧ (5#5 ≠ 0#5) := by
  simp only [State.Live, clear_iff]
  repeat' apply And.intro
  all_goals decide +kernel

theorem test_witness_SystemCalls :
    (let s := sYWith (fun c => { c with inflight := [pendingAt 900 130 false, pendingAt 902 100 false] })
     s.bnd.probing = false ∧ s.bnd.faulted = 0#12 ∧ (s.core 0).frame = none ∧ (s.core 0).slip = none) ∧
    (sHandler.bnd.probing = false ∧ sHandler.bnd.faulted = 0#12 ∧ (sHandler.core 0).frame.isSome = true) := by decide +kernel

/-- Outside trap mode; a handler with a result pending; a handler whose frame goes on; `wfi` with REQ, MAPEV and neither. -/
theorem test_witness_TrapReturn :
    sSy.bnd.handler = false ∧ sHandler.bnd.handler = true ∧
    (withCore sHandler (fun c => { c with inflight := [pendingAt 900 130 true] })).handlerBusy 0 = true ∧ sHandler.handlerBusy 0 = false ∧
    (sHandler.core 0).frame = some frame77 ∧ frame77.retiring = false ∧ sHandler.imageDead 0 = false ∧ frame77.goOn = false ∧ frame77.refetch = false ∧
    frame77.fpe = false ∧ (((sYWith (fun c => { c with csr := [(0x103, 1#64)] })).core 0).csrGet 0x103).getLsbD 0 = true ∧
    (((sYWith (fun c => { c with csr := [(0x103, 2#64)] })).core 0).csrGet 0x103).getLsbD 1 = true ∧
    (let v := ((sYWith (fun c => { c with csr := [(0x103, 4#64)] })).core 0).csrGet 0x103
     v.getLsbD 0 = false ∧ v.getLsbD 1 = false) := by decide +kernel

/-- A mask of 9 bits and one above; none, and a region open; a range that is whole, misaligned, empty, 4,096 bundles and one more; and more blocks than can be
locked. -/
theorem test_witness_SelfTestAndLocks :
    (let s := sSy
     (∀ a ∈ [0, 4, 6, 9, 10], s.Clear (portUse [a] []) ∧ s.Clear (portUse [a, 5] []) ∧ s.Clear (portUse [a, 0] [])) ∧ (s.core 0).belay.regions = [] ∧
     2 ^ 9 ≤ (s.rdPlain 10#5).toNat ∧ (s.rdPlain 0#5 = 0#64) ∧ (s.rdPlain 9#5 ≠ 0#64 ∧ (s.rdPlain 9#5).toNat < 2 ^ 9) ∧
     ((s.rdPlain 4#5).toNat < 2 ^ 48 ∧ (s.rdPlain 4#5).toNat % 64 = 0 ∧ (s.rdPlain 5#5).toNat ≠ 0 ∧ (s.rdPlain 5#5).toNat ≤ 4096) ∧
     (s.rdPlain 6#5).toNat % 64 ≠ 0 ∧ 4096 < (s.rdPlain 7#5).toNat ∧ (s.rdPlain 0#5).toNat = 0 ∧
     ¬ 128 < (s.core 0).lockAddrs.length + ((rangeBlocks 0x1000 3).filter (fun x => !((s.core 0).lockAddrs.contains x))).length ∧
     128 < (s.core 0).lockAddrs.length + ((rangeBlocks 0x10000 2048).filter (fun x => !((s.core 0).lockAddrs.contains x))).length) := by
  simp only [clear_iff]
  repeat' apply And.intro
  all_goals decide +kernel

/-! ### Events of a core -/

/-- No bundle issues; core 0 is the one given. -/
def resting (c : Core) : State := { State.reset with cycle := 100, turn := 1, cores := [(0, c)] }

/-- A queued bundle due in this cycle, two queued `mfsel`s, a fetch of block 0x1000 from HBM address 0x5000, TVEC 0x9000. -/
def seqCore : Core :=
  { withS [(4, 17#64), (5, 3#64)] with
    csr := [(0x044, 0x9000#64), (0x009, 5#64)],
    seq := { Sequencer.reset with run := .running, pc := 0x1000#48, loops := [level] },
    td := { TimedDispatch.reset with entries := [{ id := 901, pc := 0x1040#48, cmask := 5#8, words := [(0, 0x01464280#32)], pool := [1#32], release := 100,
                                                   decoded := 50, allow := none }] },
    mx := { Matrix.reset with queue := List.replicate 2 { issue := 90, slot := 7, pc := 0x2000#48, word := encode (.mfsel 2#3 5#6), regs := .reset, rrb := 0#4,
                                                          loops := [] } },
    code := { CodeStore.reset with fetches := [{ id := 902, addr := 0x1000#48, forIssue := true, lock := false, root := 0#64, found := true, phys := 0x5000, fault := 0 }] } }

/-- Every tenant's partition holds HBM below the address given. -/
def hbmBelow (n : Nat) : Security := { Security.reset with partitions := [(0, { Partition.reset with hbm := [(0, n)] })] }

def sSeq (f : Core → Core) : State :=
  { resting (f seqCore) with sec := hbmBelow 0xFFFFF, mem := writeBytes [] (keyHbm 0 0x5000) [1#8, 2#8, 3#8] }

/-- What a partition allows where no channel is fenced: the memory map of HBM addresses to channels does not matter then. -/
def openCode (s : State) (tenant phys : Nat) : Nat :=
  if (tblGet Machine.Partition.reset tenant s.sec.partitions).hbm.any (fun r => decide (r.1 ≤ phys) && decide (phys ≤ r.2)) then 0 else 9

theorem partition_open (s : State) (tenant phys : Nat) (h : ∀ d, (s.die d).fenced = 0#32) : s.partitionCode tenant phys = openCode s tenant phys := by
  simp [State.partitionCode, State.fencedAt, openCode, h, bitAt]

/-- What an entry of a walk gives where no channel is fenced, and a walk of such entries. -/
def openEntry (s : State) (instr : Bool) (va level base : Nat) : Sum Nat WalkResult :=
  let a := base + 8 * field va (12 + 9 * level) 9
  let pte := readNat s.mem (keyHbm Config.ownPackage a) 8
  let ppn := field pte 12 36
  if s.hbmBad a then .inr (.fault 8)
  else if field pte 0 1 = 0 then .inr (.fault 6)
  else if field pte 48 16 ≠ 0 ∨ field pte 8 4 ≠ 0 ∨ field pte 2 2 ≠ 0 ∨ 2 ^ 29 ≤ ppn then .inr (.fault 7)
  else if field pte 1 1 = 0 then (if field pte 7 1 = 1 then .inr (.fault 7) else .inl (ppn * 4096))
  else if leafMalformed instr level ppn va (field pte 7 1 = 1) then .inr (.fault 7)
  else if instr ∧ field pte 6 1 = 0 then .inr (.fault 5)
  else .inr (leafPage level ppn va pte)
def openFrom (s : State) (instr : Bool) (va : Nat) : Nat → Nat → WalkResult
  | 0, base => match openEntry s instr va 0 base with
    | .inl _ => .fault 7
    | .inr r => r
  | level + 1, base => match openEntry s instr va (level + 1) base with
    | .inl b => if lastLevel instr (level + 1) then .fault 7 else openFrom s instr va level b
    | .inr r => r

theorem walkEntry_open (s : State) (h : ∀ d, (s.die d).fenced = 0#32) (instr : Bool) (va level base : Nat) :
    s.walkEntry Config.ownPackage instr va level base = openEntry s instr va level base := by
  simp [State.walkEntry, openEntry, State.fencedAt, h, bitAt]

theorem walk_open (s : State) (h : ∀ d, (s.die d).fenced = 0#32) (instr : Bool) (root : W64) (va : Nat) :
    s.walk Config.ownPackage instr root va = openFrom s instr va (if instr then 3 else 4) (rootBase root) := by
  have go : ∀ level base, s.walkFrom Config.ownPackage instr va level base = openFrom s instr va level base := by
    intro level
    induction level with
    | zero => intro base; cases he : openEntry s instr va 0 base <;> simp only [State.walkFrom, openFrom, walkEntry_open s h, he]
    | succ n ih => intro base; cases he : openEntry s instr va (n + 1) base <;> simp only [State.walkFrom, openFrom, walkEntry_open s h, he, ih]
  exact go _ _

theorem fetch_partition : ∀ i, i < 16 → (sSeq id).partitionCode ((sSeq id).tenantOf 0) (0x5000 + 64 * i) = 0 := by
  intro i h
  rw [partition_open _ _ _ (fun _ => rfl)]
  revert i
  decide +kernel

/-- A queued bundle; a queue of two; a loop level that goes on, one that ends, with and without a rotation; a fetch that the frozen core waits for; a frozen
frame; a bundle that waits for a block. -/
theorem test_witness_SequencerEvents :
    (let s := sSeq id
     let c := s.core 0
     (c.frame = none ∧ c.slip = none ∧ c.seq.run = .running ∧ c.seq.preBoundary = false ∧ c.seq.ilDrain = false ∧ c.interlocked = false ∧
       c.far.fault = none ∧ c.fpNow s.cycle = false) ∧
     (c.mx.queue.map (fun q => decodeSlot .mx q.word)) = List.replicate 2 (.ok (.mfsel 2#3 5#6)) ∧
     c.seq.loops = level :: [] ∧ s.bnd.ctl.released = false ∧ level.index.toNat + 1 < level.count.toNat ∧ level.rot = true ∧
     (c.code.fetches.find? (fun x => x.id == 902)).any (fun f =>
       f.fault == 0 && f.phys == 0x5000 && f.forIssue && blockAddr c.seq.pc == f.addr) = true) ∧
    (∀ i, i < 16 → (sSeq id).partitionCode ((sSeq id).tenantOf 0) (0x5000 + 64 * i) = 0) ∧
    (let c := (sSeq (fun c => { c with csr := (0x102, 1#64) :: c.csr })).core 0
     c.releaseDue 100 = some 901 ∧ (c.td.entries.find? (fun x => x.id == 901)).any (fun e =>
       !(bundleIllegal e.words e.pool e.cmask false false) && (opsOf e.words).all (fun o => !(anchorOp o.2))) = true ∧ c.fpNow 100 = false ∧
       c.interlocked = false) ∧
    (let l := { level with index := 3#32, rot := false }
     ((sSeq (fun c => { c with seq := { c.seq with loops := [l] } })).core 0).seq.loops = l :: [] ∧ ¬ l.index.toNat + 1 < l.count.toNat ∧ l.rot = false) ∧
    (let s := sSeq (fun c => { c with slip := some (80, [pendingAt 900 130 false]), seq := { c.seq with run := .slipped } })
     (s.core 0).seq.run = .slipped ∧ (s.core 0).slip.isSome = true) ∧
    (let s := sSeq (fun c => { c with frame := some frame77, seq := { c.seq with run := .frozen } })
     (s.core 0).frame.isSome = true ∧ (s.core 0).seq.run = .frozen ∧ (s.core 0).launch = none) ∧
    (let s := State.reset.withFetchWord 32 0x01464280
     (s.waitingBundle 0).isSome = true ∧ (s.core 0).frame = none ∧ (s.core 0).fpNow s.cycle = false) := by
  refine ⟨?_, fetch_partition, ?_⟩
  all_goals repeat' apply And.intro
  all_goals decide +kernel
/-- One result of each kind, due in this cycle, with a flag on the first. -/
def effects : List Effect :=
  [.regs [.s 3 7#64, .v (vKey 0 2 1) 5#32, .p 1 true], .regs [.s 0 5#64], .regs [.p 0 false], .regs [.q 8 0xFF#16 0#16], .format 3 8#64, .binding 2 5,
    .rowBuffer 3 [1#8, 2#8], .clearTiles 4 3, .writeRow 5 2 [7#32, 8#32], .scale [9#8], .csr 0x003 8#64, .csr 0x044 1000#64, .discardScales 1,
    .promote 8 1 [(tileKey 8 0 0, 5#32)] false, .xtRow 2 [(0, 3#512)], .xtClear [0] (some 1#2)]

def dueNow (id : Nat) (e : Effect) (fl : BitVec 6) : Landing := { pendingAt id 100 false with eff := e, flags := fl }

def mmacRow (arow : Option (List Byte)) : MmacRow :=
  { op := 7, tile := 5, m := 2, lastRow := true, rowIdx := 3, chunk := 0, entry := 0#64, scales := List.replicate 4 127#8, run := false, ovf := false,
    capAt := 100, arow := arow }

/-- Those results, a row whose bytes are captured in this cycle and a row that is due. -/
def sLandings : State :=
  resting { Core.reset with
    inflight := effects.zipIdx.map (fun (e : Effect × Nat) => dueNow (900 + e.2) e.1 (if e.2 = 0 then 3#6 else 0#6)) ++
      [{ dueNow 925 (.mmacRow (mmacRow none)) 0#6 with at_ := 110 }, dueNow 926 (.mmacRow (mmacRow (some [1#8, 9#8]))) 0#6] }

theorem test_witness_ResultLandings :
    (effects.zipIdx.all (fun e => (sLandings.dueResult 0 (900 + e.2)).any (fun l =>
      l.eff == e.1 && l.slot == 2 && ((sLandings.core 0).collision sLandings.cycle l).isNone)) = true) ∧
    (sLandings.core 0).mx.discard.contains 909 = false ∧ flagGroup 2 = some 12 ∧ sLandings.flips = [] ∧
    ((sLandings.core 0).inflight.filter (fun l => decide (925 ≤ l.id))).map (fun l => (l.id, l.at_, l.eff)) =
      [(925, 110, .mmacRow (mmacRow none)), (926, 100, .mmacRow (mmacRow (some [1#8, 9#8])))] := by
  repeat' apply And.intro
  all_goals decide +kernel

/-! ### Accesses -/

def access (id : Nat) (k : AccKind) (off : Nat) (f : Access → Access) : Access :=
  f { id := id, core := 0, issue := 98, slot := 8, pc := 0x1000#48, word := 0#32, kind := k, off := off, lane := 0, tap := 9, station := 0, travel := 5, dest := 3,
      phys := 0, lanes := 0xFFFF#16, idx := [], wr := [], opnd := 5#64, cmp := 0x1000000000004008#64, banks := [], data := none, interlocked := false,
      tagged := none, dead := false, handler := false, shift := 2, discarded := false, orphan := false }

def line64 : List Byte := (List.range 64).map (fun i => BitVec.ofNat 8 (i * 7 + 129))

def reads (w : Nat) (a : Access) : Access := { a with data := some (leBytes 8 w) }

/-- Loads at their bank and at their tap, a store, atomics, barrier forms and an interlocked load. -/
def accesses : List Access :=
  [access 900 (.ld 1 true) 0x1046 (fun a => { a with banks := [(1, 100)] }), access 901 (.ld 1 true) 0x1046 (fun a => { a with data := some line64 }),
    access 902 .vld 0x1040 (fun a => { a with data := some line64 }), access 904 .ldsc 0x1040 (fun a => { a with data := some line64 }),
    access 905 .st 0x2000 (fun a => { a with wr := bytesAt 0x2000 [1#8, 2#8, 3#8], banks := [(0, 100)], station := 4 }),
    access 907 (.atomic 6 true) 0x3008 (reads 77), access 909 .barInit 0x4000 (reads 0), access 910 .barFini 0x4008 (reads 0),
    access 911 (.barArrive false) 0x4008 (reads (barWord 1 0 1 3)), access 912 (.barArrive false) 0x4008 (reads (barWord 1 0 2 3)),
    access 914 (.ld 2 false) 0x1044 (fun a => { a with interlocked := true, tap := 0 }), access 915 (.barArrive true) 0x4010 id,
    access 916 .st 0x4008 (fun a => { a with wr := bytesAt 0x4008 [1#8] })]

/-- Station 0 holds every bank cycle; the lane bookings are given. -/
def sAccess (lanes : List LaneBooking) : State :=
  { resting { Core.reset with
      seq := { Sequencer.reset with run := .running }, latch := { valid := true, addr := 0x1000000000004008#64, released := false, cycle := 0 } } with
    ropes := [(0, { ropeOfStation 0 with accs := accesses, typeBits := [0x4008 / 8, 0x4010 / 8],
                                         lanes := lanes })],
    mem := writeBytes [] (keyPad 0 0x1040) line64 }

theorem test_witness_ScratchpadEvents :
    (let s := sAccess [{ lane := 0, seg := 0, lo := 90, hi := 100, tag := 34#6, station := 0 }]
     let c := s.core 0
     let r := s.rope 0
     (accesses.all (fun a => s.access 0 a.id == some a) = true) ∧ s.flips = [] ∧
     (∀ a ∈ accesses.take 1, a.banks ≠ [] ∧ s.cycle = a.issue + 2 ∧ a.kind ≠ .vgat) ∧
     ((accesses.drop 1).take 3).all (fun a => a.banks.isEmpty && a.data == some line64 && r.tapAt a.lane a.station s.cycle == some (transferTag a.issue) &&
       !a.discarded) = true ∧ c.frame = none ∧ c.seq.run = .running ∧ c.belay.roll = none ∧ c.belay.regions = [] ∧
     r.barrierAt (((bytesAt 0x2000 [1#8, 2#8, 3#8]).filter (fun w => w.1 / 64 % 16 == (0#4).toNat)).map (·.1)) = false ∧
     ((bytesAt 0x2000 [1#8, 2#8, 3#8]).map (·.1)).Nodup ∧ r.barrierAt ((bytesAt 0x4008 [1#8]).map (·.1)) = true ∧
     atomicNew 6 true (BitVec.ofNat 64 77) 5#64 0#64 ≠ none ∧ r.barrierAt ((List.range 8).map (0x3008 + ·)) = false ∧
     (s.access 0 915).any (fun a => (s.barFault a (readNat s.mem (keyPad 0 a.off) 8)).isNone) = true) ∧
    (let s := sAccess []
     (s.rope 0).tapAt 0 0 100 = none ∧ (s.access 0 914).any (fun a =>
       let segs := pathSegs a.lane 2 1
       a.tap == 0 && a.tagged.isNone && (s.ilFault a 4).isNone && s.ilOrder a 100 && ((s.rope 0).bankFault a.station [(1, 100)]).isNone &&
         (s.rope 0).pathFree (pathBookings (s.ropeMap 0) a.lane (transferTag a.issue) a.station 100 segs)) = true) := by
  repeat' apply And.intro
  all_goals decide +kernel
/-! ### Prikor -/

/-- A stream of kernel 3 of chapter 21: KIND, ARG, OFF, E0, S0 (R415). -/
def dotStream (kind arg off e0 s0 : Nat) : List Byte :=
  leBytes 1 kind ++ leBytes 1 0 ++ leBytes 1 1 ++ leBytes 1 arg ++ leBytes 4 0 ++ leBytes 8 off ++ leBytes 4 e0 ++ leBytes 4 1 ++ leBytes 4 1 ++ leBytes 4 1 ++
    leBytes 8 s0 ++ leBytes 24 0

/-- Kernel 3 of chapter 21. -/
def dotKernel : List Byte :=
  leBytes 4 3 ++ leBytes 1 6 ++ leBytes 1 12 ++ leBytes 1 1 ++ leBytes 1 11 ++ leBytes 2 1 ++ leBytes 6 0 ++
    dotStream 0 0 0 32 4 ++ dotStream 0 0 128 32 4 ++ dotStream 0 0 256 32 4 ++ dotStream 0 0 384 32 4 ++ dotStream 0 0 512 32 4 ++ dotStream 2 1 0 1 0 ++
    leBytes 16 0x3F000000 ++
    [0x04000000, 0x04100001, 0x04200002, 0x04300003, 0x04400004, 0x0C500000, 0x1C600100, 0x1C708300, 0x14818700, 0x5C920400, 0x1CA24500, 0x60028005].flatMap
      (leBytes 4) ++ leBytes 32 0

/-- The data of chapter 21: a_n = n, b = c = d = 1.0, e = 2.0. -/
def dotInput (stream n : Nat) : Nat :=
  if stream = 0 then (if n = 0 then 0 else (126 + Nat.log2 n) * 2 ^ 23 + n * 2 ^ (23 - Nat.log2 n)) else if stream = 4 then 0x40000000 else 0x3F800000
/-- The worked translation of chapter 21: d5 receives 132.0 (R414–R417, R419). -/
theorem test_prikor_scaled_dot_product : prikorKernelOk dotKernel = true ∧ prikorAccepted dotKernel = true ∧
    prikorResult dotKernel dotInput = [(5, 0, 0x43040000)] := by
  repeat' apply And.intro
  all_goals decide +kernel

/-! ### Tables and translation -/

/-- A slot-table image whose rows all hold `x`, without owners. -/
def slotImage (x : Nat) : List Byte := (List.range 65).flatMap (fun i => leBytes 16 (if i = 64 then 2 ^ 80 - 1 else x))

def portImage : List Byte := (List.range 64).flatMap (fun _ => leBytes 32 (2 ^ 160 - 1))

def walk900 : Walk := { id := 900, who := [.code 0 902], rope := 0, instr := true, asid := 0, root := 0x1000#64, va := 0x1000, started := true, at_ := none }

def wait901 : PortWait :=
  { id := 901, channel := 0, requester := 2, farCore := 0, farId := 5, xferRope := 0, line := 0, what := 0, tenant := 0, phys := 0x4000, started := false,
    owner := .outside, data := [], key := 0, ev := none }

/-- Two tables are due, a request waits at a port, a walk is done, an invalidation of a page runs, and tables map address 0x1000 for instructions and 0x40001000 for data. -/
def sTables : State :=
  { sSeq id with
    ropes := [(0, { ropeOfStation 0 with
      accs := [access 905 .vld 0x40 (fun a => { a with banks := [(1, 105)] })], pendingTable := some (grantsTo 0, [(3, 9)], 100),
      dtb := [{ asid := 3, window := false, vbase := 0x20000, size := 4096, pbase := 0x6000, r := true, w := true }] })],
    dies := [(0, { Die.reset with pendingPorts := some ([(3, 2)], 90), portGrants := (List.range 2048).map (fun k => (k, 2)), portWaits := [wait901],
                                  walks := [walk900], tbinv := some { side := false, kind := 1, asid := 3, addr := 0x20000, users := some [] } })],
    sec := { Security.reset with partitions := [(3, { Partition.reset with banks := [(0, 0xFFFF, 0xFFFF)], ports := [(0, 0xFFFFFFFF)] })] },
    mem := writeBytes (writeBytes (writeBytes [] (keyHbm 0 0x1000) (leBytes 8 0x2001)) (keyHbm 0 0x2000) (leBytes 8 0x3001)) (keyHbm 0 0x3000)
      (leBytes 8 0x200043 ++ leBytes 8 0x40000033) }

/-- An image of the wrong length and a good one for each table; both tables due; a port's pick; a walk that finds a page; users of the page and none. -/
theorem test_witness_TableAndTranslationEvents :
    (let s := sTables
     let d := s.die 0
     s.imageRefused 0 3 [] = true ∧ s.imageRefused 0 3 (slotImage (2 ^ 80 - 1)) = false ∧ (s.rope 0).pendingTable = some (grantsTo 0, [(3, 9)], 100) ∧
     100 ≤ s.cycle ∧ (∀ a ∈ (s.rope 0).accs, ∀ b ∈ a.banks, s.cycle ≤ b.2 → tblGet 31 (16 * (b.2 % 64) + b.1) (grantsTo 0) = a.station) ∧
     s.portImageStatus 0 3 [] ≠ 0 ∧ s.portImageStatus 0 3 portImage = 0 ∧ d.pendingPorts = some ([(3, 2)], 90) ∧ d.portPick 0 s.cycle = some wait901 ∧
     d.walks = [walk900] ∧ openEntry s true 0x1000 3 0x1000 = .inl 0x2000 ∧ lastLevel true 3 = false ∧
     openEntry s true 0x1000 1 0x3000 = .inr (.page 0 (2 ^ 21) 0x200000 false false true) ∧ d.tbinv.any (fun v => !v.side) = true ∧
     (s.tbUsers { side := false, kind := 1, asid := 3, addr := 0x20000, users := some [] }) = false) ∧
    (let w : Walk := { walk900 with who := [.xfer 0 0 5], instr := false, va := 0x40001000 }
     let d := ({ sTables with dies := [(0, { Die.reset with walks := [w], tbinv := some { side := true, kind := 2, asid := 3, addr := 0x20000, users := none } })] } : State).die 0
     d.walks = [w] ∧ openEntry sTables false w.va 2 0x3000 = .inr (.page (2 ^ 30) (2 ^ 30) (2 ^ 30) true true false) ∧ d.tbinv.any (fun v => v.side) = true) := by
  repeat' apply And.intro
  all_goals decide +kernel

/-- The next read of the walks of those tables is that of `openEntry`: a table, and then a page. -/
theorem test_witness_TableAndTranslationEvents_walks :
    sTables.walkNext walk900 = .inl (2, 0x2000) ∧
    sTables.walkNext { walk900 with at_ := some (1, 0x3000) } = .inr (.page 0 (2 ^ 21) 0x200000 false false true) ∧
    sTables.walkNext { walk900 with instr := false, va := 0x40001000, at_ := some (2, 0x3000) } =
      .inr (.page (2 ^ 30) (2 ^ 30) (2 ^ 30) true true false) := by
  have h (i : Bool) (v l b : Nat) : sTables.walkEntry Config.ownPackage i v l b = openEntry sTables i v l b := walkEntry_open _ (fun d => by
    match d with
    | 0 => rfl
    | n + 1 => rfl) i v l b
  simp only [State.walkNext, h]
  decide +kernel

/-! ### Far operations, copy engines, recovery and contexts -/

def farOp (id : Nat) (k : FarKind) (addr : W64) (ph : FarPhase) : FarOp :=
  { id := id, seq := id - 895, kind := k, addr := addr, phys := 0x5008, data := 0x1122334455667788#64, cmp := 77#64, dest := 3, pc := 0x1000#48,
    root := 0x1000#64, phase := ph, value := 99#64, fault := 0, heldBack := false, issued := 50, handler := false, desc := [], slot := 9, word := 0#32 }

/-- A far operation of each kind; address 0x10010 is mapped to HBM address 0x5010. -/
def sFar (f : Core → Core) : State :=
  { resting (f { Core.reset with
      seq := { Sequencer.reset with run := .running },
      far := { FarQueue.reset with nextSeq := 20, ops :=
        [farOp 900 (.load 3 false) 0x10010#64 .queued, farOp 901 (.store 2) 0x10010#64 .sent, farOp 902 (.load 1 true) 0x10010#64 .sent,
          farOp 904 (.atomic 10 true) 0x10010#64 .sent, farOp 906 (.atomic 6 false) 0x10010#64 .sent,
          farOp 905 (.load 1 true) 0x1000000000003008#64 .performed] } }) with
    ropes := [(0, { ropeOfStation 0 with dtb := [{ asid := 0, window := false, vbase := 0x10000, size := 4096, pbase := 0x5000, r := true, w := true }] })],
    sec := hbmBelow 0xFFFFF }

theorem farHome_own (f : FarOp) (h : addrSpace f.addr = 0) (hp : f.phys = 0x5008) : (sFar id).farHome 0 f = .inr (keyHbm 0 0x5008) := by
  have hc : openCode (sFar id) ((sFar id).tenantOf 0) 0x5008 = 0 := by decide +kernel
  simp [State.farHome, h, hp, partition_open (sFar id) _ _ (fun _ => rfl), hc, Config.ownPackage]

/-- A queued load that may leave and one that a fence or a line in use keeps; a store, a load and atomics at their home; an answer that may land and one that
waits for its frame. -/
theorem test_witness_FarEvents :
    (let s := sFar id
     let c := s.core 0
     (c.far.ops.all (fun f => c.farOp f.id == some f) = true) ∧ s.fenced 0 5 = false ∧ c.lineBusy (farOp 900 (.load 3 false) 0x10010#64 .queued) = false ∧
     addrCode s.sec.members (FarKind.load 3 false).spaces 0x10010#64 = 0 ∧ s.lookup 0 0x1000#64 0x10010#64 (FarKind.load 3 false).off = .found 0x5010 ∧
     s.hbmBad (0x5008 / 8 * 8) = false ∧ c.holdsBack s.cycle (farOp 905 (.load 1 true) 0x1000000000003008#64 .performed) = false ∧
     (atomicNew 6 false (readWord64 s.mem (keyHbm 0 0x5008)) 0x1122334455667788#64 77#64).isSome = true ∧
     atomicNew 10 true (readWord64 s.mem (keyHbm 0 0x5008)) 0x1122334455667788#64 77#64 = none ∧
     c.lineBusy (farOp 911 (.store 2) 0x10010#64 .queued) = true) ∧
    (∀ k ∈ [FarKind.store 2, .load 1 true, .atomic 10 true], (sFar id).farHome 0 (farOp 901 k 0x10010#64 .sent) = .inr (keyHbm 0 0x5008)) ∧
    (sFar (fun c => { c with far := { c.far with fences := [(10, 50)] } })).fenced 0 16 = true ∧
    ((sFar (fun c => { c with frame := some frame77 })).core 0).holdsBack 100 (farOp 905 (.load 1 true) 0x1000000000003008#64 .performed) = true ∧
    ((sFar (fun c => { c with seq := { c.seq with run := .testing }, test := some (1#64, 50) })).core 0).holdsBack 100
      (farOp 905 (.load 1 true) 0x1000000000003008#64 .performed) = true := by
  refine ⟨?_, fun k _ => farHome_own _ (show addrSpace 0x10010#64 = 0 by decide) rfl, ?_⟩
  all_goals repeat' apply And.intro
  all_goals decide +kernel

def desc (src dst : W64) : XferDesc :=
  { op := 1, src := src, dst := dst, tag := 5#16, len := 256, rows := 1, sstr := 0, dstr := 0, eng := 0, root := 0x1000#64 }

def xfer (id : Nat) (src dst : W64) (next : Nat) (pending : List CeLine) : Xfer :=
  { id := id, desc := desc src dst, s0 := 95, handle := none, core := 0, rank := 2, order := 0, farSeq := 0, issued := 80, began := decide (1 < next),
    nextLine := next, written := 0, pending := pending, cancelled := false, walking := [], bad := [], limit := none, fault := none, late := false }

def ceLine (line : Nat) (ph : CePhase) (addr : W64) : CeLine := { line := line, data := line64, phase := ph, addr := addr, phys := 0x5000, w := 100, code := 0 }

/-- One station holds every bank cycle; the engines of the rope are given. -/
def sEngineOf (station : Nat) (es : Tbl Engine) : State :=
  { resting { Core.reset with seq := { Sequencer.reset with run := .running } } with
    ropes := [(0, { ropeOfStation station with
      owners := [(0, 8), (1, 9), (2, 13)], engines := es,
      ports := [{ id := 906, station := 13, write := true, off := 0x1040, data := line64, owner := .engine 0 900 3, w := some 100 }] })],
    mem := writeBytes [] (keyPad 0 0x2000) line64, sec := hbmBelow 0xFFFFF }

/-- The station is engine 0's for reads. -/
def sEngine (es : Tbl Engine) : State := sEngineOf 8 es

theorem lineHome_own (es : Tbl Engine) (x : Xfer) (l : CeLine) (h : addrSpace l.addr = 0) (hp : l.phys = 0x5000) (hc : x.core = 0) :
    (sEngine es).lineHome x l = .inr (some (keyHbm 0 0x5000)) := by
  have h0 : openCode (sEngine es) ((sEngine es).tenantOf 0) 0x5000 = 0 := rfl
  simp [State.lineHome, h, hp, hc, partition_open (sEngine es) _ _ (fun _ => rfl), h0, Config.ownPackage]

/-- A transfer that may begin; a beat of a running one; a line that has been asked for, one that is booked for scratchpad, one for far memory and one that
has left; and a port's line. -/
theorem test_witness_CopyEngineEvents :
    (let x := xfer 900 0x1000000000002000#64 0x1000000000003000#64 1 []
     let s := sEngine [(0, { Engine.reset with tsb := [x] })]
     let r := s.rope 0
     headXfer (r.engine 0).tsb = some x ∧ (r.engine 0).readBusy = false ∧ (r.engine 0).free ≤ s.cycle ∧ x.s0 ≤ s.cycle ∧ s.firstPages 0 x = []) ∧
    (let x := xfer 900 0x1000000000002000#64 0x1000000000003000#64 2 []
     let s := sEngine [(0, { Engine.reset with readBusy := true, active := [x] })]
     let r := s.rope 0
     let a := x.desc.srcLine x.nextLine
     (r.engine 0).active.find? (fun y => !y.cancelled && decide (y.nextLine < y.stop)) = some x ∧ (r.engine 0).readBusy = true ∧ addrSpace a = 1 ∧
     (s.beatRead (s.coreRope x.core) 0 (readStation 0) (bankOf (addrOffset a))).isSome = true ∧ s.flips = [] ∧ x.pending = [] ∧
     (r.engine 0).readAt ≤ s.cycle ∧ s.behindMiss 0 0 x = false) ∧
    (let x := xfer 900 0x10000#64 0x1000000000001000#64 4 [ceLine 1 .booked 0#64, ceLine 2 .requested 0x10000#64, ceLine 3 .departed 0x10000#64]
     let s := sEngine [(0, { Engine.reset with active := [x] })]
     let r := s.rope 0
     s.xfer 0 900 = some (0, x) ∧ x.pending.find? (fun y => y.line == 2 && y.phase == .requested) = some (ceLine 2 .requested 0x10000#64) ∧
     s.homeLine x (ceLine 2 .requested 0x10000#64) = .inr line64 ∧ x.pending.find? (fun y => y.line == 1) = some (ceLine 1 .booked 0#64) ∧
     addrSpace (x.desc.dstLine 1) = 1 ∧ r.barrierAt ((List.range 8).map (fun k => addrOffset (x.desc.dstLine 1) + 8 * k)) = false ∧
     x.pending.find? (fun y => y.line == 3 && y.phase == .departed) = some (ceLine 3 .departed 0x10000#64) ∧ x.cancelled = false ∧ x.fault = none ∧
     (∀ m ∈ x.pending, m.line < 2 → m.phase ≠ .requested) ∧ (∀ m ∈ x.pending, 1 ≤ m.line) ∧ s.lineStands x 3 = true ∧
     ((sEngineOf (writeStation 0) []).rope 0).granteeAt (bankOf (addrOffset (x.desc.dstLine 1))) 100 = writeStation 0 ∧
     (let s := sEngineOf 13 [(0, { Engine.reset with active := [x] })]
      let r := s.rope 0
      (r.ports.find? (fun p => p.id == 906)).any (fun q => q.write && q.w == some s.cycle && q.data.length == 64 && q.owner == .engine 0 900 3 &&
        s.portStands q && r.granteeAt (bankOf q.off) s.cycle == q.station && r.ports.all (fun p => !p.before q)) = true ∧
      r.barrierAt ((List.range 8).map (fun i => 0x1040 + 8 * i)) = false)) ∧
    ((sEngine []).rope 0).cefHw.1 ≠ 100 ∧
    addrSpace ((desc 0x10000#64 0x2000000000000100#64).dstLine 1) = 2 ∧
    (∀ es x, x.core = 0 → (sEngine es).lineHome x (ceLine 3 .departed 0x10000#64) = .inr (some (keyHbm 0 0x5000))) := by
  refine ⟨?_, ?_, ?_, ?_, ?_, fun es x h => lineHome_own es x _ (show addrSpace 0x10000#64 = 0 by decide) rfl h⟩
  all_goals repeat' apply And.intro
  all_goals decide +kernel

/-- A core with two regions, the inner one of H 36, and two journal entries. -/
def sRoll (f : Core → Core) : State :=
  { resting (f { Core.reset with
      csr := [(0x007, 3#64), (0x004, 77#64)],
      seq := { Sequencer.reset with run := .running },
      belay := { Belay.reset with
        regions := [{ region0 with h := 36 }, region0],
        journal := [{ depth := 2, line := 0x40, bytes := List.replicate 64 3#8, live := [] }, { depth := 1, line := 0x80, bytes := [], live := [] }] } }) with
    ropes := [(0, ropeOfStation 4)] }

def rolling (rb : Rollback) (journal : Bool) (c : Core) : Core :=
  { c with belay := { c.belay with roll := some rb, journal := if journal then c.belay.journal else [] }, seq := { c.seq with run := .rollingBack } }

/-- An error inside a region and outside; a line to be written back; a restore whose time has come; a restart in its cycle and before it; and a self-test that
ends. -/
theorem test_witness_RecoveryEvents :
    (let c := (sRoll id).core 0
     c.frame = none ∧ c.belay.roll = none ∧ c.seq.run = .running ∧ (c.belay.at_ (c.belay.escalate c.retryLimit c.belay.regions.length)).isSome = true) ∧
    ((sRoll (fun c => { c with belay := Belay.reset })).core 0).belay.regions = [] ∧
    (let s := sRoll (rolling { target := 2, x := 90, due := 0, restored := false } true)
     let c := s.core 0
     c.belay.roll = some { target := 2, x := 90, due := 0, restored := false } ∧ s.rollQuiet 0 = true ∧
     c.belay.nextUndo 2 = some { depth := 2, line := 0x40, bytes := List.replicate 64 3#8, live := [] } ∧ (s.rope 0).grantee (bankOf 0x40) s.cycle = storeStation 0) ∧
    (let s := sRoll (rolling { target := 2, x := 50, due := 60, restored := false } false)
     let c := s.core 0
     c.belay.nextUndo 2 = none ∧ 60 + 8 ≤ s.cycle ∧ 60 + 32 * (c.belay.shadows 2).length ≤ s.cycle ∧ c.belay.at_ 2 = some { region0 with h := 36 } ∧
     s.flips = []) ∧
    (let s := sRoll (rolling { target := 2, x := 50, due := 60, restored := true } false)
     (s.core 0).belay.regions = { region0 with h := 36 } :: [region0] ∧ s.cycle % 64 = 36 % 64 ∧ (s.core 0).evacuate = false ∧ (s.core 0).timed = false ∧
     region0.beside.words = [] ∧ { region0 with beside := { Latched.reset with words := [(0, 0x01464280#32)] } }.beside.words ≠ []) ∧
    (sRoll (fun c => rolling { target := 2, x := 50, due := 60, restored := true } false
      { c with belay := { c.belay with regions := [{ region0 with h := 35 }] } })).cycle % 64 ≠ 35 % 64 ∧
    (let c := (sRoll (fun c => { c with test := some (0xFF#64, 50), slip := some (50, []), seq := { c.seq with run := .testing } })).core 0
     c.test = some (0xFF#64, 50) ∧ c.slip = some (50, []) ∧ (0xFF#64).getLsbD 6 = true ∧ (0x1F#64).getLsbD 6 = false) := by
  repeat' apply And.intro
  all_goals decide +kernel
def launchRec (ph : LaunchPhase) (records : List (Nat × W64)) : Launch :=
  { id := 9, queue := 4, seq := 2#32, tenant := 3, prio := 0, obj := 0x8000#64, kernel := 0, ncore := 1, args := [], cmpl := 0#64, phase := ph, ropes := [0],
    retiredDies := [], savedDies := [], status := 0, records := records, locked := [], refilled := false }

/-- Core 0 runs launch 9 of tenant 3, in the run state given. -/
def sLaunch (run : RunState) (inflight : List Landing) (l : Launch) : State :=
  { resting { Core.reset with
      launch := some launch9, save := some (90, 1), csr := [(0x100, 0x1000#64), (0x103, 5#64), (0x104, 0x40000#64)], inflight := inflight,
      seq := { Sequencer.reset with run := run } } with
    ropes := [(0, ropeOfStation 4)], disp := { Dispatcher.reset with launches := [l] } }

/-- A save and a retirement that wait for a result and that do not; a die whose core has left; records without their object; a program counter that is no
resume point. -/
theorem test_witness_ContextEvents :
    (let s := sLaunch .saving [] (launchRec .running [(0, 0x40000#64)])
     (s.core 0).save = some (90, 1) ∧ (s.core 0).launch = some launch9 ∧ (s.core 0).seq.run = .saving ∧ (s.core 0).far.fault = none ∧ s.saveWaits 0 = false ∧
     s.resumePoint 0 (s.core 0).seq.pc = none ∧ s.launch 9 = some (launchRec .running [(0, 0x40000#64)]) ∧
     (launchRec .running [(0, 0x40000#64)]).records ≠ [] ∧ (launchRec .running []).ropes ≠ [] ∧
     s.launchObject (launchRec .running [(0, 0x40000#64)]) = none) ∧
    (sLaunch .saving [pendingAt 900 130 false] (launchRec .running [])).saveWaits 0 = true ∧
    (let s := sLaunch .retiring [] (launchRec .running [])
     (s.core 0).frame = none ∧ (s.core 0).seq.run = .retiring ∧ s.retireWaits 0 = false ∧ (s.retireFault 0).isNone = true) ∧
    (let s := sLaunch .retiring [] (launchRec .running [])
     ({ s with ropes := [(0, { ropeOfStation 4 with cefOwed := [0] })] } : State).retireFault 0 ≠ none) ∧
    (sLaunch .retiring [pendingAt 900 130 false] (launchRec .running [])).retireWaits 0 = true ∧
    (sLaunch .idle [] (launchRec .running [])).cannotReport 0 9 = false := by
  repeat' apply And.intro
  all_goals decide +kernel

/-! ### Queues and packets -/

/-- A page table that maps address 0 to 2 MB to itself. -/
def pageTable : List Host.Cell :=
  writeBytes (writeBytes (writeBytes [] (keyHbm 0 0x1000) (leBytes 8 0x2001)) (keyHbm 0 0x2000) (leBytes 8 0x3001)) (keyHbm 0 0x3000) (leBytes 8 0x33)

def packet (seq : Nat) (ws : List W64) : Packet :=
  { queue := 4, seq := BitVec.ofNat 32 seq, words := ws, phase := .started, status := 5#16, readAt := 40, word1 := none, answer := List.replicate 64 7#8 }

def queue4 (res : Bool) : Queue := { Queue.reset with en := true, res := res, tenant := 3, log2n := 6, ring := 0x50000#64 }

def sPackets (res : Bool) (ps : List Packet) (bytes : List Byte) : State :=
  { State.reset with
    cycle := 100, mem := writeBytes pageTable (keyHbm 0 0x20000) bytes,
    sec := { Security.reset with partitions := [(3, { Partition.reset with hbm := [(0, 0xFFFFFFFFFF)], roots := [(0, 0x1000#64, 0x1000#64)], cores := [0] })] },
    disp := { Dispatcher.reset with queues := [(4, queue4 res)], packets := ps } }

theorem packets_open (res : Bool) (ps : List Packet) (bytes : List Byte) (tenant phys : Nat) :
    (sPackets res ps bytes).partitionCode tenant phys = openCode (sPackets res ps bytes) tenant phys := partition_open _ _ _ (fun _ => rfl)

theorem packets_walk (res : Bool) (ps : List Packet) (bytes : List Byte) (instr : Bool) (root : W64) (va : Nat) :
    (sPackets res ps bytes).walk Config.ownPackage instr root va =
      openFrom (sPackets res ps bytes) instr va (if instr then 3 else 4) (rootBase root) := walk_open _ (fun _ => rfl) instr root va

/-- A copy, a copy that faults, an addition, a misaligned signal, waits that hold and do not, and a map query. -/
def somePackets : List Packet :=
  [packet 0 [2#64, 0x20000#64, 0x30000#64, 64#64, 0x30000#64], packet 1 [3#64, 0x20000#64, 7#64, 1#64],
    packet 2 [4#64, 0x20000#64, 0x99#64, 0xFF#64, 0#64], packet 3 [4#64, 0x20000#64, 0x99#64, 0xFF#64, 1#64], packet 6 [5#64, 0xFF#64, 0x30000#64, 64#64],
    packet 7 [2#64, 0x7000000000000000#64, 0x30010#64, 128#64], packet 8 [3#64, 0x20004#64, 7#64, 0#64]]

def sQueue : State := sPackets true somePackets (List.replicate 64 0x99#8)

theorem queue_locates : sQueue.queueLocate 4 0x20000#64 .read = some (keyHbm 0 0x20000) ∧ sQueue.queueLocate 4 0x20000#64 .write = some (keyHbm 0 0x20000) ∧
    sQueue.queueLocate 4 0x30000#64 .write = some (keyHbm 0 0x30000) := by
  simp only [State.queueLocate, State.locate, sQueue, packets_open, packets_walk]
  decide +kernel

theorem queue_copies : (sQueue.copyLines 4 1 0x20000#64 0x30000#64).isSome = true ∧
    (sQueue.copyLines 4 2 0x7000000000000000#64 0x30010#64).isNone = true := by
  have h : sQueue.queueLocate 4 0x7000000000000000#64 .read = none := by decide +kernel
  constructor
  · simp only [State.copyLines, queue_locates]
    rfl
  · simp only [State.copyLines, h]
    rfl

theorem test_witness_PacketEvents :
    (somePackets.all (fun p => sQueue.packet 4 p.seq == some p) = true) ∧ sQueue.queueLocate 4 0x20000#64 .read = some (keyHbm 0 0x20000) ∧
    sQueue.queueLocate 4 0x30000#64 .write = some (keyHbm 0 0x30000) ∧ sQueue.queueLocate 4 0x7000000000000000#64 .read = none ∧
    (0x20004#64).toNat % 8 ≠ 0 ∧ readWord64 sQueue.mem (keyHbm 0 0x20000) &&& 0xFF#64 = 0x99#64 ∧ (sQueue.queue 4).res = true ∧
    (sQueue.copyLines 4 1 0x20000#64 0x30000#64).isSome = true ∧ (sQueue.copyLines 4 2 0x7000000000000000#64 0x30010#64).isNone = true ∧
    ((sPackets false somePackets []).queue 4).res = false ∧ packetCmpl [2#64, 0x20000#64, 0x30000#64, 64#64, 0x30000#64] = 0x30000#64 ∧
    (0x30000#64).toNat % 16 = 0 ∧ addrSpace 0x30000#64 ≠ 5 ∧ sQueue.host.posted = [] ∧
    (let y : Packet := { packet 6 [7#64, 0xFF#64, 0x30000#64, 64#64] with phase := .read }
     let s := sPackets true [y] []
     s.packetsOf 4 = [y] ∧ packetValid y.words = true ∧ packetKind y.words = 7 ∧ s.packetsRun = true ∧ (s.queue 4).reads = true ∧
     (s.queue 4).fetch = (s.queue 4).tail) := by
  refine ⟨?_, queue_locates.1, queue_locates.2.2, ?_, ?_, ?_, ?_, queue_copies.1, queue_copies.2, ?_⟩
  all_goals repeat' apply And.intro
  all_goals decide +kernel
/-- A checkpoint descriptor of group 7 for one member with one class. -/
def ckDesc : List Byte :=
  [7#8, 0#8, 1#8, 1#8, 0#8, 0#8, 0#8, 0#8, 2#8, 0#8, 3#8, 0#8] ++ List.replicate 52 0#8 ++ leBytes 8 0x40000 ++ leBytes 8 4096 ++ List.replicate 16 0#8

def padEnd (off : Nat) : Endpoint := { kind := 0, mem := 0, die := 0, rope := 0, chip := 0, off := off }
def slotEnd (off : Nat) : Endpoint := { kind := 1, mem := 0, die := 0, rope := 0, chip := 0, off := off }

def ttEntry (off pos : Nat) (src dst : Endpoint) : TtEntry :=
  { off := off, op := 1, ety := 3, root := false, pos := pos, bytes := 64, dhandle := some 3, src := src, dst := dst, drawid := 0, trig := none }

/-- Timetable 5 of tenant 3: two entries into one chunk slot, one out of it, and one from a slot to a slot. -/
def table5 : Timetable :=
  { id := 70, tenant := 3, number := 5, persist := true, seed := 0#64, duration := 1000, done := 0#64, members := 1,
    entries := [ttEntry 10 0 (padEnd 0x40) (slotEnd 0x100), ttEntry 20 1 (padEnd 0x80) (slotEnd 0x100), ttEntry 300 0 (slotEnd 0x100) (padEnd 0x200),
      ttEntry 300 0 (slotEnd 0x300) (slotEnd 0x400)],
    bytes := [], marked := false, stale := false }

def instance71 (started : Bool) (s : Nat) : Machine.Instance :=
  { id := 71, tt := 70, tenant := 3, s := s, started := started, begun := [0], data := [(1, List.replicate 64 5#8), (0, List.replicate 64 6#8)], arrived := [],
    combined := [], landed := [], blocked := [], status := 0, z := false, v := false, o := false, late := false, rerun := false, olds := [], epochs := [], ended := false }

/-- Packets of the collective side; timetable 5 is installed and HBM holds the number 5 at 0x20000. -/
def collectivePackets : List Packet :=
  [packet 0 [6#64, 0x20000#64, 192#64], packet 1 [7#64, 0x20000#64, 7#64, 1#64], packet 2 [8#64, 0x21000#64, 9#64], packet 3 [9#64, 0x1000000000000000#64]]

def sColl (insts : List Machine.Instance) (cks : List Checkpoint) : State :=
  { sPackets true collectivePackets (leBytes 64 5) with coll := { Collective.reset with timetables := [table5], instances := insts, checkpoints := cks } }

def checkpoint72 (failed : Bool) : Checkpoint :=
  { id := 72, group := 7, tenant := 3, desc := ckDesc, step := 9#64, slot := 0, packet := some (4, 2#32), failed := failed, restore := false, written := true }

theorem coll_read : (sColl [] []).readLines 3 0 0x1000#64 1 0x20000#64 = some (leBytes 64 5) ∧
    ((sColl [] []).readLines 3 0 0x1000#64 3 0x20000#64).any (fun b => decide ((sColl [] []).installStatus 3 (cut 192 b).1 ≠ 0)) = true := by
  have h (t p : Nat) : (sColl [] []).partitionCode t p = openCode (sColl [] []) t p := partition_open _ _ _ (fun _ => rfl)
  have w (i : Bool) (r : W64) (v : Nat) : (sColl [] []).walk Config.ownPackage i r v = openFrom (sColl [] []) i v (if i then 3 else 4) (rootBase r) :=
    walk_open _ (fun _ => rfl) i r v
  simp only [State.readLines, State.locate, h, w]
  decide +kernel

/-- An image that is refused, an installed timetable with and without an instance, addresses outside far memory, no descriptor, and a checkpoint that failed. -/
theorem test_witness_CollectivePackets :
    (collectivePackets.all (fun p => (sColl [] []).packet 4 p.seq == some p) = true) ∧
    ((sColl [] []).readLines 3 0 0x1000#64 1 0x20000#64 = some (leBytes 64 5) ∧
      ((sColl [] []).readLines 3 0 0x1000#64 3 0x20000#64).any (fun b => decide ((sColl [] []).installStatus 3 (cut 192 b).1 ≠ 0)) = true) ∧
    addrSpace 0x20000#64 = 0 ∧ addrSpace 0x1000000000000000#64 ≠ 0 ∧ (sColl [] []).packetDesc 4 0x1000000000000000#64 = none ∧
    (sColl [] []).installed 3 (natAt (leBytes 64 5) 0 2) = some table5 ∧ (sColl [] []).coll.instances.any (fun i => i.tt == table5.id) = false ∧
    (sColl [instance71 true 90] []).coll.instances.any (fun i => i.tt == table5.id) = true ∧
    (sColl [] [checkpoint72 true]).coll.checkpoints.find? (fun y => y.id == 72) = some (checkpoint72 true) ∧
    ¬ ((checkpoint72 true).failed = false ∧ ∀ m ∈ ckMembers ckDesc, ((sColl [] []).itemDigest ckDesc 0 m 9#64).isSome = true) ∧
    ckWf ckDesc = true ∧ (sColl [] [checkpoint72 true]).ckStatus ckDesc true 9#64 = 0x46 ∧
    (sColl [] []).coll.checkpoints.any (fun k => k.group == 7) = false ∧ ckData ckDesc = 1 ∧ (sColl [] []).memberDown (ckPkg ckDesc 0) (ckDie ckDesc 0) = false ∧
    ({ sColl [] [] with coll := { (sColl [] []).coll with failedMembers := [0] } } : State).memberDown 0 2 = true := by
  refine ⟨?_, coll_read, ?_⟩
  all_goals repeat' apply And.intro
  all_goals decide +kernel

/-- Queue 4 of tenant 3 with the launches and packets given. -/
def sDisp (res : Bool) (ls : List Launch) (ps : List Packet) : State :=
  let s := sPackets res ps []
  { s with
    cores := [(0, { Core.reset with launch := some launch9, seq := { Sequencer.reset with run := .running } })],
    disp := { s.disp with launches := ls, qage := 10#32, queues := [(4, { queue4 res with savedProg := 5#32, progress := 7#32 }), (5, queue4 res)] } }

def entryOf (log2n : Nat) : BitVec 256 := BitVec.ofNat 256 (3 * 2 ^ 90 + 2 ^ 86 + log2n * 2 ^ 81 + 0x50000)

def launchPacket : Packet := { packet 0 [1#64, 0x8000#64, 0#64, 0x30000#64, 1#64, 2#64, 3#64, 4#64] with phase := .read, readAt := 1 }

/-- Entries of a good LOG2N and a bad one; a queue that runs nothing and one that runs a launch; a queue that is away; a packet that has waited. -/
theorem test_witness_QueueTable :
    ((Queue.ofEntry (entryOf 5)).log2n < 6 ∧ 6 ≤ (Queue.ofEntry (entryOf 6)).log2n ∧ (Queue.ofEntry (entryOf 16)).log2n ≤ 16 ∧
      16 < (Queue.ofEntry (entryOf 17)).log2n ∧ bitsNat (entryOf 6) 68 64 = 0) ∧
    (((sDisp true [] []).queue 4).res = true ∧ (sDisp true [] []).queueRuns 4 = false) ∧
    (let s := sDisp true [launchRec .running []] []
     (s.queue 4).res = true ∧ launchRec .running [] ∈ s.disp.launches ∧ (launchRec .running []).queue = 4) ∧
    (((sDisp false [] []).queue 4).res = false ∧ ∀ l ∈ (sDisp false [] []).disp.launches, l.phase ≠ .unplaced) ∧
    (let s := sDisp true [] [launchPacket]
     (s.packetsOf 4).find? (fun y => y.phase == .read) = some launchPacket ∧ launchPacket.readAt + s.disp.qage.toNat < s.cycle) := by
  repeat' apply And.intro
  all_goals decide +kernel

/-- A stream with a record of each kind, of which `applied` have been applied. -/
def sStream (applied : Nat) (dies : Tbl Die) : State :=
  let s := sDisp true [launchRec .selected []] []
  let r (k : StreamKind) : StreamRec := { kind := k, digest := [] }
  { s with
    dies := dies,
    disp := { s.disp with stream := [r (.launch 9), r (.map [1#8]), r (.retirement 9 0), r (.preemption 9 0)], applied := applied } }

def held (action : List Byte) : HeldTrigger := { chip := 0, entry := 0, action := action, owner := 9, tenant := 3, fired := 80 }

def sHeld (hs : List HeldTrigger) : State :=
  let s := sDisp true [launchRec .running []] []
  { s with coll := { s.coll with held := hs } }

theorem test_witness_DispatcherEvents :
    (let s := sDisp true [] [launchPacket]
     s.disp.halted = false ∧ s.packetsRun = true ∧ 4 ∈ s.disp.queues.map (·.1) ∧ s.nextLaunch 4 = some launchPacket ∧ s.nextLaunch 5 = none) ∧
    (let s := sDisp true [launchRec .selected []] [{ packet 2 [1#64, 0x8000#64] with phase := .started }]
     s.disp.launches.find? (fun x => x.queue == 4 && x.seq == 2#32 && x.phase == .selected && !s.emitted x.id) = some (launchRec .selected []) ∧
     s.launchStatus (launchRec .selected []) ≠ 0 ∧ (s.packet 4 2#32).isSome = true) ∧
    (∀ k ∈ [0, 1, 2, 3], (sStream k []).disp.halted = false ∧ (sStream k []).disp.applied = k ∧
      ((sStream k []).disp.stream[k]?).any (fun r => (upTo 32).all (fun d => ((sStream k []).die d).digest == r.digest)) = true) ∧
    ((sStream 0 [(1, { Die.reset with digest := [1#8] })]).die 1).digest ≠ [] ∧
    ((sHeld []).launch 9 = some (launchRec .running []) ∧ (∀ h ∈ (sHeld []).coll.held, h.owner ≠ 9) ∧ ∀ c ∈ (sHeld []).coll.copies, c.owner ≠ 9) ∧
    ({ Collective.reset with copies := [{ id := 8, tenant := 3, owner := 9, action := [], data := [] }] }.copies.any (fun c => c.owner == 9) = true) ∧
    (residentFor (launchRec .running []) ([2#8] ++ List.replicate 22 0#8 ++ [0x10#8] ++ List.replicate 6 0#8 ++ [8#8] ++ List.replicate 33 0#8) = false) ∧
    (let a := [3#8, 1#8] ++ List.replicate 62 0#8
     natAt a 0 1 = 3 ∧ actionWakes a = true ∧ (sHeld [held a]).coll.held = [held a]) ∧
    (((sDisp true [] []).partition 3).roots = (0, 0x1000#64, 0x1000#64) :: []) ∧ (sDisp true [] []).lifeRuns = true ∧
    ({ sDisp true [] [] with sec := { (sDisp true [] []).sec with life := 4#3 } } : State).lifeRuns = false ∧
    (let u : Upload := { tenant := 3, addr := 0x20000#64, len := 64, group := 80 }
     let s := { sDisp true [] [] with disp := { (sDisp true [] []).disp with uploads := [u] } }
     s.disp.uploads = [u] ∧ s.groupWaits u.group = false ∧ addrSpace u.addr = 0 ∧ u.addr.toNat % 4096 = 0) := by
  repeat' apply And.intro
  all_goals decide +kernel
/-! ### The host link, the package and the collectives -/

/-- A transaction's first word. -/
def header (kind tag len : Nat) : W64 := BitVec.ofNat 64 (kind + tag * 16 + len * 2 ^ 16)

/-- Lengths that are a whole number of pages and not; kinds that are known and not; good and bad requests; a link that is up; a doorbell within the ring and
beyond; a read of the device that holds its tag, and lines of the host at their home. (The map from host addresses to device memory is the implementation's,
so no transaction that finds its line can be shown.) -/
theorem test_witness_HostLinkEvents :
    (let s := sDisp true [] []
     (100 % 4096 ≠ 0 ∧ 8192 % 4096 = 0) ∧ hdrKind (header 0 0 0) = 0 ∧ 6 ≤ hdrKind (header 7 0 0) ∧ s.host.modules ≠ 0#4 ∧ hdrKind (header 1 3 1) = 1 ∧
     requestOk (header 1 3 1) 64#64 = true ∧ hdrLen (header 1 3 1) = 1 ∧ line64.length = 64 ∧ requestOk (header 1 3 1) 63#64 = false ∧
     hdrKind (header 2 3 1) = 2 ∧ requestOk (header 2 3 1) 64#64 = true ∧ requestOk (header 2 3 1) 63#64 = false ∧ hdrKind (header 5 3 1) = 5 ∧
     requestOk (header 5 3 1) 0#64 = true ∧ requestOk (header 5 3 1) 63#64 = false ∧ hdrKind (header 3 3 1) = 3 ∧
     (let w0 := header 4 0 0 + 4 * 2 ^ 32
      hdrKind w0 = 4 ∧ hdrReserved w0 = 0 ∧ hdrStatus w0 = 0 ∧ hdrLen w0 = 0 ∧ hdrQueue w0 = 4) ∧
     (9#32 - (s.queue 4).progress).toNat ≤ 2 ^ (s.queue 4).log2n ∧ 2 ^ (s.queue 4).log2n < (1000#32 - (s.queue 4).progress).toNat ∧
     s.host.inbound = [] ∧ s.host.reads = []) ∧
    (let f := farOp 901 (.load 1 true) 0x4000000000000008#64 .sent
     let m : HostMsg := { w0 := header 2 3 1, w1 := 0#64, data := [] }
     let s := { sFar (fun c => { c with far := { c.far with ops := [f] } }) with
       host := { HostLink.reset with openReads := [(3, .far 0 901)], outbox := [m] } }
     s.host.openReads.find? (fun e => e.1 == hdrTag (header 3 3 1)) = some (3, .far 0 901) ∧ (s.core 0).farOp 901 = some f ∧ m ∈ s.host.outbox ∧
     s.host.openReads.find? (fun e => e.1 == hdrTag (header 3 4 1)) = none ∧ hdrStatus (header 3 3 1) = 0 ∧ hdrStatus (header 3 3 0 + 0x2000000#64) = 2 ∧
     s.host.outbox.find? (fun x => hdrKind x.w0 == 1) = none) ∧
    (let w : PortWait := { wait901 with what := 4, started := true, owner := .hostRead 77, key := keyHbm 0 0x4000 }
     let v : PortWait := { wait901 with what := 5, started := true, owner := .hostWrite, key := keyHbm 0 0x4000, data := line64 }
     ownPhys w.key = some 0x4000 ∧ v.key % 64 = 0 ∧ (sFar id).hbmLineBad 0x4000 = false ∧ ((sFar id).core 0).farOp 901 ≠ none ∧
     ∀ x ∈ [w, v], ([(0, { Die.reset with portWaits := [x] })].flatMap (fun d : Nat × Die => d.2.portWaits)).find? (fun y =>
       y.id == 901 && (y.what == 1 || y.what == 4 || y.what == 5) && y.started) = some x) := by
  repeat' apply And.intro
  all_goals decide +kernel

/-- Core 0 runs launch 9 and uses unit 1; die 0 has an unpublished record, and its margin register is given. -/
def sPackage (vmargin linkmargin : W64) (running : Bool) (life : BitVec 3) : State :=
  { resting { Core.reset with
      launch := if running then some launch9 else none, used := [1], seq := { Sequencer.reset with run := if running then .running else .idle } } with
    dies := [(0, { Die.reset with dirty := true, vmargin := vmargin, linkmargin := linkmargin })],
    flips := [{ loc := .hbm 5, bad := false }], sec := { Security.reset with life := life },
    disp := { Dispatcher.reset with launches := if running then [launchRec .running []] else [] } }

/-- Free units and busy ones; a margin setting that settles and none; transitions that are allowed and not; a tenant that runs and one that does not; a margin
write that is ignored and one that is not; a scan that runs and one that may start. -/
theorem test_witness_PackageEvents :
    (let s := sPackage 0#64 0#64 true 2#3
     unitKey (.scalar 0 1) = some (0, 1) ∧ (s.measuredCore 0 0).keyState 1 = 0 ∧ (s.core 0).used.contains 1 = true ∧ (s.core 0).launch.isSome = true ∧
     (s.core 0).launch.any (fun l => l.tenant == 3) = true ∧ (s.die 0).dirty = true ∧ (s.die 0).vmargin.getLsbD 0 = false ∧
     (launchRec .running [] ∈ s.disp.launches) ∧ lifeAllows s.sec.life.toNat 3 = true ∧ lifeAllows s.sec.life.toNat 2 = false ∧ s.liveDie ≠ none) ∧
    (let s := sPackage 0#64 0#64 false 2#3
     s.unitFree 0 1 = true ∧ s.ropeFree 0 = true ∧ (∀ c ∈ dieCores 0, (s.core c).launch = none) ∧ (s.die 0).vmargin.getLsbD 63 = false ∧
     ¬ 3 < bitsNat 1#64 39 32 ∧ linkLaneOk 0 (bitsNat 0#64 3 0) (bitsNat 0#64 15 8) = true ∧ (s.die 0).linkmargin.getLsbD 63 = false) ∧
    3 < bitsNat 0x0700000000#64 39 32 ∧ ((sPackage 1#64 0#64 false 2#3).die 0).vmargin.getLsbD 0 = true ∧
    ((sPackage 0#64 0x8000000000000000#64 false 2#3).die 0).linkmargin.getLsbD 63 = true := by
  repeat' apply And.intro
  all_goals decide +kernel

/-- A call for timetable 5 whose members have all accepted or not, and the far operation that waits for its answer. -/
def call72 (asked : List Nat) (closed : Bool) (number : Nat) : CcallReq :=
  { id := 72, caller := some (0, 905), tenant := 3, number := number, s := 5000, tt := 70, asked := asked, accepted := [0], closed := closed, order := 4, sent := [0, 1],
    epoch := 0, lost := false }

def sTime (tts : List Timetable) (insts : List Machine.Instance) (calls : List CcallReq) : State :=
  { resting { Core.reset with launch := some launch9, far := { FarQueue.reset with ops := [farOp 905 .ccall 0x1000000000000600#64 .sent] } } with
    mem := pageTable, sec := { Security.reset with partitions := [(3, { Partition.reset with triggers := [(0, 0, 100)] })] },
    coll := { Collective.reset with timetables := tts, instances := insts, calls := calls } }

theorem test_witness_TimetableEvents :
    (let s := sTime [table5] [instance71 false 90] [call72 [0] false 5]
     s.timetable 70 = some table5 ∧ s.call 72 = some (call72 [0] false 5) ∧ s.installed 3 5 = some table5 ∧ table5.marked = false ∧ table5.stale = false ∧
     (s.coll.calls.any (fun x => x.id != 72 && x.tt == 70 && x.accepted.contains 0 && meets 5000 x.s 1000) ||
       s.coll.instances.any (fun i => i.tt == 70 && meets 5000 i.s 1000)) = false ∧
     [0].filter (· != (0 : Nat)) = [] ∧ (call72 [0] false 5).closed = false ∧ s.inst 71 = some (instance71 false 90) ∧
     (s.callAhead (call72 [0] false 5) 0 = false ∧ (call72 [0] false 5).sent.contains 0 = true ∧ (call72 [0] false 5).sent.contains 2 = false) ∧
     s.coll.instances.any (fun x => x.tt == 70 && x.started && !x.ended) = false ∧ (s.core 0).farOp 905 = some (farOp 905 .ccall 0x1000000000000600#64 .sent)) ∧
    (sTime [table5] [] [call72 [0, 1] true 6]).installed 3 6 = none ∧ [0, 1].filter (· != (0 : Nat)) ≠ [] ∧ (call72 [0, 1] true 6).closed = true ∧
    (sTime [{ table5 with stale := true }] [] []).installed 3 5 = some { table5 with stale := true } ∧
    ((sTime [table5] [] [call72 [0] false 5, { call72 [0] false 5 with id := 75, s := 5100 }]).coll.calls.any (fun x =>
      x.id != 72 && x.tt == 70 && x.accepted.contains 0 && meets 5000 x.s 1000) = true) ∧
    ((sTime [table5] [] [call72 [0] false 5, { call72 [0] false 5 with id := 75, order := 3 }]).callAhead (call72 [0] false 5) 0 = true) ∧
    ((sTime [table5] [instance71 false 90, { instance71 true 90 with id := 73, rerun := true }] []).coll.instances.any (fun x =>
      x.tt == 70 && x.started && !x.ended && x.rerun) = true) ∧
    (let s := (sTime [table5] [instance71 false 90, { instance71 true 90 with id := 73 }] []).schedule 100 0 (.timetableInstanceEnd 73)
     s.coll.instances.any (fun x => x.tt == 70 && x.started && !x.ended && s.agenda.any (fun d => d.at_ == s.cycle && d.ev == .timetableInstanceEnd x.id)) = true) ∧
    (let i := instance71 true 90
     table5.entries[1]? = some (ttEntry 20 1 (padEnd 0x80) (slotEnd 0x100)) ∧ i.blocked.contains 1 = false ∧ i.begun.contains 1 = false ∧
     (padEnd 0x80).ownPad = true ∧ (slotEnd 0x300).kind = 1 ∧ slotDone table5 i (slotEnd 0x300) (some 300) = true ∧ i.combined.contains 1 = false ∧
     prevDone table5 i (ttEntry 20 1 (padEnd 0x80) (slotEnd 0x100)) = false ∧ prevDone table5 i (ttEntry 10 0 (padEnd 0x40) (slotEnd 0x100)) = true ∧
     (∃ e ∈ List.range 4, i.landed.contains e = false) ∧ ∀ e ∈ List.range 4, { i with landed := [0, 1, 2, 3] }.landed.contains e = true) ∧
    (let s := sTime [] [] []
     (farOp 905 .ctrig 0x1000000000000600#64 .sent).desc = [] ∧ addrSpace 0x1000000000000600#64 = 1 ∧ s.armStatus 0 5 (List.replicate 64 0#8) ≠ 0 ∧
     s.armStatus 0 5 ([3#8, 1#8, 0#8, 0#8, 1#8] ++ List.replicate 59 0#8) = 0) ∧
    ({ table5 with number := 6 } ∈ [{ table5 with number := 6 }] ∧ ({ table5 with number := 6 } : Timetable).number = (call72 [0, 1] true 6).number) ∧
    (let x := ttEntry 300 0 (slotEnd 0x100) (padEnd 0x200)
     let y := { x with op := 1, pos := 1 }
     x.dst.ownPad = true ∧ prevDone table5 (instance71 true 90) x = true ∧ x.needsOld = false ∧ y.needsOld = true ∧
     prevDone { table5 with entries := [x, y] } { instance71 true 90 with landed := [0] } y = true ∧ (instance71 true 90).olds = []) ∧
    (let x : TtEntry := { ttEntry 20 1 (padEnd 0x80) { kind := 2, mem := 0, die := 0, rope := 0, chip := 0, off := 0x20000 } with dhandle := none }
     let w : PortWait := { wait901 with what := 4, started := true, owner := .old 71 0 0, key := keyHbm 0 0x4000, tenant := 3 }
     x.dst.kind = 2 ∧ x.dst.off % 64 = 0 ∧ (combineEntry 0#64 x (List.replicate 64 1#8) (List.replicate 64 2#8)).bytes.length = 64 ∧
     (instance71 true 90).data.any (fun d => d.1 == 0) = true ∧ ownPhys w.key = some 0x4000) := by
  repeat' apply And.intro
  all_goals decide +kernel

/-- A global source whose line is asked for at its memory port. -/
def globalEnd : Endpoint := { kind := 2, mem := 0, die := 0, rope := 0, chip := 0, off := 0x20000 }

theorem test_witness_TimetableEvents_global : (sColl [] []).endpointKey 3 globalEnd 0x20000 .read = .inr (keyHbm 0 0x20000) ∧
    ownPhys (keyHbm 0 0x20000) = some 0x20000 := by
  have h (t p : Nat) : (sColl [] []).partitionCode t p = openCode (sColl [] []) t p := partition_open _ _ _ (fun _ => rfl)
  have w (i : Bool) (r : W64) (v : Nat) : (sColl [] []).walk Config.ownPackage i r v = openFrom (sColl [] []) i v (if i then 3 else 4) (rootBase r) :=
    walk_open _ (fun _ => rfl) i r v
  simp only [State.endpointKey, State.globalKey, h, w]
  decide +kernel

/-- Link 2 was heard in cycle 99; link 5, switch 2 and member 1 have failed; chiplet 0 has seen epoch 3; its round of epoch 4 ends in this cycle. -/
def sNet : State :=
  { resting Core.reset with
    coll := { Collective.reset with
      epochs := [(0, 3#32)], draining := [(0, 4#32, 100)], lastFlit := [(2, 99)], deadLinks := [5], deadSwitches := [2], failedMembers := [1],
      failureRecords := [(1, 2, 3)], timetables := [table5], instances := [instance71 true 90] } }

theorem test_witness_LinkAndDrainEvents :
    sNet.coll.lastFlit.any (fun e => e.1 == 2 && decide (sNet.cycle < e.2 + 3800)) = true ∧
    (sNet.coll.lastFlit.any (fun e => e.1 == 3 && decide (sNet.cycle < e.2 + 3800)) = false ∧ sNet.coll.deadLinks.contains 3 = false) ∧
    sNet.coll.deadSwitches.contains 2 = true ∧ sNet.coll.deadSwitches.contains 3 = false ∧
    (3#32).toNat ≤ (tblGet 0#32 0 sNet.coll.epochs).toNat ∧ (tblGet 0#32 0 sNet.coll.epochs).toNat < (4#32).toNat ∧
    sNet.coll.failedMembers.contains 1 = true ∧ sNet.coll.failedMembers.contains 0 = false ∧
    (resting Core.reset).coll.lastFlit = [] ∧
    sNet.coll.failureRecords.any (fun r => r.1 == 0) = false ∧ sNet.coll.failureRecords.any (fun r => r.1 == 1) = true ∧
    (∀ e ∈ sNet.coll.draining, e.2 ≠ (3#32, sNet.cycle)) ∧ sNet.coll.draining = [(0, 4#32, sNet.cycle)] ∧ sNet.coll.instances = [instance71 true 90] ∧
    (instance71 true 90).started = true ∧ (instance71 true 90).ended = false ∧ sNet.timetable 70 = some table5 := by
  repeat' apply And.intro
  all_goals decide +kernel

/-! ### Words and steps -/

/-- Well-formed instructions of three columns; in SA a control form. -/
theorem test_witness_EncodingRoundTrip :
    (∀ e ∈ [(Instr.add (rop 3 4 5 0), SlotKind.sa), (.add (rop 31 0 16 0), .sb), (.mfsel 2#3 5#6, .mx), (.clk 31#5, .sy)],
      e.1.slot? = some e.2.column ∧ (e.1.isControl = true → e.2 = .sa) ∧ e.1.wf = true) ∧
    (let i := Instr.bc { unit := 0#2, d := 0#5, a := 7#5, b := 0#5, l := 1#1, guard := 0#3, funct := 1#3 }
     i.slot? = some SlotKind.sa.column ∧ i.isControl = true ∧ i.wf = true) := by
  repeat' apply And.intro
  all_goals decide +kernel

/-- A bundle with a word that is no instruction, and one with an `add`. -/
def sWord (w : W32) : State :=
  let s := issuing (withS []) .sb 0#8
  { s with bnd := { s.bnd with lat := { s.bnd.lat with words := [(0, w)] }, rest := [.sa] } }

theorem test_witness_IllegalWords :
    (let s := sWord 0xFFFFFFFF#32
     s.bnd.active = true ∧ s.bnd.rest = .sa :: [] ∧ (s.core s.bnd.core).seq.run ≠ .halted ∧
     s.bnd.lat.words.find? (fun x => x.1 == SlotKind.sa.num) = some (0, 0xFFFFFFFF#32) ∧ decodeSlot .sa 0xFFFFFFFF#32 = .error .opcode ∧
     s.bnd.probing = false ∧ s.bnd.faulted = 0#12 ∧ (s.core s.bnd.core).frame = none) ∧
    decodeSlot .sb 0x01464280#32 = .ok (.add (rop 3 4 5 0 |> fun r => { r with unit := 1#2 })) ∧
    42 ≤ (0x2B007041#32).toNat / 2 ^ 24 ∧ (0x2B007041#32).toNat / 2 ^ 24 ≤ 48 := by
  repeat' apply And.intro
  all_goals decide +kernel

/-- A slot that is about to be executed; the machine with a word placed; an event that is due; and nothing to do. -/
theorem test_witness_StepRunsDecoded :
    (let s := sWord 0x01464280#32
     s.bnd.active = true ∧ s.bnd.rest = .sa :: [] ∧ (s.core s.bnd.core).seq.run ≠ .halted ∧
     s.bnd.lat.words.find? (fun x => x.1 == SlotKind.sa.num) = some (0, 0x01464280#32) ∧ (decodeSlot .sa 0x01464280#32).toOption.isSome = true ∧
     s.bnd.busy.getLsbD SlotKind.sa.num = false ∧ ({ s.bnd with busy := 1#12 } : Bundle).busy.getLsbD SlotKind.sa.num = true) ∧
    (let s := State.reset.withFetchWord 32 0x01464280
     let c := s.core 0
     s.bnd.active = false ∧ (∀ d ∈ s.agenda, s.cycle < d.at_) ∧ s.cores.find? (fun e => decide (s.turn ≤ e.1) && s.needsTurn e.2) = some (0, c) ∧
     c.seq.run = .running ∧ c.seq.nextIssue ≤ s.cycle ∧ c.fpDue s.cycle = false ∧ c.frame = none ∧ c.owedFpe = false ∧ c.owed = [] ∧ c.replay = none ∧
     c.timed = false ∧ c.interlocked = false ∧ c.seq.preBoundary = false ∧ c.seq.ilDrain = false ∧ c.seq.ilLeave = false ∧ c.leaving = false ∧
     c.far.fault = none ∧
     (∀ f ∈ c.far.ops, f.heldBack = false) ∧ (c.busyPorts s.cycle).getLsbD SlotKind.sa.num = false ∧ s.imageCheck 0 = false ∧
     (s.bundleAt 0).any (fun b => b.words == [(SlotKind.sa.num, 0x01464280#32)] && !bundleIllegal b.words b.pool b.cmask false false) = true ∧
     (decodeSlot .sa 0x01464280#32).toOption.any (fun i => !anchorOp i) = true) ∧
    (let s := State.reset.schedule 0 1 (.loopIterationBoundary 0)
     s.bnd.active = false ∧ s.agenda.map (fun d => (d.at_, d.prio)) = [(s.cycle, 1)]) ∧
    (State.reset.bnd.active = false ∧ (∀ d ∈ State.reset.agenda, State.reset.cycle < d.at_) ∧
      State.reset.cores.find? (fun e => decide (State.reset.turn ≤ e.1) && State.reset.needsTurn e.2) = none) := by
  repeat' apply And.intro
  all_goals decide +kernel

/-- Memory in its canonical form with cells listed, and a step from it. -/
theorem test_witness_StepKeepsMemoryForm :
    ({ State.reset with mem := writeBytes [] (keyPad 0 0x40) [1#8, 0#8, 2#8] } : State).MemForm ∧
    ({ State.reset with mem := writeBytes [] (keyPad 0 0x40) [1#8, 0#8, 2#8] } : State).mem = [(keyPad 0 0x40, 1#8), (keyPad 0 0x42, 2#8)] ∧
    step { State.reset with mem := writeBytes [] (keyPad 0 0x40) [1#8, 0#8, 2#8] } =
      .next { State.reset with cycle := 1, mem := writeBytes [] (keyPad 0 0x40) [1#8, 0#8, 2#8] } :=
  ⟨writeBytes_wf _ _ _ rfl, by decide +kernel, rfl⟩
end Sys2Proof.Tests
end

section
/-!
SUPPORT. Words that are no instruction (R125–R128): what a word that decodes is, the fault of one that does not, and the trap it takes. The trap leaves
the ropes as they were where it ends no slip of the core; where it ends one, the core's accesses land later (R77), and that refutes the statement.
-/

namespace Sys2Proof.Machine

/-! ### What decodes (R125–R127) -/

/-- The opcode column of a slot names only instructions of that column (R126). -/
theorem ctorOf_slot {k : SlotKind} {w : W32} {i : Instr} (h : ctorOf k w = some i) : i.slot? = some k.column := by
  cases k
  all_goals
    simp only [ctorOf, SlotKind.column, ctorScalar, ctorVector, ctorXf, ctorXt, ctorMx, ctorLd, ctorSt, ctorCe, ctorSy] at h
    repeat' split at h
    all_goals (cases h <;> rfl)

/-- Opcodes 42 to 48 of the scalar column are the control forms (R126, R127). -/
theorem ctorScalar_isControl {w : W32} {i : Instr} (hlo : 42 ≤ (fld w 24 8).toNat) (hhi : (fld w 24 8).toNat ≤ 48)
    (h : ctorScalar w = some i) : i.isControl = true := by
  unfold ctorScalar at h
  generalize (fld w 24 8).toNat = op at h hlo hhi
  interval_cases op
  all_goals
    simp only [Option.some.injEq] at h
    repeat' split at h
    all_goals (cases h; rfl)

/-- The opcode of a scalar word is its top byte (R117). -/
theorem scalarOpcode_eq (w : W32) : (fld w 24 8).toNat = w.toNat / 2 ^ 24 := by
  have hw : w.toNat < 2 ^ 32 := w.isLt
  simp only [fld, BitVec.extractLsb'_toNat, Nat.shiftRight_eq_div_pow]
  omega

/-- What decodes is named by the opcode map and passes the three checks after it (R125, R127, R128). -/
theorem decodeSlot_ok {k : SlotKind} {w : W32} {i : Instr} (h : decodeSlot k w = .ok i) :
    ctorOf k w = some i ∧ (i.isControl = true → k ≠ .sb) ∧ encode i = w ∧ i.wf = true := by
  unfold decodeSlot at h
  split at h
  · cases h
  · next j hj =>
    split_ifs at h with hctl henc hwf
    cases h
    exact ⟨hj, by simpa using hctl, by simpa using henc, hwf⟩

/-- A word that decodes is the encoding of a well-formed instruction of its slot (R125–R128). -/
theorem decodeSlot_exact {k : SlotKind} {w : W32} {i : Instr} (h : decodeSlot k w = .ok i) :
    encode i = w ∧ i.wf = true ∧ i.slot? = some k.column ∧ (i.isControl = true → k ≠ .sb) := by
  obtain ⟨hctor, hctl, henc, hwf⟩ := decodeSlot_ok h
  exact ⟨henc, hwf, ctorOf_slot hctor, hctl⟩

/-- A control opcode is no instruction in SB (R127). -/
theorem decodeSlot_sb_ne_ok (w : W32) (hlo : 42 ≤ w.toNat / 2 ^ 24) (hhi : w.toNat / 2 ^ 24 ≤ 48) (i : Instr) : decodeSlot .sb w ≠ .ok i := by
  intro h
  obtain ⟨hctor, hctl, -, -⟩ := decodeSlot_ok h
  rw [← scalarOpcode_eq] at hlo hhi
  exact hctl (ctorScalar_isControl hlo hhi hctor) rfl

/-! ### The fault of a word that is no instruction (R128, R129) -/

/-- The state in which the next slot of the issuing bundle is executed. -/
def State.atSlot (s : State) (k : SlotKind) (w : W32) (rest : List SlotKind) : State :=
  { s with bnd := { s.bnd with slot := k, word := w, rest := rest } }

/-- A bundle whose next slot holds a word that is no instruction: the hypotheses of the statement. -/
structure State.NextWordIllegal (s : State) (k : SlotKind) (rest : List SlotKind) (w : W32) : Prop where
  active : s.bnd.active = true
  next : s.bnd.rest = k :: rest
  runs : (s.core s.bnd.core).seq.run ≠ .halted
  word : s.bnd.lat.words.find? (fun x => x.1 == k.num) = some (k.num, w)
  noInstr : ∃ e, decodeSlot k w = .error e

/-- The step at such a slot is the illegal-instruction fault of the slot (R128). -/
theorem State.NextWordIllegal.step_eq {s : State} {k : SlotKind} {rest : List SlotKind} {w : W32} (h : s.NextWordIllegal k rest w) :
    step s = .next (s.atSlot k w rest).illegalInstruction := by
  obtain ⟨hactive, hnext, hruns, hword, e, hdec⟩ := h
  have hwork : s.nextWork = .done (s.atSlot k w rest).illegalInstruction := by
    simp only [State.nextWork, State.slotWork, hactive, hnext, hruns, hword, hdec, if_true, if_false, State.atSlot]
  simp only [step, hwork]

/-! ### The trap of the first fault of a bundle (R129, R339, R345) -/

@[simp] theorem Core.freeze_regs (c : Core) (now : Nat) (t : TrapReq) : (c.freeze now t).regs = c.regs := Core.csrSetAll_regs c _

theorem Core.freeze_frame_isSome (c : Core) (now : Nat) (t : TrapReq) : (c.freeze now t).frame.isSome = true := rfl

/-- `TCAUSE` of a frozen core. -/
theorem Core.freeze_tcause (c : Core) (now : Nat) (t : TrapReq) : (c.freeze now t).csrGet 0x040 = tcauseWord t.cause t.slot t.fslots := by
  refine (congrArg (fun x : Core => x.csrGet 0x040) (Core.csrSetAll_append c t.records _)).trans ?_
  simp [Core.csrGet_csrSet_any]

/-- `TINFO` of a frozen core. -/
theorem Core.freeze_tinfo (c : Core) (now : Nat) (t : TrapReq) : (c.freeze now t).csrGet 0x043 = tinfoWord t.cause t.sub t.word := by
  refine (congrArg (fun x : Core => x.csrGet 0x043) (Core.csrSetAll_append c t.records _)).trans ?_
  simp [Core.csrGet_csrSet_any]

/-- The low byte of `TCAUSE` is the cause. -/
theorem tcauseWord_cause {cause : Nat} (slot : Nat) (fslots : BitVec 12) (h : cause < 256) : (tcauseWord cause slot fslots).toNat % 256 = cause := by
  simp only [tcauseWord, BitVec.toNat_ofNat]
  omega

/-- `TINFO` of an illegal instruction is its word. -/
theorem tinfoWord_illegal (sub : Nat) (w : W32) : tinfoWord 2 sub w = w.setWidth 64 := by
  simp [tinfoWord]

/-- The machine at the end of a slip that a trap cuts short: what the core has in flight in its rope is as late as the slip has made it (R77). -/
def State.slipCut (s : State) (core : Nat) : State :=
  match (s.core core).slip with
  | some x => s.delayAccesses core (s.cycle - x.1) false
  | none => s

@[simp] theorem State.slipCut_mem (s : State) (core : Nat) : (s.slipCut core).mem = s.mem := by
  unfold State.slipCut; split <;> rfl

@[simp] theorem State.slipCut_core (s : State) (core j : Nat) : (s.slipCut core).core j = s.core j := by
  unfold State.slipCut; split <;> rfl

/-- A slip's end does not depend on the issuing bundle. -/
theorem State.slipCut_bnd_ropes (s : State) (b : Bundle) (core : Nat) : (({ s with bnd := b } : State).slipCut core).ropes = (s.slipCut core).ropes := by
  have hcore : ({ s with bnd := b } : State).core core = s.core core := rfl
  simp only [State.slipCut, hcore]
  split <;> rfl

theorem State.slipCut_of_no_slip (s : State) (core : Nat) (h : (s.core core).slip = none) : s.slipCut core = s := by
  simp only [State.slipCut, h]

/-- A core that is in no trap takes one: it freezes, and its handler is scheduled (R339, R342). -/
theorem State.enterTrap_of_no_frame (s : State) (core : Nat) (t : TrapReq) (hf : (s.core core).frame = none) :
    s.enterTrap core t =
      ((s.slipCut core).modCore core (fun c => c.freeze s.cycle t)).schedule (s.cycle + 8) 0 (.trapHandlerEntry (coreId core)) := by
  unfold State.enterTrap
  rw [hf]
  rfl

theorem State.enterTrap_mem (s : State) (core : Nat) (t : TrapReq) (hf : (s.core core).frame = none) : (s.enterTrap core t).mem = s.mem := by
  simp [State.enterTrap_of_no_frame s core t hf]

theorem State.enterTrap_ropes (s : State) (core : Nat) (t : TrapReq) (hf : (s.core core).frame = none) :
    (s.enterTrap core t).ropes = (s.slipCut core).ropes := by
  simp [State.enterTrap_of_no_frame s core t hf]

theorem State.enterTrap_core (s : State) (core : Nat) (t : TrapReq) (hf : (s.core core).frame = none) :
    (s.enterTrap core t).core core = (s.core core).freeze s.cycle t := by
  simp [State.enterTrap_of_no_frame s core t hf]

/-- The first fault of a bundle takes its trap (R129): what is left of the machine, and the core in its freeze. -/
theorem State.slotFault_first (s : State) (cause sub : Nat) (records : List (Nat × W64)) (hprobe : s.bnd.probing = false) (hfirst : s.bnd.faulted = 0#12)
    (hframe : (s.core s.bnd.core).frame = none) :
    (s.slotFault cause sub true records).mem = s.mem ∧
    (s.slotFault cause sub true records).ropes = (s.slipCut s.bnd.core).ropes ∧
    (s.slotFault cause sub true records).core s.bnd.core = (s.core s.bnd.core).freeze s.cycle
      (s.bundleReq cause sub s.bnd.slot.num s.bnd.word (slotBit s.bnd.slot.num) (slotBit s.bnd.slot.num) false records) := by
  have hentry : ∃ b : Bundle, s.slotFault cause sub true records = ({ s with bnd := b } : State).enterTrap s.bnd.core
      (s.bundleReq cause sub s.bnd.slot.num s.bnd.word (slotBit s.bnd.slot.num) (slotBit s.bnd.slot.num) false records) := by
    simp only [State.slotFault, hprobe, hfirst, Bool.false_eq_true, if_false, if_true, Bool.true_or]
    exact ⟨_, rfl⟩
  obtain ⟨b, hb⟩ := hentry
  have hframe' : (({ s with bnd := b } : State).core s.bnd.core).frame = none := hframe
  rw [hb]
  exact ⟨State.enterTrap_mem _ _ _ hframe', (State.enterTrap_ropes _ _ _ hframe').trans (s.slipCut_bnd_ropes b _), State.enterTrap_core _ _ _ hframe'⟩

/-- The first illegal word of a bundle traps with cause 2 and the word in `TINFO`; memory and registers stay, and the ropes change only as the end of a
slip changes them (R77, R128, R129, R338, R345). -/
theorem State.NextWordIllegal.traps {s : State} {k : SlotKind} {rest : List SlotKind} {w : W32} (h : s.NextWordIllegal k rest w)
    (hprobe : s.bnd.probing = false) (hfirst : s.bnd.faulted = 0#12) (hframe : (s.core s.bnd.core).frame = none) :
    ∃ t, step s = .next t ∧ t.mem = s.mem ∧ t.ropes = (s.slipCut s.bnd.core).ropes ∧
      (t.core s.bnd.core).frame.isSome = true ∧ (t.core s.bnd.core).regs = (s.core s.bnd.core).regs ∧
      ((t.core s.bnd.core).csrGet 0x040).toNat % 256 = 2 ∧ (t.core s.bnd.core).csrGet 0x043 = w.setWidth 64 := by
  obtain ⟨hmem, hropes, hcore⟩ := (s.atSlot k w rest).slotFault_first 2 0 [] hprobe hfirst hframe
  refine ⟨(s.atSlot k w rest).illegalInstruction, h.step_eq, hmem, hropes.trans (s.slipCut_bnd_ropes _ _), ?_⟩
  have hfrozen : ∃ req : TrapReq, (s.atSlot k w rest).illegalInstruction.core s.bnd.core = (s.core s.bnd.core).freeze s.cycle req ∧
      req.cause = 2 ∧ req.sub = 0 ∧ req.word = w := ⟨_, hcore, rfl, rfl, rfl⟩
  obtain ⟨req, hreq, hcause, hsub, hword⟩ := hfrozen
  rw [hreq, Core.freeze_regs, Core.freeze_tcause, Core.freeze_tinfo, hcause, hsub, hword]
  exact ⟨Core.freeze_frame_isSome _ _ _, rfl, tcauseWord_cause _ _ (by decide), tinfoWord_illegal 0 w⟩

/-- Outside a slip the trap leaves the ropes as they were: the last clause of the statement, for the cores that are in no slip. -/
theorem State.NextWordIllegal.traps_of_no_slip {s : State} {k : SlotKind} {rest : List SlotKind} {w : W32} (h : s.NextWordIllegal k rest w)
    (hprobe : s.bnd.probing = false) (hfirst : s.bnd.faulted = 0#12) (hframe : (s.core s.bnd.core).frame = none)
    (hslip : (s.core s.bnd.core).slip = none) :
    ∃ t, step s = .next t ∧ t.mem = s.mem ∧ t.ropes = s.ropes ∧
      (t.core s.bnd.core).frame.isSome = true ∧ (t.core s.bnd.core).regs = (s.core s.bnd.core).regs ∧
      ((t.core s.bnd.core).csrGet 0x040).toNat % 256 = 2 ∧ (t.core s.bnd.core).csrGet 0x043 = w.setWidth 64 := by
  obtain ⟨t, hstep, hmem, hropes, hrest⟩ := h.traps hprobe hfirst hframe
  exact ⟨t, hstep, hmem, hropes.trans (by rw [s.slipCut_of_no_slip _ hslip]), hrest⟩

/-! ### The state that refutes the statement -/

/-- Cycle 100: core 0, in a slip since cycle 80, has a vector load in flight in rope 0, and its bundle holds in SA a word that is no instruction. The
statement is over every state; no run is claimed to reach this one, as a core in a slip issues nothing. -/
def slippedIssue : State :=
  { State.reset with
    cycle := 100
    cores := [(0, { Core.reset with slip := some (80, []), seq := { Sequencer.reset with run := .slipped } })]
    ropes := [(0, { Rope.reset with accs := [State.reset.newAccess .vld 0 0 0 0] })]
    bnd := { Bundle.reset with
      active := true, rest := [.sa], lat := { Latched.reset with words := [(0, 0xFFFFFFFF#32)] } } }

/-- Cutting the slip short makes the load land 20 cycles later. -/
theorem slippedIssue_slipCut_ropes : (slippedIssue.slipCut 0).ropes ≠ slippedIssue.ropes := by
  have hmoved : (slippedIssue.slipCut 0).ropes.map (fun r => r.2.accs.map (·.shift)) = [[20]] := rfl
  have hbefore : slippedIssue.ropes.map (fun r => r.2.accs.map (·.shift)) = [[0]] := rfl
  intro h
  rw [h, hbefore] at hmoved
  exact absurd hmoved (by decide)

/-- Refutes O57: the statement has the ropes stay as they were at the trap of an illegal word, over every state. A trap that cuts a slip of its core short
delays the accesses the core has in flight by the cycles of the slip (R77), which changes the rope; the statement does not ask that the issuing core is in
no slip. Its clauses about the decoder hold (`decodeSlot_exact`, `decodeSlot_sb_ne_ok`), so does the fault (`NextWordIllegal.step_eq`), and so does the trap of
a core in no slip (`NextWordIllegal.traps_of_no_slip`). -/
theorem not_illegalWords : ¬ Obligations.IllegalWords := by
  unfold Obligations.IllegalWords
  rintro ⟨-, -, hill⟩
  have hdec : decodeSlot .sa 0xFFFFFFFF#32 = .error .opcode := by decide
  have hword : slippedIssue.NextWordIllegal .sa [] 0xFFFFFFFF#32 := ⟨rfl, rfl, by decide, rfl, _, hdec⟩
  obtain ⟨-, htrap⟩ := hill slippedIssue .sa [] _ _ hword.active hword.next hword.runs hword.word hdec
  obtain ⟨t, ht, -, hsame, -⟩ := htrap rfl rfl rfl
  obtain ⟨t', ht', -, hcut, -⟩ := hword.traps rfl rfl rfl
  obtain rfl : t = t' := Host.Outcome.next.inj (ht.symm.trans ht')
  exact slippedIssue_slipCut_ropes (hcut.symm.trans hsame)

end Sys2Proof.Machine
end

section
/-!
SUPPORT. The division forms (R192). A scalar form with nothing in its way that writes sD puts that one result in flight (R190); what it puts there is the
quotient or remainder of R192, case by case.
-/

namespace Sys2Proof.Machine

/-! ### A scalar form that writes sD (R117–R119, R190) -/

/-- The checks of `State.Clear` name no predicate: the guard is read before them (R119). -/
theorem State.Clear.withPreds {s : State} {u : SlotUse} (h : s.Clear u) (ps : List Nat) : s.Clear { u with preds := ps } :=
  ⟨h.issues, h.alive, h.sound, h.free, h.settled, h.clean⟩

/-- The predicates that an operation reads leave no mark on the state in which it acts. -/
theorem State.accept_withPreds (s : State) (u : SlotUse) (ps : List Nat) : s.accept { u with preds := ps } = s.accept u := rfl

/-- A scalar form whose guard reads 1 and that nothing stops lands one result, in sD, and its flags. -/
theorem Gives.toS {s : State} {o : ScalarOp} {b d holds rs : Bool} (hlive : s.Live) (hguard : s.bnd.lat.regs.pGet o.guard.toNat = true)
    (hclear : s.Clear (s.scalarUse o true b d holds rs [s.sIdx o.d])) (nominal : Nat) (f : State → W64 × FpFlags) :
    let r := f (s.accept (s.scalarUse o true b d holds rs [s.sIdx o.d]))
    Gives (.next (s.toS o b d holds rs nominal f)) s [(s.aluDelay o nominal, .regs [.s (s.sIdx o.d) r.1], r.2)] := by
  have h := Gives.slotOp_land s _ (hclear.withPreds [64 + o.guard.toNat]) hlive (s.aluDelay o nominal)
    (fun t => .regs [.s (s.sIdx o.d) (f t).1]) (fun t => (f t).2) (fun _ => 0) (fun _ => 0) 0 0
  rw [State.accept_withPreds] at h
  unfold State.toS State.scalarSlot
  rw [hguard]
  exact h

/-- A division lands `f` of its operands at +20 and raises no flag (R190, R192). -/
theorem Gives.divOp {s : State} {o : ScalarOp} (hlive : s.Live) (hguard : s.bnd.lat.regs.pGet o.guard.toNat = true)
    (hclear : s.Clear (s.scalarUse o true true false false false [s.sIdx o.d])) (f : W64 → W64 → W64) :
    Gives (.next (s.divOp o f)) s [(s.aluDelay o 20, .regs [.s (s.sIdx o.d) (f (s.rdS o.a) (s.opB o))], 0#6)] :=
  Gives.toS hlive hguard hclear 20 _

/-! ### Quotient and remainder (R192) -/

theorem divS_zero (a : W64) : divS a 0#64 = BitVec.allOnes 64 := rfl
theorem divN_zero (a : W64) : divN a 0#64 = BitVec.allOnes 64 := rfl
theorem remS_zero (a : W64) : remS a 0#64 = a := rfl
theorem remN_zero (a : W64) : remN a 0#64 = a := rfl

/-- The signed quotient that does not fit wraps to the dividend. -/
theorem divS_intMin_allOnes : divS (BitVec.intMin 64) (BitVec.allOnes 64) = BitVec.intMin 64 := by decide
theorem remS_intMin_allOnes : remS (BitVec.intMin 64) (BitVec.allOnes 64) = 0#64 := by decide

theorem divS_of_ne_zero (a : W64) {b : W64} (hb : b ≠ 0#64) : divS a b = BitVec.ofInt 64 (a.toInt.tdiv b.toInt) := if_neg hb
theorem divN_of_ne_zero (a : W64) {b : W64} (hb : b ≠ 0#64) : divN a b = BitVec.ofNat 64 (a.toNat / b.toNat) := if_neg hb

/-- The signed remainder is what the truncated quotient leaves. -/
theorem remS_of_ne_zero (a : W64) {b : W64} (hb : b ≠ 0#64) :
    remS a b = BitVec.ofInt 64 (a.toInt - b.toInt * a.toInt.tdiv b.toInt) := by
  rw [remS, if_neg hb, Int.tmod_def]

/-- The natural remainder is what the quotient rounded down leaves. -/
theorem remN_of_ne_zero (a : W64) {b : W64} (hb : b ≠ 0#64) :
    remN a b = BitVec.ofNat 64 (a.toNat - b.toNat * (a.toNat / b.toNat)) := by
  rw [remN, if_neg hb, Nat.mod_def]

/-- Settles O3: each form lands its quotient or remainder with no flag, whatever the operands (`Gives.divOp`); the three clauses are the cases of R192. -/
theorem scalarDivisionResults : Obligations.ScalarDivisionResults := by
  unfold Obligations.ScalarDivisionResults
  intro s o hlive hguard hclear a b gives
  have hdiv : gives (.div o) (divS a b) := Gives.divOp hlive hguard hclear divS
  have hdivn : gives (.divn o) (divN a b) := Gives.divOp hlive hguard hclear divN
  have hrem : gives (.rem o) (remS a b) := Gives.divOp hlive hguard hclear remS
  have hremn : gives (.remn o) (remN a b) := Gives.divOp hlive hguard hclear remN
  clear_value gives a b
  refine ⟨?zero, ?corner, ?other⟩
  case zero =>
    rintro rfl
    exact ⟨divS_zero a ▸ hdiv, divN_zero a ▸ hdivn, remS_zero a ▸ hrem, remN_zero a ▸ hremn⟩
  case corner =>
    rintro ⟨rfl, rfl⟩
    exact ⟨divS_intMin_allOnes ▸ hdiv, remS_intMin_allOnes ▸ hrem⟩
  case other =>
    intro hb
    exact ⟨divS_of_ne_zero a hb ▸ hdiv, remS_of_ne_zero a hb ▸ hrem, divN_of_ne_zero a hb ▸ hdivn, remN_of_ne_zero a hb ▸ hremn⟩

end Sys2Proof.Machine
end

section
/-!
SUPPORT. The trap of a system call (R338, R339, R342, R343, R345, R349): what the freeze of a core writes and keeps, what the first fault of a bundle does
when its slot is not issued again, and what a double trap leaves.
-/

namespace Sys2Proof.Machine

/-! ### What a freeze writes and keeps (R339, R345) -/

/-- `TSTATUS` as a freeze writes it. -/
def Core.trapStatus (c : Core) (t : TrapReq) : W64 :=
  tstatusWord (if t.goOn then c.pendingRpl ||| t.rpl else t.rpl) c.timed (!c.belay.regions.isEmpty) c.owedFpe t.reported.isSome (!c.owed.isEmpty)

/-- A control register of a frozen core: the four trap registers are written last, after the records of the trap. -/
theorem Core.freeze_csrGet (c : Core) (now : Nat) (t : TrapReq) (n : Nat) :
    (c.freeze now t).csrGet n =
      if 0x041 = n then c.trapStatus t
      else if 0x043 = n then tinfoWord t.cause t.sub t.word
      else if 0x042 = n then pcWord t.pc
      else if 0x040 = n then tcauseWord t.cause t.slot t.fslots
      else (c.csrSetAll t.records).csrGet n := by
  refine (congrArg (fun x : Core => x.csrGet n) (Core.csrSetAll_append c t.records _)).trans ?_
  simp only [Core.csrSetAll_cons, Core.csrSetAll_nil, Core.csrGet_csrSet_any, Core.trapStatus]

/-- `TPC` of a frozen core. -/
theorem Core.freeze_tpc (c : Core) (now : Nat) (t : TrapReq) : (c.freeze now t).csrGet 0x042 = pcWord t.pc := Core.freeze_csrGet c now t 0x042

/-- `TSTATUS` of a frozen core. -/
theorem Core.freeze_tstatus (c : Core) (now : Nat) (t : TrapReq) : (c.freeze now t).csrGet 0x041 = c.trapStatus t := Core.freeze_csrGet c now t 0x041

/-- A trap with no records leaves every other control register. -/
theorem Core.freeze_csrGet_other (c : Core) (now : Nat) (t : TrapReq) (hrec : t.records = []) {n : Nat} (h : n ∉ [0x040, 0x041, 0x042, 0x043]) :
    (c.freeze now t).csrGet n = c.csrGet n := by
  simp only [List.mem_cons, List.not_mem_nil, or_false, not_or] at h
  obtain ⟨hcause, hstatus, hpc, hinfo⟩ := h
  rw [Core.freeze_csrGet, if_neg (Ne.symm hstatus), if_neg (Ne.symm hinfo), if_neg (Ne.symm hpc), if_neg (Ne.symm hcause), hrec, Core.csrSetAll_nil]

theorem Core.freeze_run (c : Core) (now : Nat) (t : TrapReq) : (c.freeze now t).seq.run = .frozen := rfl
theorem Core.freeze_pc (c : Core) (now : Nat) (t : TrapReq) : (c.freeze now t).seq.pc = c.seq.pc := rfl
theorem Core.freeze_transfer (c : Core) (now : Nat) (t : TrapReq) : (c.freeze now t).seq.transfer = none := rfl
theorem Core.freeze_loops (c : Core) (now : Nat) (t : TrapReq) : (c.freeze now t).seq.loops = c.seq.loops := rfl

theorem Core.freeze_inflight (c : Core) (now : Nat) (t : TrapReq) :
    (c.freeze now t).inflight = c.inflight.filter (fun l => decide (l.at_ ≤ now)) := rfl

/-- Outside a slip the matrix array is not delayed. -/
theorem Core.freeze_mx_of_no_slip (c : Core) (now : Nat) (t : TrapReq) (h : c.slip = none) : (c.freeze now t).mx = c.mx := by
  unfold Core.freeze
  rw [h]

/-- The frame takes the results that land later; outside a slip they keep their landing cycles. -/
theorem Core.freeze_frame (c : Core) (now : Nat) (t : TrapReq) :
    ∃ f, (c.freeze now t).frame = some f ∧ (c.slip = none → f.landings = c.inflight.filter (fun l => decide (now < l.at_))) ∧
      f.c = now ∧ f.transfer = c.seq.transfer := by
  refine ⟨_, rfl, ?_, rfl, rfl⟩
  intro h
  simp only [h, List.nil_append]

/-- A status bit of weight `2 ^ k`, as a multiple of it. -/
theorem ite_two_pow (b : Bool) (k : Nat) : (if b then 2 ^ k else 0) = b.toNat * 2 ^ k := by
  cases b
  · exact (Nat.zero_mul _).symm
  · exact (Nat.one_mul _).symm

/-- The low twelve bits of `TSTATUS` are RPL: its status bits stand above them. -/
theorem tstatusWord_rpl (rpl : BitVec 12) (td inreg fpe late held : Bool) : (tstatusWord rpl td inreg fpe late held).toNat % 2 ^ 12 = rpl.toNat := by
  have hrpl := rpl.isLt
  simp only [tstatusWord, ite_two_pow, BitVec.toNat_ofNat]
  omega

/-- `TINFO` of a cause that has a word and no subcause is the word. -/
theorem tinfoWord_of_word {cause : Nat} (sub : Nat) (w : W32) (h5 : cause ≠ 5) (h11 : cause ≠ 11) (h14 : cause ≠ 14) :
    tinfoWord cause sub w = w.setWidth 64 := by
  simp [tinfoWord, h5, h11, h14]

/-! ### What a trap leaves of the machine (R339, R342) -/

theorem State.enterTrap_core_ne (s : State) (core : Nat) (t : TrapReq) (hf : (s.core core).frame = none) {j : Nat} (hj : j ≠ core) :
    (s.enterTrap core t).core j = s.core j := by
  rw [State.enterTrap_of_no_frame s core t hf, State.schedule_core, State.modCore_core_ne _ _ hj.symm, State.slipCut_core]

/-- The handler enters eight cycles after the freeze. -/
theorem State.enterTrap_agenda (s : State) (core : Nat) (t : TrapReq) (hf : (s.core core).frame = none) :
    { at_ := s.cycle + 8, prio := 0, ev := .trapHandlerEntry (coreId core) } ∈ (s.enterTrap core t).agenda := by
  rw [State.enterTrap_of_no_frame s core t hf]
  exact (mem_insertDue _ _ _).mpr (Or.inl rfl)

/-! ### A trap in trap mode (R343) -/

theorem State.endLaunch_mem (s : State) (launch status : Nat) : (s.endLaunch launch status).mem = s.mem := by
  unfold State.endLaunch
  refine List.foldlRecOn (motive := fun x : State => x.mem = s.mem) _ _ ?_ (fun _ hx _ _ => hx)
  exact List.foldlRecOn (motive := fun x : State => x.mem = s.mem) _ _ rfl (fun _ hx _ _ => hx)

/-- The end of a launch only halts cores. -/
theorem State.endLaunch_keeps_halted (s : State) (launch status core : Nat) (h : (s.core core).seq.run = .halted) :
    ((s.endLaunch launch status).core core).seq.run = .halted := by
  unfold State.endLaunch
  refine List.foldlRecOn (motive := fun x : State => (x.core core).seq.run = .halted) _ _ ?_ (fun _ hx _ _ => hx)
  refine List.foldlRecOn (motive := fun x : State => (x.core core).seq.run = .halted) _ _ h (fun x hx i _ => ?_)
  rw [State.modCore_core_any]
  split
  · rfl
  · exact hx

theorem State.doubleTrap_mem (s : State) (core : Nat) : (s.doubleTrap core).mem = s.mem := by
  simp only [State.doubleTrap]
  split
  · exact State.endLaunch_mem _ _ _
  · rfl

theorem State.doubleTrap_halts (s : State) (core : Nat) : ((s.doubleTrap core).core core).seq.run = .halted := by
  have hhalt : ((s.modCore core (fun x => { x with seq := { x.seq with run := .halted } })).core core).seq.run = .halted := by
    rw [State.modCore_core]
  simp only [State.doubleTrap]
  split
  · exact State.endLaunch_keeps_halted _ _ _ _ hhalt
  · exact hhalt

theorem State.enterTrap_of_frame (s : State) (core : Nat) (t : TrapReq) (hf : (s.core core).frame.isSome = true) : s.enterTrap core t = s.doubleTrap core := by
  obtain ⟨f, hf⟩ := Option.isSome_iff_exists.mp hf
  simp only [State.enterTrap, hf]

/-! ### `trap` and `sys` (R349) -/

/-- What `trap` and `sys` report: their cause and slot word, with the slot not to be issued again. -/
def State.callReq (s : State) (cause : Nat) : TrapReq :=
  s.bundleReq cause 0 s.bnd.slot.num s.bnd.word (slotBit s.bnd.slot.num) 0#12 false []

/-- As the first fault of its bundle, a cause whose slot is not issued again enters its trap with RPL empty. -/
theorem State.slotFault_call (s : State) (cause : Nat) (hprobe : s.bnd.probing = false) (hfirst : s.bnd.faulted = 0#12) :
    ∃ b : Bundle, s.slotFault cause 0 false [] = ({ s with bnd := b } : State).enterTrap s.bnd.core (s.callReq cause) := by
  simp only [State.slotFault, State.callReq, hprobe, hfirst, Bool.false_eq_true, if_false, if_true, Bool.false_or, bne_self_eq_false]
  exact ⟨_, rfl⟩

/-- Either form is the fault of its cause. -/
theorem exec_systemCall (s : State) (code : BitVec 16) :
    ∀ e ∈ [(Instr.trap code, 23), (.sys code, 24)], exec e.1 s = .next (s.slotFault e.2 0 false []) ∧ (e.2 = 23 ∨ e.2 = 24) := by
  intro e he
  obtain rfl | rfl : e = (.trap code, 23) ∨ e = (.sys code, 24) := by simpa only [List.mem_cons, List.not_mem_nil, or_false] using he
  · exact ⟨rfl, Or.inl rfl⟩
  · exact ⟨rfl, Or.inr rfl⟩

/-- `TCAUSE` of a system call names its cause, its slot and the slot alone in FSLOTS. -/
theorem Core.freeze_call_tcause (c : Core) (now : Nat) (s : State) {cause : Nat} (h : cause = 23 ∨ cause = 24) :
    (c.freeze now (s.callReq cause)).csrGet 0x040 =
      BitVec.ofNat 64 (cause + (slotBit s.bnd.slot.num).toNat * 2 ^ 12 + s.bnd.slot.num % 16 * 2 ^ 24) := by
  have hlow : cause % 256 = cause := by omega
  rw [Core.freeze_tcause]
  simp only [State.callReq, State.bundleReq, tcauseWord, hlow]

/-- `TINFO` of a system call is its slot word. -/
theorem Core.freeze_call_tinfo (c : Core) (now : Nat) (s : State) {cause : Nat} (h : cause = 23 ∨ cause = 24) :
    (c.freeze now (s.callReq cause)).csrGet 0x043 = s.bnd.word.setWidth 64 := by
  have h5 : cause ≠ 5 := by omega
  have h11 : cause ≠ 11 := by omega
  have h14 : cause ≠ 14 := by omega
  exact (Core.freeze_tinfo _ _ _).trans (tinfoWord_of_word _ _ h5 h11 h14)

/-- RPL of a system call names no slot. -/
theorem Core.freeze_call_rpl (c : Core) (now : Nat) (s : State) (cause : Nat) :
    ((c.freeze now (s.callReq cause)).csrGet 0x041).toNat % 2 ^ 12 = 0 := by
  rw [Core.freeze_tstatus]
  exact tstatusWord_rpl _ _ _ _ _ _

/-- Settles O36: outside trap mode the form enters its trap (`State.enterTrap_of_no_frame`), so the core is its own freeze and the registers are those that
the freeze writes; in trap mode the entry is a double trap (`State.enterTrap_of_frame`). -/
theorem systemCalls : Obligations.SystemCalls := by
  unfold Obligations.SystemCalls
  intro s code e he core c hprobe hfirst
  obtain ⟨hexec, hcause⟩ := exec_systemCall s code e he
  obtain ⟨b, hentry⟩ := s.slotFault_call e.2 hprobe hfirst
  rw [hexec, hentry]
  refine ⟨fun hframe => ?outside, fun hframe => ?handler⟩
  case outside =>
    have hframe' : (({ s with bnd := b } : State).core core).frame = none := hframe
    have hropes : c.slip = none → (({ s with bnd := b } : State).enterTrap core (s.callReq e.2)).ropes = s.ropes := by
      intro hslip
      rw [State.enterTrap_ropes _ _ _ hframe', State.slipCut_bnd_ropes, State.slipCut_of_no_slip _ _ hslip]
    have hcore : (({ s with bnd := b } : State).enterTrap core (s.callReq e.2)).core core = c.freeze s.cycle (s.callReq e.2) :=
      State.enterTrap_core _ _ _ hframe'
    obtain ⟨f, hf, hlandings, hfc, hftransfer⟩ := c.freeze_frame s.cycle (s.callReq e.2)
    refine ⟨_, f, rfl, ?_⟩
    rw [hcore]
    exact ⟨hf, State.enterTrap_mem _ _ _ hframe', hropes, fun j hj => State.enterTrap_core_ne _ _ _ hframe' hj, Core.freeze_regs _ _ _,
      Core.freeze_mx_of_no_slip _ _ _, Core.freeze_run _ _ _, Core.freeze_pc _ _ _, Core.freeze_transfer _ _ _, Core.freeze_loops _ _ _,
      Core.freeze_inflight _ _ _, hlandings, hfc, hftransfer, Core.freeze_call_tcause _ _ _ hcause, Core.freeze_tpc _ _ _,
      Core.freeze_call_tinfo _ _ _ hcause, Core.freeze_call_rpl _ _ _ _, fun n hn => Core.freeze_csrGet_other _ _ _ rfl hn, State.enterTrap_agenda _ _ _ hframe'⟩
  case handler =>
    have hframe' : (({ s with bnd := b } : State).core core).frame.isSome = true := hframe
    rw [State.enterTrap_of_frame _ _ _ hframe']
    exact ⟨_, rfl, State.doubleTrap_halts _ _, State.doubleTrap_mem _ _⟩

end Sys2Proof.Machine
end
